-- ==== Sys2Proof/Word.lean ====
section
/-!
DEFINITION. Sys2Proof/Word.lean: the word types of the block, by the widths spec/00_scope.md R7 to R11 and
spec/02_homing_and_larder_layout.md R56 give, and their plainest arithmetic.
-/
namespace Sys2Proof

/-- A register, 64 bits wide (00_scope.md R11). -/
abbrev Word := BitVec 64
/-- A physical address PA[55:0] (02 R56). -/
abbrev Pa := BitVec 56
/-- A line address PA[55:8] (02 R56). -/
abbrev LineAddr := BitVec 48
/-- The 256 bytes of a line, byte 0 lowest (02 R56, 03 R87). -/
abbrev LineData := BitVec 2048
/-- One byte enable per byte of a line (03 R87). -/
abbrev LineMask := BitVec 256
/-- A 12-bit agent ID, instance number above local number (00 R7). -/
abbrev AgentId := BitVec 12
/-- A 10-bit transaction tag (03 R83). -/
abbrev Tag := BitVec 10
/-- A 24-bit admission stamp, counted in age ticks (06 R198). -/
abbrev Stamp := BitVec 24
/-- A 24-bit byte offset in the register space (00 R11). -/
abbrev RegOff := BitVec 24

/-- The agent ID of a local number on an instance (00 R20's `agent_id`). -/
def agentId (inst : BitVec 6) (loc : BitVec 6) : AgentId := inst ++ loc
/-- The instance part of an agent ID (00 R7). -/
def agentInst (a : AgentId) : BitVec 6 := a.extractLsb' 6 6
/-- The local part of an agent ID (00 R7). -/
def agentLocal (a : AgentId) : BitVec 6 := a.extractLsb' 0 6

/-- The byte address of a line (02 R56). -/
def linePa (x : LineAddr) : Pa := x ++ (0#8)
/-- The line of a byte address (02 R56). -/
def paLine (pa : Pa) : LineAddr := pa.extractLsb' 8 48

/-- Bits [hi:lo] of a word as a number (00 R7). -/
def bits (w : Word) (hi lo : Nat) : Nat := (w >>> lo).toNat % 2 ^ (hi - lo + 1)
/-- Bit n of a word (00 R7). -/
def bit (w : Word) (n : Nat) : Bool := w.getLsbD n
/-- A number placed at bit lo of a word. -/
def at' (v : Nat) (lo : Nat) : Word := BitVec.ofNat 64 (v <<< lo)
/-- A word with bits [hi:lo] replaced by the low bits of v. -/
def withBits (w : Word) (hi lo v : Nat) : Word :=
  let m : Word := BitVec.ofNat 64 ((2 ^ (hi - lo + 1) - 1) <<< lo)
  (w &&& ~~~m) ||| (BitVec.ofNat 64 (v <<< lo) &&& m)

/-- The age of a stamp at a tick (06 R198). -/
def age (tick stamp : Stamp) : Nat := (tick - stamp).toNat

end Sys2Proof
end

