-- ==== Sys2Proof/Machine/Ops.lean ====
section
/-!
DEFINITION. Sys2Proof/Machine/Ops.lean: the sparse map that holds every array of the block in one canonical form
(keys rising, no entry equal to the default), and small list and bit operations the meanings share.
-/
namespace Sys2Proof.Machine

/-- A sparse array: key and value pairs, keys strictly rising, no entry equal to the array's default. -/
abbrev Map (α : Type) := List (Nat × α)

/-- Read key k, where an unlisted key reads as d. -/
def mget {α : Type} (d : α) : Map α → Nat → α
  | [], _ => d
  | (j, v) :: m, k => if j = k then v else if k < j then d else mget d m k

/-- Whether key k is listed. -/
def mhas {α : Type} : Map α → Nat → Bool
  | [], _ => false
  | (j, _) :: m, k => if j = k then true else mhas m k

/-- The listed value of key k, if any. -/
def mfind {α : Type} : Map α → Nat → Option α
  | [], _ => none
  | (j, v) :: m, k => if j = k then some v else mfind m k

/-- The map without key k. -/
def merase {α : Type} : Map α → Nat → Map α
  | [], _ => []
  | (j, v) :: m, k => if j = k then m else if k < j then (j, v) :: m else (j, v) :: merase m k

/-- The map with key k listed as v. -/
def mput {α : Type} : Map α → Nat → α → Map α
  | [], k, v => [(k, v)]
  | (j, u) :: m, k, v =>
    if j = k then (k, v) :: m else if k < j then (k, v) :: (j, u) :: m else (j, u) :: mput m k v

/-- Write key k, keeping the canonical form for default d. -/
def mset {α : Type} [DecidableEq α] (d : α) (m : Map α) (k : Nat) (v : α) : Map α :=
  if v = d then merase m k else mput m k v

/-- The keys strictly rise and none lies below b. -/
def mrising {α : Type} : Nat → Map α → Bool
  | _, [] => true
  | b, (j, _) :: m => decide (b ≤ j) && mrising (j + 1) m

/-- The canonical form of a sparse array with default d. -/
def Map.wf {α : Type} [DecidableEq α] (d : α) (m : Map α) : Bool :=
  mrising 0 m && m.all (fun e => decide (e.2 ≠ d))

/-- The set bits of v below n, lowest first. -/
def setBits {w : Nat} (v : BitVec w) (n : Nat) : List Nat := (List.range n).filter (fun i => v.getLsbD i)
/-- The number of set bits of v. -/
def popcount {w : Nat} (v : BitVec w) : Nat := (setBits v w).length
/-- The one-bit vector for index i. -/
def oneHot (w : Nat) (i : Nat) : BitVec w := BitVec.ofNat w (2 ^ i)
/-- v with bit i set. -/
def setBit {w : Nat} (v : BitVec w) (i : Nat) : BitVec w := v ||| oneHot w i
/-- v with bit i clear. -/
def clearBit {w : Nat} (v : BitVec w) (i : Nat) : BitVec w := v &&& ~~~(oneHot w i)
/-- v with bit i equal to b. -/
def putBit {w : Nat} (v : BitVec w) (i : Nat) (b : Bool) : BitVec w := if b then setBit v i else clearBit v i

/-- Update the elements of a list that meet p. -/
def updateWhere {α : Type} (p : α → Bool) (f : α → α) (l : List α) : List α :=
  l.map (fun x => if p x then f x else x)

/-- An element put before the first one it may precede, and a list put in that order; equal elements keep theirs. -/
def insertBy {α : Type} (le : α → α → Bool) (x : α) : List α → List α
  | [] => [x]
  | y :: l => if le x y then x :: y :: l else y :: insertBy le x l
def sortBy {α : Type} (le : α → α → Bool) (l : List α) : List α := l.foldr (insertBy le) []

/-- The byte mask spread to bits: byte i is all ones where bit i of the mask is 1 (03 R87). -/
def spreadMask (m : LineMask) : LineData :=
  (setBits m 256).foldl (fun acc i => acc ||| ((0xFF#2048) <<< (8 * i))) 0#2048

/-- Bytes of d where the mask is 1, of old elsewhere (04 R134). -/
def mergeLine (old d : LineData) (m : LineMask) : LineData :=
  let k := spreadMask m
  (old &&& ~~~k) ||| (d &&& k)

/-- Every byte enabled. -/
def fullMask : LineMask := BitVec.allOnes 256

/-- Fold a state over a list of arguments, first to last. -/
def foldS {σ α : Type} (f : α → σ → σ) (l : List α) (s : σ) : σ := l.foldl (fun s a => f a s) s

end Sys2Proof.Machine
end

