-- ==== Sys2Proof/Message.lean ====
section
/-!
DEFINITION. Sys2Proof/Message.lean: the message header, the opcodes and the small field codes of
spec/03_line_states_and_messages.md R80 to R93, as commands and State carry them.
-/
namespace Sys2Proof

/-- The message header without its opcode (03 R83). The opcode is the command's constructor, or stands beside it. -/
structure Hdr where
  /-- ID of the requesting agent. -/
  agent : AgentId
  /-- The requesting agent's transaction tag. -/
  tag : Tag
  /-- Replay epoch. -/
  epoch : BitVec 4
  /-- POISON of a data message. -/
  poison : Bool
  /-- CREDIT: the pool header credit (true) or the mooring credit (false). -/
  credit : Bool
  /-- Opcode-dependent hint (03 R91). -/
  hint : BitVec 4
  /-- ID of the responder. -/
  peer : AgentId
  /-- Sending instance. -/
  srci : BitVec 6
  /-- Destination instance. -/
  dsti : BitVec 6
  /-- PA[55:8]. -/
  line : LineAddr
  /-- Opcode-dependent parameter (03 R92). -/
  param : BitVec 16
  deriving DecidableEq, Repr

/-- A header of all zeros. -/
def Hdr.zero : Hdr := ⟨0, 0, 0, false, false, 0, 0, 0, 0, 0, 0⟩

/-- Two beats of line data with their byte enables (03 R87). -/
structure Beats where
  /-- Bytes 0 to 255. -/
  data : LineData
  /-- Byte enables. -/
  mask : LineMask
  /-- ONEBEAT: only beat 0 follows (03 R92). -/
  one : Bool
  deriving DecidableEq, Repr

/-- Whole-line data with every byte enabled (03 R87). -/
def Beats.line (d : LineData) : Beats := ⟨d, BitVec.allOnes 256, false⟩

/-- A whole message: opcode, header and data beats where it has them. -/
structure Msg where
  /-- Opcode (03 R89). -/
  op : BitVec 8
  /-- Header. -/
  h : Hdr
  /-- Data beats of a data message. -/
  beats : Option Beats
  deriving DecidableEq, Repr

/-- Where a message arrives: a fabric port or the link-layer output of a Culvert port. -/
inductive Src where
  | fabric (port : Fin 4)
  | culvert (port : Fin 6)
  deriving DecidableEq, Repr

/-! Opcodes of 03 R89. -/

def opRdS : BitVec 8 := 0x00
def opRdF : BitVec 8 := 0x01
def opRdO : BitVec 8 := 0x02
def opUpg : BitVec 8 := 0x03
def opRdNa : BitVec 8 := 0x04
def opWrFull : BitVec 8 := 0x10
def opWrPart : BitVec 8 := 0x11
def opAtom : BitVec 8 := 0x18
def opWbD : BitVec 8 := 0x20
def opSettle : BitVec 8 := 0x28
def opSnpS : BitVec 8 := 0x40
def opSnpFs : BitVec 8 := 0x41
def opSnpFo : BitVec 8 := 0x42
def opSnpI : BitVec 8 := 0x43
def opSnpNa : BitVec 8 := 0x44
def opSnpQ : BitVec 8 := 0x48
def opRspI : BitVec 8 := 0x60
def opRspS : BitVec 8 := 0x61
def opRspFwd : BitVec 8 := 0x62
def opRspD : BitVec 8 := 0x63
def opRspAbsent : BitVec 8 := 0x64
def opRspWbx : BitVec 8 := 0x65
def opRspQ : BitVec 8 := 0x68
def opDatS : BitVec 8 := 0x80
def opDatF : BitVec 8 := 0x81
def opDatE : BitVec 8 := 0x82
def opDatM : BitVec 8 := 0x83
def opDatNa : BitVec 8 := 0x84
def opCmp : BitVec 8 := 0xA0
def opCmpNear : BitVec 8 := 0xA1
def opCmpAtom : BitVec 8 := 0xA2
def opCmpSettle : BitVec 8 := 0xA3
def opCmpTrap : BitVec 8 := 0xA8
def opCmpHalt : BitVec 8 := 0xA9
def opCmpPoison : BitVec 8 := 0xAA

/-- Agent cache state codes (03 R80): I, S, F, E, M. -/
def stI : BitVec 3 := 0
def stS : BitVec 3 := 1
def stF : BitVec 3 := 2
def stE : BitVec 3 := 3
def stM : BitVec 3 := 4

/-- A received state code, a reserved code read as M (03 R80). -/
def readState (c : BitVec 3) : BitVec 3 := if c.toNat ≤ 4 then c else stM

/-- The state a data opcode grants (03 R89): DAT_S, DAT_F, DAT_E, DAT_M; I for DAT_NA. -/
def grantOf (op : BitVec 8) : BitVec 3 :=
  if op = opDatS then stS else if op = opDatF then stF else if op = opDatE then stE
  else if op = opDatM then stM else stI

/-- The berth class of a request (03 R89): READ 0, OWN 1, ATOM 2, WB 3. -/
def classOf (op : BitVec 8) : Nat :=
  if op = opRdO ∨ op = opUpg ∨ op = opWrFull ∨ op = opWrPart then 1
  else if op = opAtom then 2 else if op = opWbD then 3 else 0

/-- Whether a request carries data (03 R90). -/
def carriesData (op : BitVec 8) : Bool :=
  op = opWrFull || op = opWrPart || op = opAtom || op = opWbD

end Sys2Proof
end

