-- ==== Sys2Proof/Machine/CoreTypes.lean ====
section
/-!
DEFINITION. Sys2Proof/Machine/CoreTypes.lean: the plain data of the coherence engine: berths, snoop intake, barges and
chambers (spec/06_berths_chambers_races.md), Sieves, Larder and Overflow engines (05), Skillet (07), Wharf (06 R204),
memory port tables (18) and the power-fail drain (08).
-/
namespace Sys2Proof.Machine

/-- A home record's state (03 R97). -/
inductive RecSt where
  | i | s | sf | x | suspect | poison
  deriving DecidableEq, Repr

/-- The chips a home record lists (03 R98). -/
inductive Chips where
  | ptrs (l : List (BitVec 6))
  | pairs (v : BitVec 32)
  | all
  deriving DecidableEq, Repr

/-- A home record (03 R97, 05 R140). -/
structure HomeRec where
  st : RecSt
  owner : BitVec 6
  chips : Chips
  deriving DecidableEq, Repr

/-- The I record. -/
def HomeRec.none : HomeRec := ⟨.i, 0, .ptrs []⟩

/-- A Local Sieve entry's state (03 R104). Local state I has no entry. -/
inductive LocSt where
  | s | sf | x | unknown
  deriving DecidableEq, Repr

/-- The chip's standing at the home (03 R104). -/
inductive Rights where
  | shared | fwd | excl
  deriving DecidableEq, Repr

/-- A Local Sieve entry without its tag (03 R104, 05 R159). -/
structure LocEnt where
  st : LocSt
  rights : Rights
  owner : BitVec 6
  v : BitVec 64
  deriving DecidableEq, Repr

/-- A Home Sieve way (05 R153). ECC is not stored: it is a code over the other bits (a log entry says so). -/
structure HsWay where
  dirty : Bool
  tag : BitVec 23
  rcd : HomeRec
  deriving DecidableEq, Repr

/-- A Local Sieve way (05 R159). -/
structure LsWay where
  line : LineAddr
  ent : LocEnt
  deriving DecidableEq, Repr

/-- An item in the berth array: one request in a berth entry (06 R187, R188). -/
structure Berth where
  /-- Model's own name of the entry. -/
  id : Nat
  op : BitVec 8
  h : Hdr
  /-- OWN of an own-account WB_D (03 R597). -/
  own : Bool
  /-- The entry is a pool header entry (CREDIT 1). -/
  pool : Bool
  /-- Fabric port whose allotment it uses, for a local agent. -/
  port : Option (Fin 4)
  stamp : Stamp
  /-- Slice hash kept from arrival (02 R66). -/
  hash : BitVec 4
  /-- Message order of arrival, for covered writes of a SETTLE (04 R136). -/
  seq : Nat
  /-- The request's data and mask, when any has arrived. -/
  data : Option Beats := none
  /-- Wharf endpoint over which that data came (01 R42). -/
  ep : Nat := 0
  /-- Data arrived with POISON 1. -/
  poison : Bool := false
  /-- Its data has SOURCE 0b11: made up for a lost line (11 R376). -/
  made : Bool := false
  /-- Every beat has arrived, or the request carries none. -/
  full : Bool := false
  /-- Admitted into a barge of a physical slice. -/
  slice : Option Nat := none
  /-- The completion has been sent and the data awaits memory acceptance (04 R132). -/
  posted : Bool := false
  /-- Counted as a posted line (08 R268). -/
  counted : Bool := false
  /-- The data is on its way to memory: a write of it is issued or queued. -/
  writing : Bool := false
  /-- The entry only waits for its data to be discarded (02 R61). -/
  discard : Bool := false
  /-- FORWARDED of a failed slice's item, its stored completion, and whether its data has been delivered (11 R381, R387). -/
  fwd : Bool := false
  cmp : Option Msg := none
  got : Bool := false
  /-- Some of that data carried POISON 1. -/
  gotBad : Bool := false
  /-- Data for the requester that arrived while the entry waits for its replay, with the Wharf endpoint it came to (11 R387). -/
  held : Option (Nat × Msg) := none
  /-- CREDIT under which the proxy forwarded it, which its data copies (03 R83). -/
  credit : Bool := false
  /-- Its completion waits at its fabric port: the entry is freed when that has been delivered (01 R45). -/
  cmpWait : Bool := false
  /-- Nothing but that delivery keeps the entry (01 R45). -/
  ended : Bool := false
  /-- A WR_FULL whose data is the lost-line data of a dead agent: its record becomes POISON (11 R395). -/
  lostWr : Bool := false
  deriving DecidableEq, Repr

/-- Request data that arrived before its request (04 R119). -/
structure EarlyData where
  port : Fin 4
  loc : BitVec 6
  tag : Tag
  credit : Bool
  op : BitVec 8
  beats : Beats
  poison : Bool
  /-- It carries SOURCE 0b11 with its poison: made up for a lost line (11 R376). -/
  made : Bool := false
  deriving DecidableEq, Repr

/-- An entry of the snoop intake (06 R194). -/
structure SnoopItem where
  id : Nat
  op : BitVec 8
  h : Hdr
  stamp : Stamp
  hash : BitVec 4
  slice : Option Nat
  /-- The map of a census page, once it has come (05 R171). -/
  map : Option (BitVec 128) := none
  deriving DecidableEq, Repr

/-- What a memory write carries, and so what its acceptance does (08 R262). -/
inductive WSrc where
  | berth (id : Nat)
  | reserve
  | skillet (p idx : Nat)
  | drip (p idx : Nat)
  | larder (page : Nat)
  | overflow (job : Nat)
  | dump
  | logbook
  /-- A drain write that has been acknowledged and whose tag only awaits its persistence acknowledgement. -/
  | drained
  deriving DecidableEq, Repr

/-- A maintenance operation (07 R247). -/
inductive MaintOp where
  | clean | invalidate | cleanInvalidate
  deriving DecidableEq, Repr

/-- An internal operation of a slice (06 R196). -/
inductive InternalKind where
  /-- Maintenance by address, for a Towpath command by its name in the model. -/
  | maint (op : MaintOp) (cmd : Nat)
  /-- Overflow tidy of an entry (05 R183). -/
  | tidy
  /-- Resolution of a line's entry that names an agent that AGENT_ADMIT admits (15 R525). -/
  | sweep (loc : BitVec 6)
  /-- Skillet prefetch (07 R244). -/
  | prefetch
  /-- A line that the Dump or Logbook engine writes to a range that is not RESV: a WR_FULL from no agent (16 R549). -/
  | engineWrite (src : WSrc) (d : LineData)
  /-- A line that the Overlay engine reads from a range that is not RESV: an RD_NA from no agent (16 R549). -/
  | engineRead (part : Nat)
  deriving DecidableEq, Repr

/-- A waiting internal operation (06 R196, R198). -/
structure Internal where
  id : Nat
  kind : InternalKind
  line : LineAddr
  stamp : Stamp
  deriving DecidableEq, Repr

/-- What a barge was admitted for (06 R196). -/
inductive Item where
  | req (id : Nat)
  | snoop (id : Nat)
  | internal (k : InternalKind)
  deriving DecidableEq, Repr

/-- Where a barge stands in its flow. -/
inductive Phase where
  /-- In its chamber, with no decision made. -/
  | waiting
  /-- At the proxy role, or a home snoop at the proxy: a lookup or a round of local snoops is outstanding (03 R105 to R107). -/
  | atProxy
  /-- Is to be forwarded, or passed to the home role, and waits for a WB_D (06 R210) or for a credit (06 R193). -/
  | toForward
  /-- Forwarded, its completion awaited (06 R209). -/
  | forwarded
  /-- The completion has arrived: other local holders (04 R124), its data (04 R117) or a spill buffer slot (05 R161) is
  awaited. -/
  | granted
  /-- Is to look up the home record. -/
  | atHome
  /-- Awaits the home record from the Larder engine (05 R150). -/
  | recordWait
  /-- Decided at the home: snoops, data or merge outstanding (04 R122). -/
  | collecting
  /-- Awaits memory acceptance (04 R131). -/
  | memWait
  /-- A SETTLE that waits for pending lines (04 R137). -/
  | settleWait
  /-- A prefetch that waits for its data (07 R244), or a maintenance operation that waits for its writes (07 R247). -/
  | fillWait
  deriving DecidableEq, Repr

/-- One local snoop of a round: the agent, the snoop, whether it has been sent, and the response. -/
structure LSnoop where
  loc : BitVec 6
  op : BitVec 8
  hint : BitVec 4
  sent : Bool := false
  /-- Opcode, RESULT and FWDED of the response. -/
  rsp : Option (BitVec 8 × BitVec 3 × Bool) := none
  /-- The data that it made the agent forward to the requester has come (03 R601). -/
  fwd : Bool := false
  /-- A WB_D of the agent for the line was in the berth array when it was sent, or has come since (03 R109, 06 R210). -/
  wbSeen : Bool := false
  deriving DecidableEq, Repr

/-- One snoop of the home to a chip. -/
structure CSnoop where
  chip : BitVec 6
  op : BitVec 8
  hint : BitVec 4
  sent : Bool := false
  rsp : Option (BitVec 8 × BitVec 3 × Bool) := none
  deriving DecidableEq, Repr

/-- What a barge asks of the local agents, or of its entry. -/
inductive RoundFor where
  | none
  /-- An Overflow Larder lookup of the line (05 R160). -/
  | lookup
  /-- Resolution of an UNKNOWN entry with SNP_S (03 R105). -/
  | resolve
  /-- Resolution with SNP_I for an ownership snoop of the home (03 R105). -/
  | resolveInv
  /-- The completions of the WB_Ds a resolution sent (05 R162). -/
  | resolveWb
  /-- The proxy's row of R106. -/
  | row
  /-- Co-holders of a granted line (04 R124). -/
  | coHolders
  /-- The home's snoop of this chip (03 R107), aggregated by R108. -/
  | chip
  /-- The tidy of an Overflow entry (05 R183). -/
  | tidy
  deriving DecidableEq, Repr

/-- Where the requester's data comes from at the home (03 R101). -/
inductive Supply where
  | none
  | memory
  /-- A snooped chip forwards it; memory when that chip supplies none. -/
  | forward
  deriving DecidableEq, Repr

/-- What a home decision does with the line. -/
inductive Work where
  | read | own | upg | na | wrFull | wrPart | farAtom
  deriving DecidableEq, Repr

/-- The home's decision for a request (03 R101). -/
structure Plan where
  work : Work
  toRec : HomeRec
  supply : Supply
  /-- Data opcode the requester receives. -/
  datOp : BitVec 8
  /-- Completion opcode. -/
  cmpOp : BitVec 8
  grant : BitVec 3
  /-- REASON of a far ATOM (07 R225). -/
  reason : BitVec 2
  /-- The sequential-store detector stops allocation (04 R134). -/
  stop : Bool
  /-- The merge takes the X row: owner data or memory data into the Skillet (04 R134). -/
  fromX : Bool
  /-- The SC's reservation held at its decision (07 R237). -/
  resv : Bool
  deriving DecidableEq, Repr

/-- What a slice's arbiter has selected for its next admission (06 R203). -/
inductive Selected where
  | snoop (id : Nat)
  | berth (id : Nat)
  | internal (id : Nat)
  deriving DecidableEq, Repr

/-- A barge's use of memory data (04 R116). -/
inductive MemUse where
  | idle
  | asked
  | have (d : LineData) (poison : Bool) (source : BitVec 2)
  deriving DecidableEq, Repr

/-- How far data has come on its way over the Wharf to a slice's Skillet (01 R43). -/
inductive Crossing where
  | notYet | presented | arrived
  deriving DecidableEq, Repr

/-- A barge: the transaction context of a slice (06 R196). -/
structure Barge where
  id : Nat
  grp : Nat
  item : Item
  line : LineAddr
  stamp : Stamp
  phase : Phase := .waiting
  /-- Has sent a message for the line. -/
  sent : Bool := false
  /-- Has been given a Sieve entry or a Skillet line. -/
  given : Bool := false
  locals : List LSnoop := []
  roundFor : RoundFor := .none
  chips : List CSnoop := []
  plan : Option Plan := none
  /-- The home record as the head holds it. -/
  rcd : Option HomeRec := none
  /-- The record as memory is to have it, while no Home Sieve way holds it (05 R154). -/
  stored : Option HomeRec := none
  /-- Dirty data collected for the line, and its poison. -/
  dirty : Option (LineData × Bool) := none
  /-- Wharf endpoint over which that data came (01 R42). -/
  dirtyEp : Nat := 0
  /-- A response announced dirty data that has not arrived (04 R122). -/
  awaitD : Bool := false
  /-- Chips whose WB_D a RSP_WBX announced and that has not reached the chamber (03 R109). -/
  awaitWb : List (BitVec 6) := []
  /-- The dirty data came from a WB_D whose own slot writes it (06 R207). -/
  fromWb : Bool := false
  mem : MemUse := .idle
  sentData : Bool := false
  /-- Data for the requester has passed this proxy, and whether any of it carried POISON 1 (11 R375). -/
  gotData : Bool := false
  gotPoison : Bool := false
  /-- That data was a DAT_E delivered as DAT_S, because other agents of the chip hold the line (03 R106). -/
  asS : Bool := false
  /-- The collected data was made up for a lost line: SOURCE 0b11 with POISON 1 (11 R376). -/
  lost : Bool := false
  /-- Berth names of the WB_Ds that reached the chamber before the record was known (06 R207). -/
  early : List Nat := []
  /-- Chips whose WB_D has given its data to this barge (06 R207). -/
  wbFrom : List (BitVec 6) := []
  /-- Skillet entry in use. -/
  skl : Option Nat := none
  /-- The fill of that entry, and the request's data on its way to it (01 R43, 07 R232). -/
  fill : Crossing := .notYet
  operand : Crossing := .notYet
  /-- The record has been committed (03 R103). -/
  committed : Bool := false
  /-- The proxy role has decided an ATOM near (07 R227). -/
  near : Bool := false
  /-- Completion received at the proxy. -/
  cmp : Option Msg := none
  /-- The To state of that completion has been applied, with this GRANT (04 R118). -/
  applied : Option (BitVec 3) := none
  /-- Own-account WB_Ds whose completion a resolution awaits. -/
  wbTags : List (AgentId × Tag) := []
  /-- A replayed forwarded request whose line's entry has not been looked up in the slice that took over (11 R387). -/
  replay : Bool := false
  /-- The way that held its record has failed: it reads the record again through the Larder engine (05 R157). -/
  reread : Bool := false
  /-- The Overflow entry that a tidy works on (05 R183). -/
  tidyEnt : Option LocEnt := none
  deriving DecidableEq, Repr

/-- A chamber: a line's barges in order (06 R205). -/
structure Chamber where
  line : LineAddr
  order : List Nat
  deriving DecidableEq, Repr

/-- A granted target of a simmer timer (06 R213). -/
inductive Target where
  | chip (i : BitVec 6)
  | agent (l : BitVec 6)
  deriving DecidableEq, Repr

/-- A running simmer timer (06 R213). -/
structure Simmer where
  line : LineAddr
  target : Target
  /-- Count of slice cycles at which it ends. -/
  expiry : Nat
  deriving DecidableEq, Repr

/-- A Skillet entry (07 R239). -/
structure SklEnt where
  dirty : Bool
  poison : Bool
  filling : Bool
  pinned : Bool
  line : LineAddr
  oldest : Stamp
  data : LineData
  /-- A draining entry of 07 R238. -/
  draining : Bool
  /-- Recency: the count of uses at the last use. -/
  used : Nat
  /-- Stamp of the oldest merge made since the entry's last write was issued (07 R242). -/
  since : Option Stamp
  deriving DecidableEq, Repr

/-- A drip tray entry (07 R246). -/
structure Drip where
  line : LineAddr
  data : LineData
  poison : Bool
  oldest : Stamp
  deriving DecidableEq, Repr

/-- A warming tray entry (07 R245): filling for a prefetch, or holding a line. -/
structure Warm where
  line : LineAddr
  data : Option LineData
  filled : Nat
  /-- A double-bit error has been found in it (07 R250). -/
  poison : Bool := false
  deriving DecidableEq, Repr

/-- A memory write of a line that waits for its port or for acceptance (07 R242, 18 R584). -/
structure MWrite where
  id : Nat
  line : LineAddr
  data : LineData
  mask : LineMask
  poison : Bool
  src : WSrc
  stamp : Stamp
  /-- Counted as a posted line (08 R268). -/
  posted : Bool
  /-- Berth entry that the acceptance frees (04 R132). -/
  frees : Option Nat
  /-- Slice and barge whose completion waits for acceptance (04 R131). -/
  waiter : Option (Nat × Nat)
  /-- Port and tag once issued. -/
  port : Nat
  tag : Option Nat
  /-- A drain write of 08 R271: accepted at its write acknowledgement on every port. -/
  drain : Bool
  /-- The write acknowledgement has returned, the persistence acknowledgement is awaited. -/
  wack : Bool
  /-- Its line has crossed the Wharf to the memory port, or need not: an engine's own line (01 R43). -/
  crossed : Bool := true
  deriving DecidableEq, Repr

/-- What a memory read is for. -/
inductive RFor where
  | barge (p id : Nat)
  | warm (p idx id : Nat)
  | larder (page part : Nat)
  | overflow (job bucket : Nat)
  | overlay (part : Nat)
  deriving DecidableEq, Repr

/-- A memory read outstanding on a port (18 R584). -/
structure MRead where
  port : Nat
  /-- Tag once issued. -/
  tag : Option Nat
  line : LineAddr
  use : RFor
  /-- Bytes of partial writes of the line that memory had not accepted when it was issued: they lie over what it returns (06 R208). -/
  above : Option (LineData × LineMask) := none
  deriving DecidableEq, Repr

/-- What a queued Larder page operation wants. -/
inductive LOp where
  /-- A head of a slice wants the record of its line (05 R150). -/
  | fetch (p barge : Nat) (idx : BitVec 7)
  /-- A record to write back (05 R151). -/
  | writeBack (p : Nat) (idx : BitVec 7) (r : HomeRec)
  /-- Scrub of the page (05 R182). -/
  | scrub
  /-- LARDER_READ or DIR_REBUILD of a Towpath command (12 R440). -/
  | towRead (cmd : Nat)
  | towRebuild (cmd : Nat)
  /-- A page of the census walk of some number for a requesting chip (05 R171). -/
  | census (chip : BitVec 6) (seq : BitVec 8)
  /-- Rebuild of a flagged page for a slice's map (05 R173). -/
  | suspect (p : Nat)
  /-- A fetch whose record is known, and is given to its barge once the rebuilt page's writes are accepted (05 R179). -/
  | fetched (p barge : Nat) (r : HomeRec)
  deriving DecidableEq, Repr

/-- Where a page of the Larder engine stands. -/
inductive LPhase where
  /-- Waits to be started: at most 64 pages are in progress, and none while the Gate is paused. -/
  | waiting
  | reading
  /-- Waits for a rebuild to be allowed (05 R179). -/
  | queued
  | asking
  | settling
  | writing
  deriving DecidableEq, Repr

/-- An answer of RSP_Q (03 R93): chip, HELD, CHIPSTATE. -/
structure QAns where
  chip : BitVec 6
  held : BitVec 128
  chst : BitVec 256
  deriving DecidableEq, Repr

/-- A settle snoop outstanding for one record of a page (05 R178). -/
structure Settle where
  idx : BitVec 7
  chip : BitVec 6
  /-- SNP_I with DROP 1 of the X row of 05 R177, whose result does not settle the record. -/
  drop : Bool
  sent : Bool := false
  /-- Opcode and RESULT of the answer. -/
  rsp : Option (BitVec 8 × BitVec 3) := none
  /-- The dirty data that a RSP_D announces has come. -/
  data : Bool := false
  deriving DecidableEq, Repr

/-- A Larder page in progress in the Larder engine (05 R149, R179). -/
structure LJob where
  page : Nat
  phase : LPhase
  ops : List LOp
  /-- Parts read: lines 0 to 3, then the check slot's line; the flag is the port's poison. -/
  parts : List (Nat × LineData × Bool)
  /-- The 128 records as words, corrected, once classified. -/
  recs : List Word
  /-- Operations that the writes in progress end: write-backs and rebuild requests. -/
  ending : List LOp
  /-- Records to rebuild, one bit each. -/
  want : BitVec 128
  /-- Classification of the page as read: 0 CURRENT, 1 OLD, 2 UNTRUSTED (05 R148), and the bits corrected. -/
  cls : Nat
  fixed : Nat
  /-- Rebuild slot (05 R176), 16 for none. -/
  slot : Nat
  asked : List (BitVec 6)
  answers : List QAns
  settles : List Settle
  /-- Memory writes not yet accepted. -/
  writesLeft : Nat
  /-- The page is locked for a rebuild (05 R179). -/
  locked : Bool
  /-- Physical slices whose FLAG the records to rebuild take in (05 R173). -/
  flags : List Nat
  /-- The order in which the page's rebuild was triggered (05 R179). -/
  trig : Nat := 0
  /-- Records whose line's dirty data was found lost while the page was locked (11 R376). -/
  lost : BitVec 128 := 0
  /-- WB_Ds that have come while the page was locked: record and chip (05 R178, R179). -/
  wbs : List (BitVec 7 × BitVec 6) := []
  deriving DecidableEq, Repr

/-- An Overflow Larder entry (05 R164). -/
structure OvfEnt where
  line : LineAddr
  ent : LocEnt
  deriving DecidableEq, Repr

/-- A query of a Larder page being answered by the proxy's slices (05 R175). -/
structure QJob where
  id : Nat
  h : Hdr
  /-- Records whose Overflow lookup is awaited. -/
  left : List Nat
  held : BitVec 128
  chst : BitVec 256
  deriving DecidableEq, Repr

/-- An operation of the Overflow engine (05 R165, R166). -/
inductive OOp where
  /-- A lookup for SNP_Q: query and record (05 R175). -/
  | query (job rec : Nat)
  /-- A lookup for a census page, which inserts an UNKNOWN entry on a miss (05 R172). -/
  | census
  /-- A lookup for a barge, which recalls the entry (05 R160). -/
  | lookup (p barge : Nat)
  /-- A lookup for a tidy, which leaves the entry (05 R183). -/
  | tidyRead (p barge : Nat)
  /-- The write back of a tidied entry, or its deletion (05 R183). -/
  | tidyWrite
  /-- Insertion of a slice's spilled entry, of a stash entry, or of a census entry (05 R166, R172). -/
  | insert (spill : Option (Nat × LineAddr)) (census : Bool)
  /-- Insertion of the entry in the move register into its other bucket (05 R166). -/
  | move (bucket : Nat)
  /-- The walk's read of one bucket (05 R183). -/
  | scrub (bucket : Nat)
  /-- The read of one bucket for AGENT_ADMIT's sweep (15 R525). -/
  | sweep (bucket : Nat) (loc : BitVec 6)
  deriving DecidableEq, Repr

/-- An operation in progress on the candidate buckets of a line. -/
structure OJob where
  id : Nat
  op : OOp
  line : LineAddr
  ent : Option LocEnt
  started : Bool
  /-- Buckets read: bucket number and its eight slots' live entries, as raw data with the mask of slots that fail ECC. -/
  parts : List (Nat × LineData × BitVec 8)
  /-- Buckets awaited. -/
  awaited : List Nat
  moves : Nat
  /-- Writes not yet accepted. -/
  writes : Nat
  deriving DecidableEq, Repr

/-- A census walk at the home (05 R171). -/
structure Census where
  chip : BitVec 6
  seq : BitVec 8
  mask : BitVec 16
  page : Nat
  deriving DecidableEq, Repr

/-- Cells of a receive side that a message holds: port, VC, reserved cells, shared cells (09 R286). -/
structure Cells where
  port : Nat
  vc : Nat
  own : Nat
  shared : Nat
  deriving DecidableEq, Repr

/-- A message on its way over the Culvert, with the prefix fields of 09 R284. -/
structure CulMsg where
  m : Msg
  vc : Nat
  hops : Nat
  dl : Bool
  /-- It arrived on the Culvert (09 R295). -/
  came : Bool
  /-- The VC it must keep: a forwarded FENCE (09 R319). -/
  fixed : Bool
  cells : Option Cells
  /-- Its line is still to cross the Wharf from this source endpoint, under this stamp (01 R42, 06 R204). -/
  cross : Option (Nat × Stamp) := none
  /-- What goes directly behind it: its response (04 R121). -/
  behind : List Msg := []
  /-- It goes whatever holds its destination: this instance's own SALVAGE, FENCE and FENCE_ACK (09 R317). -/
  pass : Bool := false
  deriving DecidableEq, Repr

/-- A message of this instance at the start of its way. -/
def culOwn (m : Msg) : CulMsg := { m := m, vc := 0, hops := 0, dl := false, came := false, fixed := false, cells := none }
/-- A data message of this instance that crosses the Wharf first. -/
def culCross (src : Nat) (stamp : Stamp) (m : Msg) (behind : List Msg) : CulMsg :=
  { culOwn m with cross := some (src, stamp), behind := behind }

/-- What a granted Wharf transfer delivers. -/
inductive XferTo where
  | fabric (port : Nat) (m : Msg)
  /-- A message for the Culvert, and what goes directly behind it: its response (04 R121). -/
  | culvert (m : CulMsg) (behind : List Msg)
  /-- The line of a memory write. -/
  | memory (write : Nat)
  /-- A barge's fill, or its request's data, for the Skillet. -/
  | skillet (p barge : Nat) (operand : Bool)
  /-- A prefetched line for the warming tray. -/
  | warm (p idx barge : Nat) (d : LineData) (poison : Bool)
  deriving DecidableEq, Repr

/-- A transfer presented at the Wharf (06 R204). -/
structure Xfer where
  id : Nat
  src : Nat
  dst : Nat
  stamp : Stamp
  act : XferTo
  deriving DecidableEq, Repr

/-- Transfers that were presented to a destination when it last granted a source: the source presents its next one behind them (06
R204). -/
structure Owes where
  dst : Nat
  src : Nat
  first : List Nat
  deriving DecidableEq, Repr

/-- What the engine hands to the other units of the block within one step: the list of it is empty between steps. -/
inductive Up where
  /-- A maintenance operation of a Towpath command has ended (07 R247, R248). -/
  | maint (cmd : Nat)
  /-- A LARDER_READ has its page: records, check slot words and classification (12 R440). -/
  | page (cmd : Nat) (words : List Word) (cls : Nat)
  /-- A DIR_REBUILD has ended, with the number of records rebuilt. -/
  | rebuilt (cmd n : Nat)
  /-- A line of a counter dump, or of the Logbook spill, has been accepted (16 R539, R546). -/
  | dumpLine (err : Bool)
  | spillLine (err : Bool)
  /-- A line of a Lockkeeper overlay has been read (12 R438). -/
  | overlay (part : Nat) (d : LineData) (poison : Bool)
  /-- The block enters SEALED (11 R400): its Culvert ports send PORT_DOWN. -/
  | blockSealed
  /-- A Culvert port is sealed (11 R399). -/
  | culSeal (n : Nat)
  /-- A message admitted by a slice (16 R541). -/
  | admitted (p : Nat) (m : Msg)
  /-- A message released by the slice that serves its line (16 R541). -/
  | released (m : Msg)
  /-- A commanded failover has its first replay admission, or has found no spare (12 R436). -/
  | failover (cmd : Nat) (spare : Option Nat)
  /-- A warm spare must wake for a failover (11 R384). -/
  | wakeSpare (p : Nat)
  /-- The mode event is posted to a slice's step lane: its program ends in a mode, by its code (10 R332). -/
  | mode (p code : Nat)
  deriving DecidableEq, Repr

/-- An error that a read of a Sieve set finds in one of its ways: which array, which way, and whether both bits are bad. -/
structure PatrolErr where
  local? : Bool
  way : Fin 16
  double : Bool
  deriving DecidableEq, Repr

/-- A bit error that a head's lookup meets: in a way of its line's Sieve sets, in the Skillet, or in a tray (05 R157, R163, 07 R250). -/
inductive LookErr where
  | sieve (e : PatrolErr)
  | skilletData (double : Bool)
  | skilletTag
  /-- An uncorrectable error in other control state of the slice: a barge, the chamber CAM, a held release-buffer item or the miss register (11
  R379). -/
  | control
  /-- The predictor counter of the line fails its parity (11 R379). -/
  | predictor
  | tray (double : Bool)
  deriving DecidableEq, Repr

/-- A bit error found in one half of the berth array or of the Wharf: whether it can be corrected (01 R44). -/
structure HalfErr where
  ue : Bool
  half : Fin 2
  deriving DecidableEq, Repr

/-- Work that a unit hands to another within one step: the queue of it is empty between steps. -/
inductive Task where
  /-- The home record of a barge's line has come from the Larder engine. -/
  | record (p id : Nat) (r : HomeRec)
  /-- An Overflow lookup of a barge's line has ended. -/
  | entry (p id : Nat) (e : Option LocEnt)
  /-- Memory data for a barge. -/
  | memData (p id : Nat) (d : LineData) (poison : Bool)
  /-- Memory data for a warming tray entry filled by a prefetch. -/
  | warmData (p idx id : Nat) (d : LineData) (poison : Bool)
  /-- A page part for the Larder engine. -/
  | pagePart (page part : Nat) (d : LineData) (poison : Bool)
  /-- A bucket for the Overflow engine, with the slots that fail ECC. -/
  | bucket (job bucket : Nat) (d : LineData) (bad : BitVec 8)
  /-- An Overflow lookup for a query has ended. -/
  | queryAns (job rec : Nat) (e : Option LocEnt)
  /-- A census may have ended (05 R172). -/
  | censusCheck
  /-- An Overflow job's write has been accepted. -/
  | ovfWritten (job : Nat)
  /-- The Overflow engine may start waiting jobs. -/
  | ovfPump
  /-- A memory write has been acknowledged: what it changes where its data lay. -/
  | place (w : MWrite)
  /-- A memory write has been accepted. -/
  | written (w : MWrite)
  /-- Credits towards an instance have come: waiting forwards and snoops to it may go. -/
  | credits (inst : BitVec 6)
  /-- The Overflow lookup of a barge whose item is no agent's request has the entry (05 R183). -/
  | tidied (p id : Nat) (e : Option LocEnt)
  /-- A barge's outstanding parts may be complete. -/
  | advance (p id : Nat)
  /-- The waits of SETTLE barges may have ended (04 R137). -/
  | settles
  /-- Forwards of a line that wait for a WB_D may go (06 R210). -/
  | wbDone (line : LineAddr)
  /-- A WB_D in the berth array reaches its line's chamber at its home (06 R207, 03 R597). -/
  | wbArrive (p berth : Nat)
  /-- A message for this instance itself by the internal path. -/
  | internal (m : Msg)
  /-- A page has been locked for a rebuild: WB_Ds of its lines do not wait (05 R179). -/
  | pageLocked (page : Nat)
  /-- Waiting pages may be started and rebuilds begun. -/
  | larderPump
  /-- Barges of a slice that wait for a Skillet entry, a tray entry, a spill buffer slot or a write-back may go on. -/
  | kick (p : Nat)
  /-- A chamber data reserve slot is free (06 R190). -/
  | reserveFree
  /-- The last item held at a failover of a logical slice has been admitted (11 R383). -/
  | replayEnd (logical : Nat)
  deriving DecidableEq, Repr

end Sys2Proof.Machine
end

