-- ==== Sys2Proof/Operand.lean ====
section
/-!
DEFINITION. Sys2Proof/Operand.lean: the operands of commands that are more than a number: a command packet, what a lane, a Galley window or a
self-test shows, and the straps.
-/
namespace Sys2Proof
open Sys2Proof.Machine

/-- A transport, with the privilege it stamps coming from it (12 R411 to R413): the streaming port, a doorbell window, the two-wire port. -/
inductive Via where
  | stream
  | window (w : Fin 8)
  | wire
  deriving DecidableEq, Repr

/-- A command packet as a transport delivers it (12 R402): its opcode is the row. -/
structure TowCmd where
  via : Via
  tag : BitVec 8
  target : BitVec 8
  flags : BitVec 8
  /-- Bits [63:48] of word 0. -/
  resv : BitVec 16
  param : Word
  /-- The payload: LENGTH is its number of words. -/
  payload : List Word
  deriving DecidableEq, Repr

/-- The channel of a fabric port that a message from an agent comes on (18 R578). -/
inductive Chan where
  | req | rsp | dat
  deriving DecidableEq, Repr

/-- What the fetch of control store and dispatch words finds in its check bits (10 R343): nothing, single-bit errors, a double-bit error. -/
inductive CsRead where
  | clean | ce | ue
  deriving DecidableEq, Repr

/-- The training block that a receive lane has received eight times in a row (09 R303), as received; a lane whose eight blocks all fail shows the
last of them. -/
structure TrainSeen where
  lane : Fin 18
  block : BitVec 256
  deriving DecidableEq, Repr

/-- The first difference between the two copies of a pair in PROOF (10 R353). -/
structure Divergence where
  kind : BitVec 8
  opcode : BitVec 8
  leadPc : BitVec 12
  checkPc : BitVec 12
  leadValue : Word
  checkValue : Word
  agent : AgentId
  line : LineAddr
  deriving DecidableEq, Repr

/-- What befell a pair in the window that closes (10 R336 to R339, R352): the bits of its committed items, by their place in the run that the
signature covers, in which transient errors made one copy differ from the other, when the window first ran and when it was re-executed; or, in
PROOF, the first difference of the window. -/
inductive WinSeen where
  | struck (first second : List Nat)
  | diverge (d : Divergence)
  deriving DecidableEq, Repr

/-- The bits of a register that errors have flipped in the lead's and in the check copy's register file: the 64 bits of the word, with the parity
bit of byte k as bit 64 + k (10 R341). -/
structure RegFlip where
  reg : BitVec 8
  lead : BitVec 72
  check : BitVec 72
  deriving DecidableEq, Repr

/-- What a register sweep and control store patrol meet (10 R341, R343): registers with errors, words corrected, and double-bit errors of the
control and the standby store. -/
structure SweepSeen where
  regs : List RegFlip
  csCe : Nat
  csUe : Bool
  standbyUe : Bool
  deriving DecidableEq, Repr

/-- A Sieve way that BIST finds faulty (05 R184). -/
structure WayFault where
  local? : Bool
  set : BitVec 13
  way : Fin 16
  deriving DecidableEq, Repr

/-- The straps (18 R577). -/
structure Straps where
  addr : BitVec 7
  leader : Bool
  test : Bool
  deriving DecidableEq, Repr

/-- How the self-test ends (15 R499, R500). -/
structure SelfTest where
  lkOk : BitVec 3
  voterOk : Bool
  berthA : Bool
  berthB : Bool
  wharfA : Bool
  wharfB : Bool
  repaired : BitVec 12
  timeUs : BitVec 16
  deriving DecidableEq, Repr

end Sys2Proof
end

