-- ==== Sys2Proof/Syntax.lean ====
section
/-!
DEFINITION. Sys2Proof/Syntax.lean: the commands of the block, one constructor per row of spec/opcode_table.json in the table's order.
-/
namespace Sys2Proof
open Sys2Proof.Machine

/-- A command: a Towpath packet, an access of a register, a message, an event on a pin, or an event inside the block that the table lists as a
step of its own. -/
inductive Instr where
  /-- Towpath command that does nothing and replies OK with RESULT 0. -/
  | nop (c : TowCmd)
  /-- Towpath command returning TWK_VER, instance, state, straps, digest, privilege and transport. -/
  | identify (c : TowCmd)
  /-- Reports a tag of the transport and, for a completed long command, returns its completion and frees the tag. -/
  | tagQuery (c : TowCmd)
  /-- Frees every tag of the transport; running long commands finish and their completions are discarded. -/
  | transportReset (c : TowCmd)
  /-- Reads one register whole, with the side effects of any RC or claim field. -/
  | regRead (c : TowCmd)
  /-- Writes one register, refusing locked or write-once fields with LOCKED and LOCK_VIOL. -/
  | regWrite (c : TowCmd)
  /-- Reads a run of registers in ascending order, each whole, without snapshot. -/
  | regReadBlock (c : TowCmd)
  /-- Reads a register without side effects, replaces masked bits and writes it back atomically against other commands. -/
  | regWriteMasked (c : TowCmd)
  /-- Applies offset and value pairs in order as register writes, stopping at the first bad pair. -/
  | charterLoad (c : TowCmd)
  /-- Runs the local charter checks and reports the first failing code. -/
  | charterCheck (c : TowCmd)
  /-- Runs local checks, reports to the leader and locks the charter on a domain-wide OK outcome. -/
  | charterCommit (c : TowCmd)
  /-- Unlocks the charter, discards held requests and snoops and withdraws every credit. -/
  | charterRelease (c : TowCmd)
  /-- Starts a discovery round that floods HELLO and records every instance found. -/
  | discover (c : TowCmd)
  /-- Sets a new Larder generation in one Lockkeeper cycle, making all older pages read as I. -/
  | genAdvance (c : TowCmd)
  /-- Moves the block from CHARTERED to SERVICE or FROZEN when the generation is set and every served logical slice is mapped. -/
  | serviceEnter (c : TowCmd)
  /-- Resolves structures naming the agent ID, clears its tombstone and sets ADMITTED. -/
  | agentAdmit (c : TowCmd)
  /-- Waits for a clean presence fall at the own instance, or clears ADMITTED at once elsewhere. -/
  | agentRetire (c : TowCmd)
  /-- Switches a slice's three domains on or off per the accepted masks, waking or darkening it. -/
  | slicePower (c : TowCmd)
  /-- Moves a READY slice to SPARE. -/
  | sliceSpare (c : TowCmd)
  /-- Maps a logical slice to a READY or SPARE slice with an active image and starts it serving. -/
  | sliceServe (c : TowCmd)
  /-- Drains a SERVING slice to READY or SPARE. -/
  | sliceDrain (c : TowCmd)
  /-- Drains a serving slice onto a hot spare and maps the logical slice to the spare. -/
  | sliceSwap (c : TowCmd)
  /-- Seals the target slice and starts the failover of its logical slice. -/
  | sliceFailover (c : TowCmd)
  /-- Starts open mode and a census for each logical slice in the mask. -/
  | lsRebuild (c : TowCmd)
  /-- Opens an image load, setting the standby store LOADING, for one slice or all legal slices. -/
  | mcLoadOpen (c : TowCmd)
  /-- Appends an in-order payload to the image being loaded. -/
  | mcLoadData (c : TowCmd)
  /-- Closes the load and starts the length, header, key and signature checks of the image. -/
  | mcLoadClose (c : TowCmd)
  /-- Cuts over the VERIFIED standby image to the control store, at once or at a quiesce point. -/
  | mcActivate (c : TowCmd)
  /-- Splits the Galley pair so the check copy runs the standby image on live traffic. -/
  | mcProofStart (c : TowCmd)
  /-- Ends PROOF by re-join or cut-over at a quiesce point. -/
  | mcProofEnd (c : TowCmd)
  /-- Returns entries of a slice's proof log. -/
  | mcProofLogRead (c : TowCmd)
  /-- Sets a slice's standby store to EMPTY. -/
  | mcDiscard (c : TowCmd)
  /-- Fetches an overlay through the Overlay Gate, checks its signature and runs it. -/
  | lkOverlay (c : TowCmd)
  /-- Returns Home Sieve, Local Sieve or Skillet entries of a slice one after another. -/
  | dirDump (c : TowCmd)
  /-- Starts a forced interrogation of one Larder page. -/
  | dirRebuild (c : TowCmd)
  /-- Reads and classifies one Larder page without rebuilding or rewriting it. -/
  | larderRead (c : TowCmd)
  /-- Enters a CLEAN, INVALIDATE or CLEAN_INVALIDATE operation into a homed line's chamber. -/
  | maintAddr (c : TowCmd)
  /-- Applies a maintenance operation to one Skillet entry by index without a chamber. -/
  | maintEntry (c : TowCmd)
  /-- Runs the RETRAIN path on an ACTIVE Culvert port. -/
  | culRetrain (c : TowCmd)
  /-- Orders a receive-side lane switch onto a named spare. -/
  | culSpare (c : TowCmd)
  /-- Returns masked destinations from ALT to PRIMARY behind a fence. -/
  | culRouteReturn (c : TowCmd)
  /-- Returns nine Culvert port registers, reading CUL_CNT without clearing it. -/
  | culStatus (c : TowCmd)
  /-- Changes SLICE_CFG.TRIM, draining or adding logical slices. -/
  | pwrTrim (c : TowCmd)
  /-- Enables or disables Idle clock gating. -/
  | pwrIdle (c : TowCmd)
  /-- Enters Deep, switching off every domain except the Pilot Light. -/
  | pwrDeep (c : TowCmd)
  /-- Switches one berth array or Wharf half on or off. -/
  | pwrHalf (c : TowCmd)
  /-- Clears PF_STAT.HOLD and resumes admission after a power-fail drain. -/
  | pfRelease (c : TowCmd)
  /-- Switches a Culvert, fabric or memory port's domains on or off. -/
  | portPower (c : TowCmd)
  /-- Returns a range of counters, subject to USER group permissions. -/
  | cntRead (c : TowCmd)
  /-- Returns Logbook trace records by ring index without moving RD. -/
  | logbookRead (c : TowCmd)
  /-- Starts a counter dump to memory. -/
  | dumpNow (c : TowCmd)
  /-- Returns error log ring entries and optionally advances the read pointer. -/
  | logRead (c : TowCmd)
  /-- Reports one event of a named source exactly as hardware would. -/
  | fltInject (c : TowCmd)
  /-- Applies SEAL_BLOCK to the block. -/
  | sealBlock (c : TowCmd)
  /-- A command packet arrives on the streaming port; a framing error is answered BAD_LENGTH. -/
  | streamPacket (words : List Word)
  /-- A write to DB_RING takes the doorbell window's command and sets BUSY. -/
  | dbRing (w : Fin 8)
  /-- A two-wire write transfer delivers one command packet at its STOP condition. -/
  | twoWireWrite (bytes : List (BitVec 8))
  /-- A two-wire read transfer returns the latest reply, stretching SCL until it is ready. -/
  | twoWireRead (n : Nat)
  /-- The reply is still not ready 1 ms after the address byte; SCL is released and 0xFF returned. -/
  | twoWireStretchTimeout
  /-- The platform returns one reply-word credit to the streaming port. -/
  | towRplCrd
  /-- An 8-byte MMIO access arrives in the fabric window and acts as the register access it names. -/
  | mmioAccess (f : Fin 4) (write : Bool) (size : BitVec 2) (off : BitVec 16) (wdata : Word) (id : BitVec 8)
  /-- A write to a register with no behaviour of its own sets its fields per their access codes. -/
  | genericRegisterWrite (off : RegOff) (v : Word)
  /-- A read of IRQ_CLAIM returns the selected source, clears its pending bit, pushes it and starts its group hold-off. -/
  | irqClaim (t : Fin 8)
  /-- An EOI write pops the target stack or lowers OVER. -/
  | irqEoi (t : Fin 8) (v : Word)
  /-- A PUSH write raises the target's running priority with an ID 0x3FF entry. -/
  | irqRaisePush (t : Fin 8) (v : Word)
  /-- A write of IRQ_PEND sets or clears pending bits subject to the set-wins rule. -/
  | irqPendWrite (k : Fin 4) (v : Word)
  /-- A read of IRQ_COUNT returns and clears eight event counters. -/
  | irqCountRead (k : Fin 32)
  /-- A read of FLT_STAT returns and clears LOST and LOST_SEV. -/
  | fltStatRead
  /-- A read of FRZ_STAT returns and clears the freeze count. -/
  | frzStatRead
  /-- A read of FO_STAT returns and clears the failover count. -/
  | foStatRead
  /-- A read of PWR_LEAVE_STAT returns and clears the grant count. -/
  | pwrLeaveStatRead
  /-- A read of DUMP_STAT returns and clears SKIPPED. -/
  | dumpStatRead
  /-- A read of LOG_STAT returns and clears LOST. -/
  | logStatRead
  /-- A read of GATE_STAT returns and clears REFUSED. -/
  | gateStatRead (e : Fin 6)
  /-- A read of CUL_CNT returns and clears the port's error counts. -/
  | culCntRead (n : Fin 6)
  /-- A read of CUL_LERR returns and clears a lane's error counts. -/
  | culLerrRead (n : Fin 6) (k : Fin 18)
  /-- A read of GAL_CNT returns and clears the Galley counters. -/
  | galCntRead (p : Fin 18)
  /-- A write with ACK acknowledges a source, stopping its escalation timer and freeing its slot. -/
  | fltAckWrite (v : Word)
  /-- A write of FLT_PTR.RD frees error log entries, ignored if it would pass WR. -/
  | fltPtrRdWrite (v : Word)
  /-- A RELEASE write releases a held error pin, at pulse end if a pulse runs. -/
  | errOutRelease (v : Word)
  /-- A GO write forces one difference into the check copy on the chosen path. -/
  | galInjectGo (p : Fin 18) (v : Word)
  /-- A SIEVE_REMAP write disables a way after spilling its entry, or frees it at once. -/
  | sieveRemapWrite (p : Fin 18) (k : Fin 16) (v : Word)
  /-- A write of CNT_VAL sets a counter, adding that mc's count. -/
  | cntValWrite (c : Fin 408) (v : Word)
  /-- A write of LOG_PTR.RD frees SRAM trace records while SPILL is 0. -/
  | logPtrRdWrite (v : Word)
  /-- A write of LOG_MEM.RD frees memory-ring lines, restarting a stopped spill. -/
  | logMemRdWrite (v : Word)
  /-- Setting or clearing GATE_CTL.PAUSE stops or resumes an engine's new accesses. -/
  | gatePauseWrite (e : Fin 6) (v : Word)
  /-- Setting or clearing GATE_CTL.UPDATE disables or re-enables a Gate's checks. -/
  | gateUpdateWrite (e : Fin 6) (v : Word)
  /-- A write of CLK_SLICE.DIV requests a divider change that takes effect per slice state. -/
  | clkSliceDivWrite (p : Fin 18) (v : Word)
  /-- A WAKE write in PILOT counts as a wake event. -/
  | plCtlWake (v : Word)
  /-- Writing CUL_CTL.ENABLE 1 on a RESET or DOWN port powers it and starts training after leave. -/
  | culEnableWrite (n : Fin 6) (v : Word)
  /-- Writing CUL_CTL.ENABLE 0 takes the port to RESET, rerouting if it was ACTIVE. -/
  | culDisableWrite (n : Fin 6) (v : Word)
  /-- A shared read request is taken into a berth at a proxy or home. -/
  | rdS (src : Src) (h : Hdr)
  /-- A fetch-class shared read request is taken into a berth. -/
  | rdF (src : Src) (h : Hdr)
  /-- A read-for-ownership request is taken into a berth. -/
  | rdO (src : Src) (h : Hdr)
  /-- An ownership upgrade request is taken into a berth. -/
  | upg (src : Src) (h : Hdr)
  /-- A non-allocating snooped read request is taken into a berth. -/
  | rdNa (src : Src) (h : Hdr)
  /-- A whole-line write request is taken into a berth. -/
  | wrFull (src : Src) (h : Hdr)
  /-- A byte-masked write request is taken into a berth. -/
  | wrPart (src : Src) (h : Hdr)
  /-- An atomic request is taken into a berth after its descriptor check. -/
  | atom (src : Src) (h : Hdr)
  /-- A writeback of an M line is taken into a WB berth. -/
  | wbD (src : Src) (h : Hdr)
  /-- A completion barrier request is taken into a READ berth. -/
  | settle (src : Src) (h : Hdr)
  /-- A fabric message with an unlisted or misplaced opcode is discarded and its credits returned. -/
  | undefinedMessage (f : Fin 4) (ch : Chan) (op : BitVec 8) (h : Hdr)
  /-- A home snoop to downgrade to S is taken into the snoop intake. -/
  | snpS (n : Fin 6) (h : Hdr)
  /-- A home snoop to forward a shared copy is taken into the snoop intake. -/
  | snpFs (n : Fin 6) (h : Hdr)
  /-- A home snoop to forward ownership and invalidate is taken into the snoop intake. -/
  | snpFo (n : Fin 6) (h : Hdr)
  /-- A home invalidating snoop is taken into the snoop intake. -/
  | snpI (n : Fin 6) (h : Hdr)
  /-- A home snoop for a non-allocating copy is taken into the snoop intake. -/
  | snpNa (n : Fin 6) (h : Hdr)
  /-- An interrogation or census query for a Larder page arrives at a proxy. -/
  | snpQ (n : Fin 6) (h : Hdr)
  /-- A response that the line is now I is applied to the snooping barge. -/
  | rspI (src : Src) (h : Hdr)
  /-- A response that the responder still holds the line is applied. -/
  | rspS (src : Src) (h : Hdr)
  /-- A response that data was forwarded to the requester is applied. -/
  | rspFwd (src : Src) (h : Hdr)
  /-- A response announcing dirty data to the home is applied. -/
  | rspD (src : Src) (h : Hdr)
  /-- A response that the responder did not hold the line is applied and tidies the record. -/
  | rspAbsent (src : Src) (h : Hdr)
  /-- A response that the data is in a WB_D already sent is applied. -/
  | rspWbx (src : Src) (h : Hdr)
  /-- An interrogation answer arrives at the home and is used to rebuild records. -/
  | rspQ (n : Fin 6) (h : Hdr)
  /-- Line data granting S arrives and is passed towards the requester. -/
  | datS (src : Src) (h : Hdr) (d : Beats)
  /-- Line data granting F arrives and is passed towards the requester. -/
  | datF (src : Src) (h : Hdr) (d : Beats)
  /-- Line data granting E arrives and is passed towards the requester. -/
  | datE (src : Src) (h : Hdr) (d : Beats)
  /-- Line data granting M, or dirty data for the home, arrives at its slot or the Skillet. -/
  | datM (src : Src) (h : Hdr) (d : Beats)
  /-- Request data or non-granting data arrives and is paired with its request or passed on. -/
  | datNa (src : Src) (h : Hdr) (d : Beats)
  /-- A home's completion reaches the proxy, which applies its To state and delivers it. -/
  | cmp (n : Fin 6) (h : Hdr)
  /-- A near ATOM completion reaches the proxy and is delivered. -/
  | cmpNear (n : Fin 6) (h : Hdr)
  /-- A far ATOM completion with its outcome reaches the proxy and is delivered. -/
  | cmpAtom (n : Fin 6) (h : Hdr)
  /-- A SETTLE completion reaches the proxy and is delivered. -/
  | cmpSettle (n : Fin 6) (h : Hdr)
  /-- A fetch-class uncorrectable-data completion reaches the proxy and is delivered. -/
  | cmpTrap (n : Fin 6) (h : Hdr)
  /-- A channel-class uncorrectable-data completion reaches the proxy and is delivered. -/
  | cmpHalt (n : Fin 6) (h : Hdr)
  /-- A poisoned completion reaches the proxy and is delivered. -/
  | cmpPoison (n : Fin 6) (h : Hdr)
  /-- A serving slice admits its oldest eligible item into a barge and chamber: one cycle of its arbiter, which with select also selects the next
  item, and what the fetch of control store words finds. -/
  | admission (p : Fin 18) (select : Bool) (read : CsRead) (err : Option HalfErr)
  /-- A barge becomes head of its chamber and makes its directory decision, with the bit errors that its lookups meet. -/
  | chamberHead (p : Fin 18) (line : LineAddr) (errs : List LookErr)
  /-- A simmer timer ends, letting the next snoop to the granted target go. -/
  | simmerExpiry (p : Fin 18) (line : LineAddr) (t : Target)
  /-- A Wharf destination grants the oldest presented transfer at a line boundary. -/
  | wharfGrant (dst : Fin 32) (err : Option HalfErr)
  /-- The sweep clamps any age of 0xF0_0000 ticks or more. -/
  | stampSweep
  /-- Read data for a tag returns from a memory port. -/
  | memReadData (m : Fin 4) (tag : Tag) (d : LineData) (poison : Bool) (bad : BitVec 8)
  /-- A write acknowledgement returns, accepting the write on a non-persistent port. -/
  | memWack (m : Fin 4) (tag : Tag) (err : Bool)
  /-- A persistence acknowledgement returns, accepting the write on a persistent port. -/
  | memPack (m : Fin 4) (tag : Tag)
  /-- The Overflow engine inserts a spilled entry, moving entries cuckoo-style. -/
  | overflowInsert (p : Fin 18)
  /-- Above DIRTY_HIGH the slice writes its least recently used dirty entry. -/
  | skilletBackgroundWrite (p : Fin 18)
  /-- Every 16 sc above DIRTY_HIGH the slice passes one dirty record to write-back. -/
  | homeSieveBackgroundWb (p : Fin 18)
  /-- Every 1 µs a slice reads one Home and one Local Sieve set, correcting errors. -/
  | sievePatrol (p : Fin 18) (errs : List PatrolErr)
  /-- Each interval the scrub rebuilds flagged pages and walks Larder pages and Overflow buckets. -/
  | scrubBurst
  /-- A census request arrives and the Larder engine starts or restarts its walk. -/
  | censusReq (n : Fin 6) (h : Hdr)
  /-- The census walk examines the next page and sends a census-page SNP_Q if records are marked. -/
  | censusWalkPage (chip : BitVec 6)
  /-- A Culvert credit-return control message arrives at a proxy or home. -/
  | credit (n : Fin 6) (h : Hdr)
  /-- The fabric returns one SNP, DAT or CMP credit on a port. -/
  | fabricCreditReturn (f : Fin 4) (kind : Fin 3)
  /-- A flit arrives on a Culvert port and is accepted, discarded or triggers replay. -/
  | flit (n : Fin 6) (words : List (List (BitVec 64)))
  /-- The replay timer expires and the transmitter replays or the receiver repeats NAK. -/
  | ackToExpiry (n : Fin 6) (rx : Bool)
  /-- An alignment period's markers are checked per lane for in-service faults. -/
  | alignmentMarker (n : Fin 6) (words : List (List (BitVec 64)))
  /-- At switch codeword x both sides move the logical lane onto the spare. -/
  | spareSwitchCodeword (n : Fin 6) (rx : Bool)
  /-- After 64 undamaged codewords the receiver sets NAK and the switch ends. -/
  | spareSwitchEnd (n : Fin 6)
  /-- No flit accepted for LOSS_US is a loss condition. -/
  | lossTimerExpiry (n : Fin 6)
  /-- A salvaged flit from a lost port arrives and is accepted or discarded. -/
  | salvage (n : Fin 6) (h : Hdr) (d : Beats)
  /-- A fence arrives and is forwarded or acknowledged. -/
  | fence (n : Fin 6) (vc : Fin 10) (h : Hdr)
  /-- A fence acknowledgement arrives and releases held destinations. -/
  | fenceAck (n : Fin 6) (h : Hdr)
  /-- FENCE_US passes without an acknowledgement and destinations are released. -/
  | fenceLimitExpiry (port : Fin 8)
  /-- A message not for this instance is passed on by route and VC choice. -/
  | transitMessage (n : Fin 6) (hops : Fin 4) (dl : Bool) (op : BitVec 8) (h : Hdr) (d : Option Beats)
  /-- A transmitter starts a waiting message whose receiver credits are available. -/
  | culvertSend (n : Fin 6)
  /-- A discovery HELLO arrives and is passed on and recorded. -/
  | hello (n : Fin 6) (hops : Fin 4) (h : Hdr)
  /-- The SerDes reports ready with signal on 16 lanes, moving DETECT to LOCK. -/
  | serdesReady (n : Fin 6) (signal lock : BitVec 18)
  /-- A lane's signal detect or lock changes, marking faults in service. -/
  | laneSignalChange (n : Fin 6) (lane : Fin 18) (signal lock : Bool)
  /-- Eight good training blocks on every lane advance the training state. -/
  | trainingAdvance (n : Fin 6) (blocks : List TrainSeen) (late : BitVec 18) (sent : Nat)
  /-- A training state's budget expires and the port goes DOWN. -/
  | trainingBudgetExpiry (n : Fin 6)
  /-- The TEST window ends and marginal lanes are marked bad. -/
  | testWindowEnd (n : Fin 6) (errs : List (Fin 18 × Nat)) (bits : Nat)
  /-- A retrain not complete within 40 µs takes the port DOWN and reroutes. -/
  | retrainTimeout (n : Fin 6)
  /-- A freeze ping arrives and is answered with FRZ_PONG. -/
  | frzPing (n : Fin 6) (h : Hdr)
  /-- A freeze pong arrives, answering an instance liveness ping. -/
  | frzPong (n : Fin 6) (h : Hdr)
  /-- A freeze start arrives and the instance stops admission and resolves dead agents. -/
  | frzStart (n : Fin 6) (h : Hdr)
  /-- Agents are added to the freeze in progress, restarting resolution. -/
  | frzDead (n : Fin 6) (h : Hdr)
  /-- A member's tombstone view reaches the coordinator. -/
  | frzReady (n : Fin 6) (h : Hdr)
  /-- A thaw arrives and stamps are rebased and service resumes. -/
  | frzThaw (n : Fin 6) (h : Hdr)
  /-- A snoop unanswered for SNOOP_TO_US starts a ping or declares death. -/
  | snoopTimeout (t : Target)
  /-- A ping unanswered for PING_US declares the agent dead or instance silent. -/
  | pingTimeout (t : Target)
  /-- A present agent's heartbeat has not toggled for HB_TO_US. -/
  | heartbeatTimeout (l : BitVec 6)
  /-- The quiet period ends and the instance sends FRZ_READY. -/
  | quietPeriodEnd
  /-- No thaw 400 µs after FRZ_READY; the coordinator is pinged. -/
  | thawWaitTimeout
  /-- A freeze exceeds 1 ms and FREEZE_LATE is raised. -/
  | freezeLate
  /-- An agent's sideband presence bit changes, masking or unmasking its berths. -/
  | presenceChange (l : BitVec 6) (up : Bool)
  /-- An agent's sideband pong answers a ping. -/
  | pingAnswer (l : BitVec 6)
  /-- A member's commit report reaches the leader. -/
  | commitReport (n : Fin 6) (h : Hdr)
  /-- The leader's outcome reaches a member, which locks or stays in STANDBY. -/
  | commitGo (n : Fin 6) (h : Hdr)
  /-- A member's lock acknowledgement reaches the leader. -/
  | commitAck (n : Fin 6) (h : Hdr)
  /-- The leader announces every member has locked. -/
  | commitAll (n : Fin 6) (h : Hdr)
  /-- A member has not reported 100 ms after the leader's checks; outcome 0x16. -/
  | commitReportTimeout
  /-- A member has no COMMIT_GO 200 ms after its report and fails. -/
  | commitGoTimeout
  /-- Every RESEND_US a running DISCOVER resends its HELLO. -/
  | helloResend
  /-- QUIET_US passes without a new record and DISCOVER completes OK. -/
  | discoverQuietEnd
  /-- LIMIT_MS passes and DISCOVER completes FAILED. -/
  | discoverLimit
  /-- An escalation slot's timer expires and its severity rises one step. -/
  | escalationExpiry (k : Fin 16)
  /-- A coalescing window closes and logs a repeat summary. -/
  | coalesceWindowClose (src : BitVec 11)
  /-- The collector writes the next queued error log entry. -/
  | logEntryWrite
  /-- An error pin's pulse ends and the pin is released unless held. -/
  | errPulseEnd (k : Fin 2)
  /-- One Lockkeeper copy disagrees and is masked, or two disagree and the block seals. -/
  | lkVoteMismatch (k : Fin 3)
  /-- A Galley window closes and the two copies' signatures are compared. -/
  | galleyWindowClose (p : Fin 18) (v : WinSeen)
  /-- Every 1 ms the pair compares its register files and patrols the control stores. -/
  | registerSweep (p : Fin 18) (r : SweepSeen)
  /-- A WAIT lasting over 1 ms raises GALLEY_STALL. -/
  | galleyStall (p : Fin 18)
  /-- A slice reaches a quiesce point for a pending cut-over, resync or divider change. -/
  | quiescePoint (p : Fin 18)
  /-- LIMIT_S passes and the block re-joins the pair itself. -/
  | proofLimitExpiry (p : Fin 18)
  /-- FORCE_US passes after a divergence and a quiesce point is forced for resync. -/
  | proofForceResync (p : Fin 18)
  /-- An image's checks end and MC_LOAD_CLOSE completes. -/
  | imageVerifyDone (p : Fin 18) (sig : Bool)
  /-- A waking slice's BIST, invalidation and comparator test end. -/
  | wakingComplete (p : Fin 18) (faults : List WayFault) (same : Bool)
  /-- A drain's writes are accepted and the hand-over and remap change are made. -/
  | drainComplete (p : Fin 18)
  /-- The failed slice's snoops and writes have settled and its lines are salvaged. -/
  | failoverSettleDone (l : Fin 16) (bad : List LineAddr)
  /-- The spare is mapped, suspect pages flagged and replay starts. -/
  | failoverTakeover (l : Fin 16)
  /-- The retirement limit passes and the agent is declared dead with cause COMMAND. -/
  | agentRetireLimit (a : AgentId)
  /-- The tombstoned ID's sweep ends and AGENT_ADMIT completes. -/
  | agentAdmitSweepDone (a : AgentId)
  /-- PWR_FAIL_N sampled low on 20 edges starts the power-fail drain. -/
  | pwrFailRecognise
  /-- The guaranteed drain has not ended 4 µs after recognition. -/
  | drainLateTimer
  /-- PWR_GOOD rises in PILOT and the block enters INIT. -/
  | pwrGoodRise
  /-- PWR_GOOD falls and every domain except the Pilot Light loses power. -/
  | pwrGoodFall
  /-- The always-on supply enters regulation and the Pilot Light starts. -/
  | alwaysOnSupplyOn (straps : Straps) (good : Bool)
  /-- The always-on supply is lost and the block is OFF. -/
  | alwaysOnSupplyOff
  /-- Self-test ends and the block enters STANDBY or SEALED. -/
  | initSelftestDone (r : SelfTest)
  /-- The platform's leave grant is sampled and the requested step is taken; or it rose in the tb cycle in which the block withdrew a request. -/
  | pwrLeaveGnt (raced : Bool)
  /-- No grant within WAIT_US raises PWR_CLK. -/
  | leaveWaitTimeout
  /-- GNT high for 100 tb with REQ low raises PWR_CLK. -/
  | gntStuckTimeout
  /-- A switched-on domain reaches regulation with isolation released. -/
  | domainRegulation (d : Fin 80)
  /-- After GATE_SC quiet cycles a slice or Wharf clock is gated. -/
  | idleGateClose (g : Option (Fin 18))
  /-- A clock with no edge for 64 tb is declared absent. -/
  | clockAbsent (d : Fin 40)
  /-- A wake slot sees an event of its source and sets FIRED. -/
  | wakeSlotFire (k : Fin 16)
  /-- A PL_IRQ_IN level change is sampled as an interrupt source event. -/
  | extInputChange (i : Fin 16) (up : Bool)
  /-- A group's hold-off timer ends and its sources become deliverable. -/
  | holdoffExpiry (g : Fin 16)
  /-- RESEND_US passes without claim or EOI and the message is presented again. -/
  | imsgResendExpiry (t : Fin 8)
  /-- The fabric takes the presented interrupt message. -/
  | imsgReady (f : Fin 4)
  /-- A dump period ends and a periodic dump starts or is skipped. -/
  | dumpPeriodExpiry
  /-- Eight records in the SRAM are spilled as one line to the memory ring. -/
  | logbookSpill
  /-- AGE_NOW.TICK advances once every 4 CLK_CORE cycles, ageing every stamped item. -/
  | ageTick
  /-- Each mc every unit sends its gathered event counts to domain 78, where enabled counters add them, chain carries and set CNT_WRAP. -/
  | counterMcUpdate
  /-- A clock declared absent shows edges again, clearing its CLK_MON.ABSENT bit and ending the timebase fallback. -/
  | clockReturn (d : Fin 40)
  /-- PWR_FAIL_N returns high, cancelling a low shorter than 20 samples or making PF_RELEASE legal after a drain. -/
  | pwrFailNRise
  /-- The platform lowers PWR_LEAVE_GNT after seeing REQ low, letting the next leave request be presented; or it did so early, in a tb cycle after
  the grant's sample in which REQ was still 1. -/
  | pwrLeaveGntFall (early : Bool)
  /-- An agent's FABf_HB bit toggles, restarting its heartbeat timeout. -/
  | heartbeatToggle (l : BitVec 6)
  /-- An IEEE 1500 wrapper instruction update takes effect, applying an intrusive instruction or causing the test reset. -/
  | wrapperUpdate (ir : BitVec 5)
  /-- TST_WRST_N at 0 resets the wrapper, or is the test reset that ends an intrusive instruction with a block reset. -/
  | wrapperReset
  /-- The Logbook writes one queued record or marker per mc into the SRAM ring, overwriting, stopping or summarising losses. -/
  | traceRecordWrite
  /-- Each flit time with no payload to send, the transmitter sends an IDLE flit carrying ACK, NAK, credit counts and link management codes. -/
  | idleFlitSend (n : Fin 6)
  /-- A switched-off domain has been isolated and its power removed, completing the command that switched it off. -/
  | domainPowerRemoved (d : Fin 80)
  /-- A Lockkeeper overlay finishes running and LK_OVERLAY completes with its result. -/
  | overlayEnd (sig : Bool) (ok : Bool) (result : Word)
  deriving DecidableEq, Repr

end Sys2Proof
end

