-- ==== Sys2Proof/Machine/Crc.lean ====
section
/-!
DEFINITION. Sys2Proof/Machine/Crc.lean: the CRC-64 with the ECMA-182 polynomial and initial value 0 (10 R335, 11 R394).
-/
namespace Sys2Proof.Machine

/-- One bit into a CRC-64, most significant end first. -/
def crc64Bit (c : BitVec 64) (b : Bool) : BitVec 64 :=
  if c.getLsbD 63 != b then (c <<< 1) ^^^ 0x42F0E1EBA9EA3693 else c <<< 1

/-- The CRC-64 of a run of bits, first bit first. -/
def crc64 (l : List Bool) (c : BitVec 64) : BitVec 64 := l.foldl crc64Bit c

/-- Bits of a number, bit 0 first. -/
def bitsUp (v n : Nat) : List Bool := (List.range n).map v.testBit

end Sys2Proof.Machine
end

