-- ==== Sys2Proof/Machine/Bch.lean ====
section
/-!
DEFINITION. Sys2Proof/Machine/Bch.lean: the BCH code of a Larder page over GF(2^14): the field, the generator, the check
polynomial and a decoder that corrects up to t bit errors (05 R142). Polynomials over GF(2) are numbers, bit k holding the
coefficient of x^k; polynomials over the field are lists of coefficients, constant first.
-/
namespace Sys2Proof.Machine

/-- The field polynomial x^14 + x^10 + x^6 + x + 1. -/
def gfPoly : Nat := 0x4443
/-- Multiply by α. -/
def gfMulX (a : Nat) : Nat := let b := a * 2; if b < 16384 then b else b ^^^ gfPoly
/-- Multiply two field elements. -/
def gfMul (a b : Nat) : Nat :=
  (List.range 14).foldl (fun acc k => gfMulX acc ^^^ (if b.testBit (13 - k) then a else 0)) 0
/-- Power, by the 14 bits of the exponent. -/
def gfPow (a n : Nat) : Nat :=
  (List.range 14).foldl (fun acc k => let q := gfMul acc acc; if n.testBit (13 - k) then gfMul q a else q) 1
/-- Inverse of a nonzero element. -/
def gfInv (a : Nat) : Nat := gfPow a 16382
/-- A power of α. -/
def alphaPow (k : Nat) : Nat := gfPow 2 (k % 16383)

/-- Add two field polynomials. -/
def gfAdd : List Nat → List Nat → List Nat
  | [], q => q
  | p, [] => p
  | a :: p, b :: q => (a ^^^ b) :: gfAdd p q
/-- Scale a field polynomial. -/
def gfScale (c : Nat) (p : List Nat) : List Nat := p.map (gfMul c)
/-- Multiply a field polynomial by x + c. -/
def gfMulLin (c : Nat) (p : List Nat) : List Nat := gfAdd (0 :: p) (gfScale c p)
/-- Value of a field polynomial. -/
def gfEval (p : List Nat) (x : Nat) : Nat := p.foldr (fun a acc => a ^^^ gfMul acc x) 0
/-- Degree, or 0 for the zero polynomial. -/
def gfDeg (p : List Nat) : Nat := ((List.range p.length).filter (fun k => p.getD k 0 != 0)).foldl Nat.max 0

/-- The minimal polynomial of α^j over GF(2), for j with 14 conjugates. -/
def minPoly (j : Nat) : Nat :=
  let roots := (List.range 14).map (fun i => alphaPow (j * 2 ^ i))
  let p := roots.foldl (fun p r => gfMulLin r p) [1]
  (List.range p.length).foldl (fun v k => if p.getD k 0 = 1 then v ||| 2 ^ k else v) 0

/-- Product of polynomials over GF(2), b of degree below n. -/
def clMul (a b n : Nat) : Nat := (List.range n).foldl (fun acc k => if b.testBit k then acc ^^^ (a <<< k) else acc) 0

/-- The generator for strength t: the product of the minimal polynomials of α, α^3, …, α^(2t − 1), of degree 14t. -/
def bchGen (t : Nat) : Nat := (List.range t).foldl (fun g i => clMul g (minPoly (2 * i + 1)) 15) 1

/-- Remainder of a polynomial of degree below n + d by g of degree d. -/
def polyRem (v g n d : Nat) : Nat :=
  (List.range n).foldl (fun v k => if v.testBit (n + d - 1 - k) then v ^^^ (g <<< (n - 1 - k)) else v) v

/-- Coefficients of the data polynomial: 128 records and GEN. -/
def bchData : Nat := 8240
/-- The check polynomial R(x) of a data polynomial. -/
def bchCheck (t data : Nat) : Nat := polyRem (data <<< (14 * t)) (bchGen t) bchData (14 * t)

/-- Syndromes S_1 to S_2t of a remainder by the generator. -/
def bchSyndromes (t rem : Nat) : List Nat :=
  (List.range (2 * t)).map (fun j =>
    (List.range (14 * t)).foldl (fun acc k => if rem.testBit k then acc ^^^ alphaPow ((j + 1) * k) else acc) 0)

/-- State of the Berlekamp–Massey iteration: C, B, L, m, b. -/
structure BmState where
  c : List Nat
  b : List Nat
  l : Nat
  m : Nat
  d : Nat

/-- One Berlekamp–Massey step. -/
def bmStep (syn : List Nat) (x : BmState) (n : Nat) : BmState :=
  let disc := (List.range x.l).foldl (fun acc i => acc ^^^ gfMul (x.c.getD (i + 1) 0) (syn.getD (n - (i + 1)) 0)) (syn.getD n 0)
  if disc = 0 then { x with m := x.m + 1 }
  else
    let c' := gfAdd x.c (List.replicate x.m 0 ++ gfScale (gfMul disc (gfInv x.d)) x.b)
    if 2 * x.l ≤ n then ⟨c', x.c, n + 1 - x.l, 1, disc⟩ else { x with c := c', m := x.m + 1 }

/-- The error-locator polynomial. -/
def bchLocator (t : Nat) (syn : List Nat) : List Nat :=
  ((List.range (2 * t)).foldl (bmStep syn) ⟨[1], [1], 0, 1, 1⟩).c

/-- The error positions a locator names within a length. -/
def bchRoots (loc : List Nat) (len : Nat) : List Nat :=
  (List.range len).filter (fun i => gfEval loc (alphaPow (16383 - i)) = 0)

/-- Decode a codeword: the corrected word and the number of bits corrected, or none on failure (05 R142). -/
def bchDecode (t word : Nat) : Option (Nat × Nat) :=
  let rem := polyRem word (bchGen t) bchData (14 * t)
  if rem = 0 then some (word, 0)
  else
    let loc := bchLocator t (bchSyndromes t rem)
    let roots := bchRoots loc (bchData + 14 * t)
    if gfDeg loc ≤ t ∧ roots.length = gfDeg loc then
      some (roots.foldl (fun w i => w ^^^ 2 ^ i) word, roots.length)
    else none

end Sys2Proof.Machine
end

