-- ==== Sys2Proof/Config.lean ====
section
/-!
DEFINITION. Sys2Proof/Config.lean: what an implementation fixes, as the reference configuration gives it, and the free
values: opaque constants with no body, for values the spec leaves open.
-/
namespace Sys2Proof.Config

/-- log2 of the Local Sieve's sets per slice: 12 at the reference size of 64 Ki entries (05 R158). -/
def lsLog2Sets : Nat := 12

/-- Codes and positions whose layout the spec does not give (SECDED codes of 05 R153, R159; the DATA detail of 11
R369): a free value, one per use. -/
opaque freeWord : Nat → BitVec 64

/-- A free choice between two outcomes, one per use. -/
opaque freeBit : Nat → Bool

/-- Where the PRBS31 of a spare transmit lane begins, by port and lane (09 R280 names the sequence and no start). -/
opaque prbsStart : Nat → Nat → BitVec 31

/-- Data of a line that the spec leaves open: a free value, one per use. -/
opaque freeLine : Nat → BitVec 2048

/-- The configuration digest that IDENTIFY returns, an instance parameter (12 R421). -/
opaque digest : BitVec 64

/-- MC_KEYS.PRESENT, a parameter of the Lockkeeper ROM (10 R346). -/
opaque keysPresent : BitVec 4

end Sys2Proof.Config
end

