-- ==== Sys2Proof/Machine/CoreState.lean ====
section
/-!
DEFINITION. Sys2Proof/Machine/CoreState.lean: the plain data of the host port, the slices, the directory engines, the
memory ports, the fabric ports and the Wharf, each with its value at reset.
-/
namespace Sys2Proof.Machine

/-- A suspect-map entry (05 R156). -/
structure Suspect where
  page : Nat
  count : Nat
  flag : Bool
  deriving DecidableEq, Repr

/-- The block state (12 R415). -/
inductive BlockSt where
  | off | pilot | init | standby | chartered | service | frozen | sealed_
  deriving DecidableEq, Repr

/-- BLK_STAT.STATE (12 R415). -/
def BlockSt.code : BlockSt → Nat
  | .off => 0 | .pilot => 1 | .init => 2 | .standby => 3 | .chartered => 4 | .service => 5 | .frozen => 6 | .sealed_ => 7

/-- Credits of this instance's proxy towards one home (06 R193), and the home's snoop credits towards it (06 R194). -/
structure InstCredits where
  /-- Mooring bits, bit 4 × local + class. -/
  moorings : BitVec 256
  header : Nat
  data : Nat
  snoop : Nat
  deriving DecidableEq, Repr

/-- Credits at reset: none before charter commit. -/
def InstCredits.none : InstCredits := ⟨0, 0, 0, 0⟩

/-- The slice lifecycle states (12 R419). -/
inductive SliceSt where
  | dark | waking | ready | spare | serving | draining | proof | sealed_
  deriving DecidableEq, Repr

/-- Galley modes (10 R332). -/
inductive GalMode where
  | service | startup | test | recovery
  deriving DecidableEq, Repr

/-- The store states of a control or standby store (10 R344). -/
inductive StoreSt where
  | empty | loading | verified | inProof
  deriving DecidableEq, Repr

/-- A microcode store: its state, the words held, sparse, and the image's digest and identity (10 R344, R345). -/
structure Store where
  st : StoreSt
  /-- 64-bit words of the image, first word lowest. -/
  words : List Word
  /-- Bytes expected by MC_LOAD_OPEN. -/
  expect : Nat
  /-- Next block number of MC_LOAD_DATA. -/
  next : Nat
  valid : Bool
  deriving DecidableEq, Repr

/-- An empty store. -/
def Store.none : Store := ⟨.empty, [], 0, 0, false⟩

/-- One physical slice (01 R36, R38): protocol engine, Sieves, Skillet, predictor and Galley pair. -/
structure Slice where
  st : SliceSt
  /-- Logical number it serves, or last served. -/
  logical : Option Nat
  /-- PROOF was entered from SERVING (12 R419). -/
  proofServing : Bool
  chambers : List Chamber
  barges : List Barge
  internals : List Internal
  agentPtr : BitVec 12
  snoopPtr : BitVec 6
  /-- Snoop admissions in a row while another item was eligible (06 R202). -/
  snoopRun : Nat
  /-- The item selected for the next admission (06 R203). -/
  selected : Option Selected
  /-- Cycles of the slice's own clock (00 R10). -/
  clock : Nat
  hs : Map HsWay
  hsTree : Map (BitVec 15)
  ls : Map LsWay
  lsTree : Map (BitVec 15)
  spillCnt : Map Nat
  /-- Every spill count of the slice is 255 (05 R170). -/
  spillAll : Bool
  spill : List LsWay
  /-- Next set of the patrol (05 R181). -/
  patrol : Nat
  /-- Ways whose last patrol pass found a corrected error: array, set, way (05 R185). -/
  ceWays : List (Bool × Nat × Nat)
  /-- Records in write-back, still held dirty (05 R155). -/
  wbHeld : Nat
  simmer : List Simmer
  skl : Map SklEnt
  sklUses : Nat
  miss : Option Nat
  warm : Map Warm
  warmFills : Nat
  drip : Map Drip
  last : LineAddr
  run : Nat
  pred : Map (BitVec 3)
  mode : GalMode
  control : Store
  standby : Store
  /-- The waking work left and its outcome are events; the wake's causing command. -/
  wakeTag : Option Nat
  /-- WAKING was entered from SPARE (12 R419). -/
  fromSpare : Bool
  /-- WAKING was entered for a failover, and its tests have passed (12 R419). -/
  forFailover : Bool
  tested : Bool
  /-- Writes of SIEVE_REMAP registers that wait for a spill buffer slot, in order (05 R185). -/
  remapWait : List (Nat × Word)
  /-- TRIM that a partial drain prepares: lines whose logical slice under it is another leave (15 R520). -/
  leaving : Option Nat
  deriving DecidableEq, Repr

/-- A slice at reset: DARK, every array empty. -/
def Slice.reset : Slice :=
  { st := .dark, logical := none, proofServing := false, chambers := [], barges := [], internals := [],
    agentPtr := 0, snoopPtr := 0, snoopRun := 0, selected := none, clock := 0, hs := [], hsTree := [], ls := [], lsTree := [],
    spillCnt := [], spillAll := false, spill := [], patrol := 0, ceWays := [], wbHeld := 0, simmer := [], skl := [], sklUses := 0,
    miss := none, warm := [], warmFills := 0, drip := [], last := 0, run := 1, pred := [], mode := .test,
    control := Store.none, standby := Store.none, wakeTag := none, fromSpare := false, forFailover := false,
    tested := false, remapWait := [], leaving := none }

/-- The host port (01 R41). -/
structure HostPort where
  berths : List Berth
  early : List EarlyData
  intake : List SnoopItem
  /-- TO_HOME data that waits for a chamber data reserve slot, with the Wharf endpoint it has come to (06 R190). -/
  waitData : List (Nat × Msg)
  tick : Stamp
  /-- The tick at which the freeze under way began, which all that arrives takes as its stamp (06 R200). -/
  freezeTick : Option Stamp
  credits : Map InstCredits
  /-- Next TAG of own-account WB_Ds per local agent (03 R597). -/
  ownTag : Map Tag
  posted : Nat
  /-- Far reservation table: LINE of each valid entry (07 R236). -/
  far : Map LineAddr
  suspects : Map (List Suspect)
  /-- SLICE_MAP: physical slice of each logical slice, 0x1F when unmapped (02 R68). -/
  remap : Map Nat
  trim : Nat
  epochs : Map (BitVec 4)
  /-- Presence bit of each local agent, as followed (15 R523). -/
  present : BitVec 64
  /-- Heartbeat level of each local agent. -/
  hb : BitVec 64
  /-- Pings driven to local agents. -/
  ping : BitVec 64
  tomb : Map (BitVec 64)
  seq : Nat
  /-- WB_Ds that a RSP_WBX of a local agent announced and that have not reached the berth array (03 R109, 06 R210). -/
  wbComing : List (AgentId × LineAddr)
  deriving DecidableEq, Repr

/-- Default of the remap table: logical slice k at physical slice k (02 R68). -/
def remapReset (k : Nat) : Nat := k

/-- The host port at reset. -/
def HostPort.reset : HostPort :=
  { berths := [], early := [], intake := [], waitData := [], tick := 0, freezeTick := none, credits := [], ownTag := [],
    posted := 0, far := [], suspects := [], remap := (List.range 16).map (fun k => (k, k)), trim := 0, epochs := [],
    present := 0, hb := 0, ping := 0, tomb := [], seq := 0, wbComing := [] }

/-- The directory engines: Larder, Overflow, Scrub, census and open mode (05). -/
structure Engines where
  larder : List LJob
  /-- Operations of the Overflow engine, oldest first. -/
  ovf : List OJob
  queries : List QJob
  stash : List OvfEnt
  move : Option OvfEnt
  /-- Lines whose UNKNOWN entry a census inserts, and that wait for the move register (05 R166, R172). -/
  insQ : List LineAddr
  /-- Census SNP_Qs sent to a chip whose RSP_Q has not come: chip, TAG and line (05 R176). -/
  censusOut : List (BitVec 6 × Tag × LineAddr)
  taints : List Nat
  /-- SNP_Qs, with their data, that wait for a snoop credit (05 R176). -/
  snpqOut : List (BitVec 6 × Msg × Option Msg)
  /-- Payloads of RSP_Q whose RSP_Q has not arrived, and RSP_Qs whose payload has not (03 R90). -/
  qData : List Msg
  qRsp : List Msg
  ovfCount : Nat
  ovfFull : Bool
  censuses : List Census
  censusSeq : BitVec 8
  lsOpen : BitVec 16
  /-- Instances whose census-end with the latest number has arrived. -/
  censusEnds : List (BitVec 6)
  /-- Insertions a census caused and memory has not accepted. -/
  censusInserts : Nat
  /-- A census is under way, and it covers every logical slice. -/
  censusRun : Bool
  censusAll : Bool
  /-- The taint list as it stood at the request of a census for every logical slice. -/
  censusTaints : List Nat
  scrubPage : Nat
  scrubBucket : Nat
  generation : BitVec 48
  /-- Leave for a change of generation is awaited: at most 4 pages are in progress (14 R483). -/
  genLeave : Bool
  deriving DecidableEq, Repr

/-- The engines at reset. -/
def Engines.reset : Engines :=
  { larder := [], ovf := [], queries := [], stash := [], move := none, insQ := [], censusOut := [], taints := [], snpqOut := [], qData := [], qRsp := [], ovfCount := 0, ovfFull := false, censuses := [],
    censusSeq := 0, lsOpen := 0, censusEnds := [], censusInserts := 0, censusRun := false, censusAll := false,
    censusTaints := [], scrubPage := 0,
    scrubBucket := 0, generation := 0, genLeave := false }

/-- The memory ports: outstanding reads and writes, and writes that wait (18 R584, 07 R242). -/
structure MemPorts where
  reads : List MRead
  writes : List MWrite
  deriving DecidableEq, Repr

/-- Power-fail drain and its status (08 R270 to R275). -/
structure PowerFail where
  seen : Bool
  drainDone : Bool
  drainLate : Bool
  restDone : Bool
  hold : Bool
  lines : Nat
  drainTb : Nat
  /-- Guaranteed lines not yet acknowledged, by write name. -/
  left : List Nat
  /-- Other lines: writes that follow the guaranteed ones. -/
  rest : List Nat
  /-- The guaranteed drain of a block seal runs (11 R400). -/
  forSeal : Bool
  began : Nat
  /-- PWR_FAIL_N as last sampled: true is high. -/
  failHigh : Bool
  deriving DecidableEq, Repr

/-- No power failure. -/
def PowerFail.reset : PowerFail :=
  { seen := false, drainDone := false, drainLate := false, restDone := false, hold := false, lines := 0, drainTb := 0,
    left := [], rest := [], forSeal := false, began := 0, failHigh := true }

/-- One fabric port's egress: messages that wait for a credit, and the credits held (18 R579). -/
structure FabPort where
  snpQ : List Msg
  datQ : List Msg
  cmpQ : List Msg
  snpCrd : Nat
  datCrd : Nat
  cmpCrd : Nat
  deriving DecidableEq, Repr

/-- A fabric port at reset: no credit (18 R579). -/
def FabPort.reset : FabPort := ⟨[], [], [], 0, 0, 0⟩

/-- The Wharf: the transfers given to it, the source pointer of each destination, and what a granted source waits for (06 R204). -/
structure Wharf where
  xfers : List Xfer
  ptrs : Map Nat
  owes : List Owes
  deriving DecidableEq, Repr

/-- What leaves the block, newest first: the model's own record of its outputs. -/
inductive Out where
  | fabric (port : Nat) (m : Msg)
  /-- A grant on FABf_CRD: kind, agent, class, count (18 R580). -/
  | credit (port kind agent cls count : Nat)
  /-- Command-word credits returned on TOW_CMD_CRD (18 R586). -/
  | cmdCredit (n : Nat)
  /-- A flit on a Culvert port. -/
  | flit (port : Nat) (bytes : List (BitVec 8))
  /-- One lane clock cycle of a Culvert port: a 64-bit word to each physical transmit lane in use (09 R277). -/
  | lanes (port : Nat) (words : List (Nat × BitVec 64))
  /-- A training block on a physical transmit lane, so many times in a row (09 R303). -/
  | train (port lane : Nat) (block : BitVec 256) (count : Nat)
  /-- PRBS31 on every lane of a port for the TEST window (09 R303). -/
  | prbs (port : Nat)
  /-- A port's SerDes is asked to adapt (09 R304). -/
  | adapt (port : Nat)
  /-- A memory command: port, tag, line (18 R583). -/
  | memRead (port tag : Nat) (line : LineAddr)
  | memWrite (port tag : Nat) (line : LineAddr) (data : LineData) (mask : LineMask) (poison : Bool)
  /-- A reply of a Towpath transport, in words (12 R403). -/
  | reply (transport : Nat) (words : List Word)
  /-- An answer on an MMIO port: access ID and data (18 R582). -/
  | mmio (port id : Nat) (data : Word)
  /-- An interrupt message presented (13 R458). -/
  | imsg (target : Nat) (addr : Word) (data : BitVec 32)
  /-- A ping edge driven on the sideband (18 R581). -/
  | ping (loc : BitVec 6) (level : Bool)
  /-- A byte returned on the two-wire bus (12 R413). -/
  | twoWire (b : BitVec 8)
  /-- The value of a register that a read of it returns, when the command does not say by which transport it came: offset, value. -/
  | value (off : Nat) (data : Word)
  deriving DecidableEq, Repr

end Sys2Proof.Machine
end

