-- ==== Sys2Proof/Machine/FaultTypes.lean ====
section
/-!
DEFINITION. Sys2Proof/Machine/FaultTypes.lean: the plain data of fault collection (spec/11_faults_seals_and_freeze.md
R360 to R373) and of the domain freeze (R390 to R397), each with its value at reset.
-/
namespace Sys2Proof.Machine

/-- An event of an error source, as reported (11 R360, R369). -/
structure FltEvent where
  /-- Source ID, 32 × family + index. -/
  src : Nat
  line : LineAddr
  agent : AgentId
  xdata : BitVec 24
  data : BitVec 64
  /-- Instance and mask of named agents, for unit "agent". -/
  agents : Option (BitVec 6 × BitVec 64)
  deriving DecidableEq, Repr

/-- An event with no detail. -/
def FltEvent.plain (src : Nat) : FltEvent := ⟨src, 0, 0, 0, 0, none⟩

/-- An escalation slot (11 R366, R368). -/
structure EscSlot where
  src : Nat
  sev : Nat
  stopped : Bool
  /-- Timebase count at which the timer ends. -/
  expiry : Nat
  agents : List (BitVec 6 × BitVec 64)
  /-- Cause of R390 of the source's latest event, for unit "agent". -/
  cause : Nat
  deriving DecidableEq, Repr

/-- A coalescing window (11 R371). -/
structure CoalWin where
  src : Nat
  opened : Nat
  count : Nat
  sev : Nat
  deriving DecidableEq, Repr

/-- An error pin (11 R373). -/
structure ErrPin where
  asserted : Bool
  /-- A pulse runs. -/
  pulse : Bool
  /-- A RELEASE written during the pulse. -/
  release : Bool
  deriving DecidableEq, Repr

/-- Fault collection (11 R360 to R373). -/
structure Faults where
  /-- Events reported and logged in the step that runs, whose other effects are still to come: empty between steps. -/
  raised : List FltEvent
  seq : BitVec 32
  /-- Report queue of 64 entries. -/
  queue : List (BitVec 256)
  /-- Escalation entries and repeat summaries, which go ahead of the queue. -/
  made : List (BitVec 256)
  ring : Map (BitVec 256)
  wr : BitVec 11
  rd : BitVec 11
  lost : Nat
  lostSev : Nat
  /-- Entries lost since the last loss summary, with the highest severity. -/
  lossDue : Nat
  lossSev : Nat
  first : BitVec 256
  firstValid : Bool
  escFull : Bool
  slots : Map (Option EscSlot)
  windows : List CoalWin
  missed : Map Word
  pin0 : ErrPin
  pin1 : ErrPin
  /-- Seals: Culvert, fabric and memory ports, and the block (11 R400). -/
  sealCul : BitVec 6
  sealFab : BitVec 4
  sealMem : BitVec 4
  sealDrain : Bool
  masked : BitVec 3
  /-- Halves of the berth array and of the Wharf that a fault has taken out of service: bit i is the half of domain 74 + i (01 R44). -/
  halves : BitVec 4
  deriving DecidableEq, Repr

/-- Fault collection at reset. -/
def Faults.reset : Faults :=
  { raised := [], seq := 0, queue := [], made := [], ring := [], wr := 0, rd := 0, lost := 0, lostSev := 0, lossDue := 0,
    lossSev := 0, first := 0, firstValid := false, escFull := false, slots := [], windows := [], missed := [],
    pin0 := ⟨false, false, false⟩, pin1 := ⟨false, false, false⟩, sealCul := 0, sealFab := 0, sealMem := 0,
    sealDrain := false, masked := 0, halves := 0 }

/-- An FRZ_READY held by the coordinator (11 R394). -/
structure ReadyView where
  inst : BitVec 6
  view : BitVec 64
  outside : Bool
  deriving DecidableEq, Repr

/-- Domain freeze (11 R390 to R397). -/
structure Freeze where
  /-- 0 none, 1 resolving, 2 quiet or ready, 3 thawing. -/
  st : Nat
  number : BitVec 8
  coord : BitVec 6
  lastUs : Nat
  count : Nat
  /-- Timebase count at which the present freeze began. -/
  began : Nat
  /-- Instances that have sent FRZ_START for the present freeze. -/
  initiators : List (BitVec 6)
  views : List ReadyView
  /-- FRZ_READY has been sent. -/
  ready : Bool
  /-- Sideband pings outstanding: agent, and whether one was answered before (causes NO_PING and STUCK). -/
  agentPings : List (BitVec 6 × Bool)
  /-- Instance pings outstanding, and instances whose ping was answered. -/
  instPings : List (BitVec 6)
  pingNo : BitVec 8
  /-- FREEZE_LATE has been raised for the present freeze. -/
  late : Bool
  deriving DecidableEq, Repr

/-- No freeze. -/
def Freeze.reset : Freeze :=
  { st := 0, number := 0, coord := 0, lastUs := 0, count := 0, began := 0, initiators := [], views := [], ready := false,
    agentPings := [], instPings := [], pingNo := 0, late := false }

/-- A slice failover under way (11 R383). -/
structure Failover where
  logical : Nat
  failed : Nat
  spare : Option Nat
  hot : Bool
  /-- Step 1 seal done 2 settle done 3 salvage done 4 taken over, replay under way. -/
  step : Nat
  began : Nat
  /-- Berth and intake items held at step 1 and not yet admitted again. -/
  held : List Nat
  /-- Lines whose record becomes POISON: they failed their check, or their held data was made up (11 R383, R376). -/
  lost : List LineAddr
  /-- Internal operations of the failed slice that the spare takes. -/
  kept : List Internal
  /-- The first replay admission has been made. -/
  timed : Bool
  /-- The SLICE_FAILOVER command that waits for it. -/
  cmd : Option Nat
  deriving DecidableEq, Repr

end Sys2Proof.Machine
end

