-- ==== Sys2Proof/Machine/CoreRec.lean ====
section
/-!
DEFINITION. Sys2Proof/Machine/CoreRec.lean: Core, the coherence engine with the registers, the memory and fabric ports and
fault collection, as one record that State holds.
-/
namespace Sys2Proof.Machine

/-- The coherence engine and what it shares with every other unit. -/
structure Core where
  /-- Stored registers that differ from their reset value (17 R564 to R570). -/
  regs : Map Word
  /-- Block state (12 R415). -/
  block : BlockSt
  host : HostPort
  slices : Map Slice
  eng : Engines
  mem : MemPorts
  pf : PowerFail
  fab : Map FabPort
  wharf : Wharf
  /-- Messages for the Culvert transmit side, made in this step: empty between steps. -/
  toSend : List CulMsg
  /-- Work one unit hands another within a step: empty between steps. -/
  todo : List Task
  /-- What the engine hands to the other units in this step: empty between steps. -/
  up : List Up
  flt : Faults
  frz : Freeze
  failovers : List Failover
  /-- Events counted since the last counter update, by group × 1,024 + event (16 R531). -/
  cntPend : Map Nat
  /-- The model's record of what left the block, newest first. -/
  out : List Out
  /-- Power domains on and in regulation, bit d for domain d (01 R49, 14 R472). -/
  doms : BitVec 80
  /-- Next name the model gives an entry, barge, write or transfer. -/
  nextId : Nat
  /-- Counter of free values. -/
  freeCtr : Nat
  /-- CLK_CORE cycles that AGE_TICK has passed. -/
  cycles : Nat
  deriving DecidableEq, Repr

/-- The engine at reset. -/
def Core.reset : Core :=
  { regs := [], block := .init, host := HostPort.reset, slices := [], eng := Engines.reset, mem := ⟨[], []⟩, pf := PowerFail.reset,
    fab := [], wharf := ⟨[], [], []⟩, toSend := [], todo := [], up := [], flt := Faults.reset, frz := Freeze.reset, failovers := [],
    cntPend := [], out := [], doms := 0xFC00#80 <<< 64, nextId := 0, freeCtr := 0, cycles := 0 }

end Sys2Proof.Machine
end

