-- ==== Sys2Proof/Machine/Report.lean ====
section
/-!
DEFINITION. Sys2Proof/Machine/Report.lean: operations every unit uses: reading slices and registers, reporting an error
event, counting a performance event, taking a fresh name or free value, and recording an output.
-/
namespace Sys2Proof.Machine

/-! Error families (11 R361). -/

def famLkVote : Nat := 0
def famBerthCe : Nat := 1
def famBerthUe : Nat := 2
def famWharfCe : Nat := 3
def famWharfUe : Nat := 4
def famPlRetain : Nat := 5
def famLockViol : Nat := 6
def famTowProto : Nat := 7
def famClkFail : Nat := 8
def famPwrClk : Nat := 9
def famGateFault : Nat := 10
def famIrqStack : Nat := 11
def famAddrNohome : Nat := 12
def famAgentUndef : Nat := 13
def famMsgRole : Nat := 14
def famMsgUndef : Nat := 15
def famAtomForm : Nat := 16
def famBerthOvf : Nat := 17
def famMsgStray : Nat := 18
def famPoisonSeen : Nat := 19
def famMemPoison : Nat := 20
def famMemWrerr : Nat := 21
def famMemProto : Nat := 22
def famDirFormat : Nat := 23
def famDirConflict : Nat := 24
def famHsieveCe : Nat := 25
def famHsieveUe : Nat := 26
def famLsieveCe : Nat := 27
def famLsieveUe : Nat := 28
def famRemapFull : Nat := 29
def famLarderCe : Nat := 30
def famLarderUe : Nat := 31
def famOvfFull : Nat := 32
def famOvfEcc : Nat := 33
def famSkilletCe : Nat := 34
def famSkilletUe : Nat := 35
def famCtrlUe : Nat := 36
def famGalleyRewind : Nat := 37
def famGalleyHard : Nat := 38
def famGalleySweep : Nat := 39
def famGalleyLatent : Nat := 40
def famGalleySelftest : Nat := 41
def famGalleyCsCe : Nat := 42
def famGalleyCsUe : Nat := 43
def famGalleyIllegal : Nat := 44
def famGalleyStall : Nat := 45
def famMcStandbyUe : Nat := 46
def famMcSig : Nat := 47
def famProofDiverge : Nat := 48
def famCulReplay : Nat := 49
def famCulLane : Nat := 50
def famCulNospare : Nat := 51
def famCulTrain : Nat := 52
def famCulCrossed : Nat := 53
def famCulProto : Nat := 54
def famCulDown : Nat := 55
def famCulFence : Nat := 56
def famCulTtl : Nat := 57
def famCulUnreach : Nat := 58
def famAgentDead : Nat := 59
def famInstSilent : Nat := 60
def famFailover : Nat := 61
def famNoSpare : Nat := 62
def famFreezeLate : Nat := 63

/-- Index of a unit in a source ID (11 R360): slice p, Culvert port 18 + n, fabric port 24 + f, memory port 28 + m. -/
def unitCul (n : Nat) : Nat := 18 + n
def unitFab (f : Nat) : Nat := 24 + f
def unitMem (m : Nat) : Nat := 28 + m

/-- Count n events of a unit group (16 R530, R534): the group is 0 to 17 for a slice, 18 + u for port unit u, 32 for the
Wharf. They reach the counters at the next mc (16 R531). -/
def Core.bump (group event n : Nat) (s : Core) : Core :=
  { s with cntPend := mset 0 s.cntPend (group * 1024 + event) (mget 0 s.cntPend (group * 1024 + event) + n) }

/-- Record an output. -/
def Core.emit (o : Out) (s : Core) : Core := { s with out := o :: s.out }

/-- A physical slice. -/
def Core.slice (s : Core) (p : Nat) : Slice := mget Slice.reset s.slices p
/-- Write a physical slice. -/
def Core.setSlice (p : Nat) (x : Slice) (s : Core) : Core := { s with slices := mset Slice.reset s.slices p x }
/-- Update a physical slice. -/
def Core.onSlice (p : Nat) (f : Slice → Slice) (s : Core) : Core := s.setSlice p (f (s.slice p))
/-- Update the host port. -/
def Core.onHost (f : HostPort → HostPort) (s : Core) : Core := { s with host := f s.host }
/-- Update the directory engines. -/
def Core.onEng (f : Engines → Engines) (s : Core) : Core := { s with eng := f s.eng }

/-- A fresh name of the model. -/
def Core.fresh (s : Core) : Nat × Core := (s.nextId, { s with nextId := s.nextId + 1 })

/-- The barge of a slice with a given name. -/
def Slice.barge? (x : Slice) (id : Nat) : Option Barge := x.barges.find? (fun b => b.id = id)
/-- Replace a barge. -/
def Slice.putBarge (x : Slice) (b : Barge) : Slice := { x with barges := updateWhere (fun c => c.id = b.id) (fun _ => b) x.barges }
/-- The barge of a slice. -/
def Core.barge? (s : Core) (p id : Nat) : Option Barge := (s.slice p).barge? id
/-- Write a barge. -/
def Core.putBarge (p : Nat) (b : Barge) (s : Core) : Core := s.onSlice p (fun x => x.putBarge b)

/-- The berth entry of a given name. -/
def Core.berth? (s : Core) (id : Nat) : Option Berth := s.host.berths.find? (fun b => b.id = id)
/-- Replace a berth entry. -/
def Core.putBerth (b : Berth) (s : Core) : Core :=
  s.onHost (fun h => { h with berths := updateWhere (fun c => c.id = b.id) (fun _ => b) h.berths })

/-- Update a berth entry. -/
def Core.onBerth (id : Nat) (f : Berth → Berth) (s : Core) : Core :=
  s.onHost (fun h => { h with berths := updateWhere (fun b => b.id = id) f h.berths })

/-- The timebase count: CLK_CORE cycles at 22 to the tick (a log entry says so). -/
def Core.tb (s : Core) : Nat := s.cycles / 22

/-- The stamp of an item that arrives now: while a freeze holds, the tick at which it began (06 R198, R200). -/
def Core.arrival (s : Core) : Stamp := s.host.freezeTick.getD s.host.tick

/-! Offsets of the registers the engine reads (17 R564). -/

def offInstId : Nat := 0x10
def offDomainCfg : Nat := 0x100
def offFlowCtl : Nat := 0x108
def offSimmerCtl : Nat := 0x110
def offBerthCtl : Nat := 0x118
def offPredCtl : Nat := 0x130
def offRsvCtl : Nat := 0x138
def offSklCtl : Nat := 0x140
def offLarderBase : Nat := 0x400
def offLarderInfo : Nat := 0x408
def offOvfBase : Nat := 0x410
def offOvfCtl : Nat := 0x418
def offLarderCtl : Nat := 0x420
def offLarderGen : Nat := 0x428
def offScrubCtl : Nat := 0x430
def offInterrogCtl : Nat := 0x440
def offHsCtl : Nat := 0x450
def offMrtA (n : Nat) : Nat := 0x1000 + n * 0x10
def offMrtB (n : Nat) : Nat := 0x1008 + n * 0x10
def offAgentCfg (l : Nat) : Nat := 0x2000 + l * 8
def offHoldup : Nat := 0x30100
def offMemCfg (n : Nat) : Nat := 0xE0400 + n * 8

end Sys2Proof.Machine
end

