-- ==== Sys2Proof/Machine/RegReset.lean ====
section
/-!
DEFINITION. Sys2Proof/Machine/RegReset.lean: the error families' units and default severities (11 R361) and the reset
value of every register offset of 17 R564 to R570.
-/
namespace Sys2Proof.Machine

/-- The kind of unit an error family concerns (11 R361, R364). -/
inductive UnitKind where
  | none | slice | culvert | fabric | memory | agent
  deriving DecidableEq, Repr

/-- Indices below n are used, from base b: (b, n) per unit (11 R360). -/
def unitSpan : UnitKind → Nat × Nat
  | .none => (0, 0) | .slice => (0, 18) | .culvert => (18, 6) | .fabric => (24, 4) | .memory => (28, 4) | .agent => (0, 0)

/-- Unit of a source: family and index (11 R361). -/
def unitOf (fam idx : Nat) : UnitKind :=
  if fam = famClkFail then
    if idx < 18 then .slice else if idx < 24 then .culvert else if idx < 28 then .fabric else .memory
  else if fam = famBerthOvf then if idx < 24 then .culvert else .fabric
  else if fam = famAgentDead ∨ fam = famInstSilent then .agent
  else if fam < 12 then .none
  else if fam < 18 ∨ fam = famPoisonSeen then .fabric
  else if fam = famMsgStray then .slice
  else if fam < 23 then .memory
  else if fam < 30 then .slice
  else if fam < 34 then .none
  else if fam < 49 then .slice
  else if fam < 58 then .culvert
  else if fam = famFailover ∨ fam = famNoSpare then .slice
  else .none

/-- Whether a family uses an index (11 R361). -/
def famUses (fam idx : Nat) : Bool :=
  if fam ≥ 64 then false
  else if fam = famClkFail then idx < 32
  else if fam = famBerthOvf then 18 ≤ idx && idx < 28
  else if fam = famLkVote ∨ fam = famPlRetain ∨ fam = famTowProto then idx < 3
  else if fam = famBerthCe ∨ fam = famBerthUe ∨ fam = famWharfCe ∨ fam = famWharfUe then idx < 2
  else if fam = famGateFault then idx < 6
  else if fam = famIrqStack then idx < 8
  else if fam = famAgentDead then idx = 0 || (24 ≤ idx && idx < 28)
  else match unitOf fam idx with
    | .none | .agent => idx = 0
    | u => (unitSpan u).1 ≤ idx && idx < (unitSpan u).1 + (unitSpan u).2

/-- Default severity of a family (11 R361): IGNORE 0, LOG 1, NOTIFY 2, URGENT 3, SEAL_SLICE 4, SEAL_PORT 5,
FREEZE_DOMAIN 6, SEAL_BLOCK 7. -/
def famDefault (fam : Nat) : Nat :=
  if [famBerthCe, famWharfCe, famPlRetain, famPoisonSeen, famHsieveCe, famLsieveCe, famLarderCe, famSkilletCe,
      famGalleyRewind, famGalleySweep, famGalleyCsCe, famProofDiverge, famCulReplay].contains fam then 1
  else if [famClkFail, famBerthOvf, famMemProto, famDirConflict, famOvfFull, famGalleyStall, famCulProto, famCulDown,
      famCulFence, famCulTtl, famCulUnreach, famNoSpare, famFreezeLate].contains fam then 3
  else if [famCtrlUe, famGalleyHard, famGalleyLatent, famGalleySelftest, famGalleyCsUe, famGalleyIllegal].contains fam then 4
  else if fam = famAgentDead ∨ fam = famInstSilent then 6
  else 2

/-- Reset value of FLT_SEV(k) (11 R362). -/
def fltSevReset (k : Nat) : Word :=
  (List.range 16).foldl (fun w j =>
    let src := 16 * k + j
    if famUses (src / 32) (src % 32) then w ||| at' (famDefault (src / 32)) (3 * j) else w) 0

/-- The default sense of an interrupt source (13 R450): level 0, rising 1, falling 2, both 3; none for a reserved ID. -/
def irqSenseReset (s : Nat) : Option Nat :=
  if s ≥ 128 then some 0
  else if s ≤ 2 ∨ s = 5 ∨ (16 ≤ s ∧ s < 32) ∨ (112 ≤ s) then some 0
  else if s = 3 ∨ s = 4 ∨ s = 6 ∨ (32 ≤ s ∧ s < 38) ∨ (48 ≤ s ∧ s < 56) ∨ (64 ≤ s ∧ s < 82) then some 3
  else if 38 ≤ s ∧ s < 44 then some 2
  else if 96 ≤ s ∧ s < 100 then some 1
  else none

/-- Whether an offset lies at base + step × i for some i below n. -/
def inArray (off base step n : Nat) : Bool := base ≤ off && off < base + step * n && (off - base) % step = 0

/-- Reset value of a register of the global region (17 R564). MC_KEYS.PRESENT is a parameter, and not stored. -/
def resetGlobal (off : Nat) : Word :=
  if off = 0x0 then 0x20000 else if off = 0x100 then 0x18 else if off = 0x108 then 1 else if off = 0x110 then 0x1000040
  else if off = 0x118 then 0x40 else if off = 0x130 then 0x10 else if off = 0x140 then 0x4418
  else if off = 0x418 then 0xC else if off = 0x420 then 1 else if off = 0x430 then 0x1009C40400F
  else if off = 0x440 then 8 else if off = 0x450 then 0x300
  else if off = 0x800 then 0xA03E80064
  else if inArray off 0x3000 8 64 then 0x77 else 0

/-- Reset value of a register of the interrupt region (17 R565). -/
def resetIrq (off : Nat) : Word :=
  if inArray off 0x10000 8 256 then
    match irqSenseReset ((off - 0x10000) / 8) with
    | some v => 0xF0 + BitVec.ofNat 64 v
    | none => 0
  else if inArray off 0x10800 8 4 then 0xFFFFFFFFFFFFFFFF
  else if inArray off 0x10C30 0x40 8 then 0xF
  else 0

/-- Reset value of a register of the fault region (17 R566). -/
def resetFault (off : Nat) : Word :=
  if inArray off 0x20000 8 128 then fltSevReset ((off - 0x20000) / 8)
  else if off = 0x20400 then 0x1A03E8 else if off = 0x20440 then 0x30002 else if off = 0x20600 then 0xC8040A14
  else if off = 0x20808 then 0x7FE0
  else 0

/-- Reset value of a register of the power region (17 R567). -/
def resetPower (off : Nat) : Word :=
  if off = 0x30020 then 0x3E8 else if off = 0x30030 then 0x100
  else if inArray off 0x30400 8 16 then 0x7000 + BitVec.ofNat 64 ((off - 0x30400) / 8 * 0x100)
  else 0

/-- Reset value of a register of the counter region (17 R568). -/
def resetCounter (off : Nat) : Word :=
  if off = 0x42200 then 0x7D0 else if off = 0x43000 then 4 else if off = 0x43010 then 4
  else if inArray off 0x43100 0x10 18 then 0x30000000000 else if inArray off 0x43108 0x10 18 then 0x30000000000000
  else if 0x44000 ≤ off ∧ off < 0x44000 + 6 * 0x200 then
    let e := (off - 0x44000) / 0x200
    let l := (off - 0x44000) % 0x200
    if l = 0 then (if e = 3 ∨ e = 4 then 1 else 0) else if inArray l 0x100 0x10 16 then 0x16 else 0
  else 0

/-- Reset value of a register of the port and slice regions (17 R569, R570). -/
def resetUnit (off : Nat) : Word :=
  let l := off % 0x10000
  if 0x80000 ≤ off ∧ off < 0xE0000 then
    if l = 0 then 6 else if l = 0x18 then 0x10004140A10
    else if l = 0x20 ∨ l = 0x28 ∨ l = 0x30 ∨ l = 0x38 then 0x1FFFFFFFFFFF else 0
  else if 0x100000 ≤ off ∧ off < 0x220000 then
    if l = 0xA00 then 0x10 else if l = 0xA30 then 0x6410258 else 0
  else 0

/-- Reset value of the register stored at an offset (17 R564 to R570), 0 where no table names it. -/
def resetOf (off : Nat) : Word :=
  if off < 0x10000 then resetGlobal off
  else if off < 0x20000 then resetIrq off
  else if off < 0x30000 then resetFault off
  else if off < 0x40000 then resetPower off
  else if off < 0x50000 then resetCounter off
  else resetUnit off

/-- A stored configuration register: the last value written, or its reset value (00 R13). -/
def Core.reg (s : Core) (off : Nat) : Word := mget (resetOf off) s.regs off

/-- Set a stored register. -/
def Core.setReg (off : Nat) (w : Word) (s : Core) : Core :=
  { s with regs := if w = resetOf off then merase s.regs off else mput s.regs off w }

end Sys2Proof.Machine
end

