-- ==== Sys2Proof/Machine/FaultLog.lean ====
section
/-!
DEFINITION. Sys2Proof/Machine/FaultLog.lean: reporting an error event: its severity, its log entry and its place in the report queue or a
coalescing window (11 R363, R364, R369 to R372).
-/
namespace Sys2Proof.Machine

/-- Severity in force for a source (11 R363): an action that does not apply to the unit is handled as URGENT (11 R364). -/
def Core.severityOf (s : Core) (src : Nat) : Nat :=
  let v := bits (s.reg (0x20000 + src / 16 * 8)) (3 * (src % 16) + 2) (3 * (src % 16))
  let u := unitOf (src / 32) (src % 32)
  if (v = 4 && u != .slice) || (v = 5 && !(u = .culvert || u = .fabric || u = .memory)) || (v = 6 && u != .agent) then 3 else v

/-- Whether an event of a source is counted into an open window (11 R371). -/
def Core.coalesced (s : Core) (src : Nat) : Bool := bit (s.reg 0x20400) 20 && s.flt.windows.any (fun w => w.src = src)

/-- The sequence number the next event of a source takes, if it is to be logged (11 R370): not at IGNORE, not counted into
an open window, and with room in the report queue. -/
def Core.seqFor (s : Core) (src : Nat) : Option (BitVec 32) :=
  if s.severityOf src = 0 || s.coalesced src || 64 ≤ s.flt.queue.length then none else some (s.flt.seq)

/-- Entry kinds (11 R369). -/
def kindEvent : Nat := 0
def kindEscalation : Nat := 1
def kindRepeat : Nat := 2
def kindLoss : Nat := 3

/-- A log entry (11 R369). -/
def mkEntry (seq : BitVec 32) (tb src sev kind repeats : Nat) (xdata : BitVec 24) (line : LineAddr) (agent : AgentId) (data : BitVec 64) :
    BitVec 256 :=
  data ++ (0 : BitVec 4) ++ agent ++ line ++ xdata ++ BitVec.ofNat 8 repeats ++ BitVec.ofNat 2 kind ++ BitVec.ofNat 3 sev ++
    BitVec.ofNat 11 src ++ BitVec.ofNat 48 tb ++ seq

/-- DATA of an entry whose content the spec leaves to Molnal's tools: a free value. -/
def Core.freeData (s : Core) : BitVec 64 × Core := (Config.freeWord s.freeCtr, { s with freeCtr := s.freeCtr + 1 })

/-- Whether R369 gives the DATA of a source's event entries. -/
def dataGiven (src : Nat) : Bool := [famAgentDead, famInstSilent, famFailover, famNoSpare].contains (src / 32)

/-- Log an event (11 R370 to R372): counted into its source's window, lost with its bit in FLT_MISSED when the queue is full, or queued under
the next sequence number, which opens a window. -/
def Core.logEvent (e : FltEvent) (s : Core) : Core :=
  let sev := s.severityOf e.src
  if sev = 0 then s
  else if s.coalesced e.src then
    let up (w : CoalWin) : CoalWin := { w with count := w.count + 1, sev := Nat.max w.sev sev }
    { s with flt := { s.flt with windows := updateWhere (fun w => w.src = e.src) up s.flt.windows } }
  else if 64 ≤ s.flt.queue.length then
    let k := e.src / 64
    { s with flt := { s.flt with missed := mset 0 s.flt.missed k (setBit (mget 0 s.flt.missed k) (e.src % 64)) } }
  else
    let (d, s) := if dataGiven e.src then (e.data, s) else s.freeData
    let entry := mkEntry s.flt.seq s.tb e.src sev kindEvent 0 e.xdata e.line e.agent d
    let open? := bit (s.reg 0x20400) 20 && decide (s.flt.windows.length < 32)
    { s with flt := { s.flt with
        seq := s.flt.seq + 1
        queue := s.flt.queue ++ [entry]
        windows := if open? then s.flt.windows ++ [⟨e.src, s.tb, 0, 0⟩] else s.flt.windows } }

/-- Report an event (11 R363, R370): it is logged, and its other effects follow in the same step. A source whose index its family does not
use reports nothing (11 R361). -/
def Core.raiseEv (e : FltEvent) (s : Core) : Core :=
  if famUses (e.src / 32) (e.src % 32) then
    let s := s.logEvent e
    { s with flt := { s.flt with raised := s.flt.raised ++ [e] } }
  else s

/-- Report an event with a line and an agent. -/
def Core.raiseAt (fam idx : Nat) (line : LineAddr) (agent : AgentId) (s : Core) : Core :=
  s.raiseEv ⟨32 * fam + idx, line, agent, 0, 0, none⟩

/-- Report an event without detail. -/
def Core.raise (fam idx : Nat) (s : Core) : Core := s.raiseEv (FltEvent.plain (32 * fam + idx))

end Sys2Proof.Machine
end

