-- ==== Sys2Proof/Machine/Addr.lean ====
section
/-!
DEFINITION. Sys2Proof/Machine/Addr.lean: addresses, homing and where the Larder lives (02): the range table, home and
home offset, memory port, slice hash, logical and physical slice, Sieve sets and tags, and the placement of records.
-/
namespace Sys2Proof.Machine

/-- An entry of the memory range table (02 R57). -/
structure Range where
  valid : Bool
  base : Nat
  last : Nat
  /-- log2 of W. -/
  ways : Nat
  wayInst : List (BitVec 6)
  gran : Nat
  ports : Nat
  resv : Bool
  deriving DecidableEq, Repr

/-- Range table entry n (02 R57). -/
def Core.range (s : Core) (n : Nat) : Range :=
  let a := s.reg (offMrtA n)
  let b := s.reg (offMrtB n)
  { valid := bit a 63, base := bits a 25 0, last := bits a 57 32, ways := bits b 49 48,
    wayInst := (List.range 8).map (fun k => b.extractLsb' (6 * k) 6),
    gran := bits b 51 50, ports := bits b 55 52, resv := bit b 56 }

/-- The valid entries, in entry order. -/
def Core.ranges (s : Core) : List Range := ((List.range 64).map s.range).filter (fun e => e.valid)

/-- log2 of the interleave granule (02 R59). -/
def lgran (g : Nat) : Nat := if g = 0 then 12 else if g = 1 then 16 else if g = 2 then 20 else 30

/-- This instance's number (02 R73). -/
def Core.self (s : Core) : BitVec 6 := (s.reg offInstId).extractLsb' 0 6

/-- Whether an entry covers an address. -/
def Range.covers (e : Range) (pa : Nat) : Bool := e.base ≤ pa / 2 ^ 30 && pa / 2 ^ 30 ≤ e.last

/-- The home an entry gives an address (02 R58). -/
def Range.homeOf (e : Range) (pa : Nat) : BitVec 6 :=
  let off := pa - e.base * 2 ^ 30
  let way := if e.ways = 0 then 0 else (off >>> lgran e.gran) % 2 ^ e.ways
  e.wayInst.getD way 0

/-- Whether an entry lists an instance among its ways. -/
def Range.lists (e : Range) (i : BitVec 6) : Bool := (e.wayInst.take (2 ^ e.ways)).contains i

/-- The coherent entry that covers an address (02 R58, R61). -/
def Core.rangeOf (s : Core) (pa : Nat) : Option Range := s.ranges.find? (fun e => !e.resv && e.covers pa)

/-- The home instance of a line, if it has one (02 R58, R61). -/
def Core.homeOf (s : Core) (x : LineAddr) : Option (BitVec 6) :=
  (s.rangeOf (linePa x).toNat).map (fun e => e.homeOf (linePa x).toNat)

/-- Whether this instance homes a line. -/
def Core.homesHere (s : Core) (x : LineAddr) : Bool := s.homeOf x = some s.self

/-- An instance's share of an entry, in bytes (02 R59). -/
def Range.share (e : Range) : Nat := ((e.last + 1 - e.base) * 2 ^ 30) >>> e.ways

/-- The home offset of an address over the entries left, from a running offset (02 R59). -/
def homeOffsetAux (self : BitVec 6) (pa : Nat) : List Range → Nat → Option Nat
  | [], _ => none
  | e :: l, ho =>
    if e.resv || !e.lists self then homeOffsetAux self pa l ho
    else if e.covers pa then
      let off := pa - e.base * 2 ^ 30
      let lg := if e.ways = 0 then 0 else lgran e.gran
      some (ho + ((off >>> (lg + e.ways)) <<< lg) + off % 2 ^ lg)
    else homeOffsetAux self pa l (ho + e.share)

/-- The home offset (02 R59). -/
def Core.homeOffset (s : Core) (pa : Nat) : Option Nat := homeOffsetAux s.self pa s.ranges 0

/-- The coherent homed size M (02 R59). -/
def Core.homedSize (s : Core) : Nat :=
  (s.ranges.filter (fun e => !e.resv && e.lists s.self)).foldl (fun a e => a + e.share) 0

/-- The address at a home offset: the inverse of R59, entry by entry. -/
def homeInvAux (self : BitVec 6) : List Range → Nat → Option Nat
  | [], _ => none
  | e :: l, ho =>
    if e.resv || !e.lists self then homeInvAux self l ho
    else if ho < e.share then
      let lg := if e.ways = 0 then 0 else lgran e.gran
      let way := ((e.wayInst.take (2 ^ e.ways)).idxOf self)
      some (e.base * 2 ^ 30 + (((ho >>> lg) <<< (lg + e.ways)) + (way <<< lg) + ho % 2 ^ lg))
    else homeInvAux self l (ho - e.share)

/-- The line at a home offset. -/
def Core.lineAtOffset (s : Core) (ho : Nat) : LineAddr :=
  match homeInvAux s.self s.ranges ho with
  | some pa => BitVec.ofNat 48 (pa / 256)
  | none => 0

/-- The memory port PORTS selects for an address (02 R60). -/
def portOf (ports pa : Nat) : Nat :=
  match (List.range 4).filter (fun i => ports.testBit i) with
  | [a] => a
  | [a, b] => if pa.testBit 8 then b else a
  | _ => (pa >>> 8) % 4

/-- The memory port of an address, by the entry that covers it, reserved entries included (02 R60). -/
def Core.memPort (s : Core) (pa : Nat) : Nat :=
  match s.ranges.find? (fun e => e.covers pa) with
  | some e => portOf e.ports pa
  | none => 0

/-- The slice hash H (02 R65). -/
def sliceHash (x : LineAddr) : BitVec 4 :=
  (List.range 12).foldl (fun h k => h ^^^ x.extractLsb' (4 * k) 4) 0

/-- The logical slice of a hash under TRIM (02 R66). -/
def logicalOf (trim : Nat) (h : BitVec 4) : Nat :=
  if trim = 1 then h.toNat % 8 else if trim = 2 then h.toNat % 4 else h.toNat

/-- The physical slice of a hash, 0x1F when unmapped (02 R67, R68). -/
def Core.physOf (s : Core) (h : BitVec 4) : Nat := mget 0x1F s.host.remap (logicalOf s.host.trim h)

/-- The physical slice of a line. -/
def Core.physOfLine (s : Core) (x : LineAddr) : Nat := s.physOf (sliceHash x)

/-- Home Sieve set and tag of a home offset (05 R152). -/
def hsIndex (ho : Nat) : Nat × BitVec 23 :=
  let u := ho >>> 8
  let low := u % 16
  let set := ((u >>> 4) % 2048) ^^^ (low <<< 7)
  (set, BitVec.ofNat 23 (((u >>> 15) <<< 4) + low))

/-- The line index u of a Home Sieve set and tag (05 R152). -/
def hsLineIndex (set : Nat) (tag : BitVec 23) : Nat :=
  let low := tag.toNat % 16
  ((tag.toNat >>> 4) <<< 15) + ((set ^^^ (low <<< 7)) <<< 4) + low

/-- Local Sieve set of a line (05 R158). -/
def lsSet (x : LineAddr) : Nat :=
  let n := Config.lsLog2Sets
  ((x.toNat >>> 4) % 2 ^ n) ^^^ ((x.toNat % 16) <<< (n - 4))

/-- Tag of a Local Sieve entry (05 R158). -/
def lsTag (x : LineAddr) : BitVec 38 :=
  BitVec.ofNat 38 (((x.toNat >>> (Config.lsLog2Sets + 4)) <<< 4) + x.toNat % 16)

/-- Larder page of a home offset, and the record's place in it (02 R70). -/
def pageOf (ho : Nat) : Nat × BitVec 7 := (ho >>> 15, BitVec.ofNat 7 (ho >>> 8))

/-- PA of the start of the Larder region (02 R71). -/
def Core.larderBase (s : Core) : Nat := bits (s.reg offLarderBase) 55 20 * 2 ^ 20
/-- PA of line k (0 to 3) of a Larder page (02 R70). -/
def Core.pageLine (s : Core) (page k : Nat) : LineAddr := BitVec.ofNat 48 ((s.larderBase + page * 1024 + k * 256) / 256)
/-- PA of a page's check slot (02 R70). -/
def Core.slotPa (s : Core) (page : Nat) : Nat := s.larderBase + s.homedSize / 32 + page * 64

/-- PA of bucket j across both halves of the Overflow Larder (02 R72). -/
def Core.bucketLine (s : Core) (j : Nat) : LineAddr :=
  BitVec.ofNat 48 ((bits (s.reg offOvfBase) 55 20 * 2 ^ 20 + j * 256) / 256)

/-- log2 of the buckets per half (02 R72); reset 0x0C. -/
def Core.ovfLog (s : Core) : Nat := bits (s.reg offOvfCtl) 4 0

/-- XOR of the b-bit groups of v, over k groups (05 R165). -/
def foldBits (v b : Nat) : Nat → Nat
  | 0 => 0
  | k + 1 => foldBits v b k ^^^ ((v >>> (k * b)) % 2 ^ b)

/-- The fold of R165 over a 48-bit value. -/
def ovfFold (v b : Nat) : Nat := if b = 0 then 0 else foldBits v b ((47 / b) + 1)
/-- Candidate bucket in half 0 (05 R165). -/
def ovfH0 (x : LineAddr) (b : Nat) : Nat := ovfFold x.toNat b
/-- Candidate bucket in half 1 (05 R165). -/
def ovfH1 (x : LineAddr) (b : Nat) : Nat := ovfFold (x + (x >>> 20) * 0x9E37#48).toNat b

/-- Both candidate buckets numbered across the halves (05 R165, R181). -/
def Core.candidates (s : Core) (x : LineAddr) : List Nat :=
  let b := s.ovfLog
  [ovfH0 x b, 2 ^ b + ovfH1 x b]

/-- Index of a line in the contention predictor (07 R228). -/
def predIndex (x : LineAddr) : Nat :=
  (x.extractLsb' 0 12 ^^^ x.extractLsb' 12 12 ^^^ x.extractLsb' 24 12 ^^^ x.extractLsb' 36 12 : BitVec 12).toNat

/-- The next line above x in the next 4 KiB block with slice hash h (07 R243). -/
def sliceNext (x : LineAddr) (h : BitVec 4) : LineAddr :=
  let blk : BitVec 44 := x.extractLsb' 4 44 + 1
  let up : BitVec 4 := (List.range 11).foldl (fun a k => a ^^^ blk.extractLsb' (4 * k) 4) 0
  blk ++ (h ^^^ up)

/-- Whether a line is tainted: one of its candidate buckets is in the taint list, or on a sealed memory port (05 R168, 11
R399). -/
def Core.tainted (s : Core) (x : LineAddr) : Bool :=
  (s.candidates x).any (fun j =>
    s.eng.taints.contains j || s.flt.sealMem.getLsbD (s.memPort (linePa (s.bucketLine j)).toNat))

/-- Whether a line's logical slice is in open mode (05 R169). -/
def Core.openMode (s : Core) (x : LineAddr) : Bool :=
  s.eng.lsOpen.getLsbD (logicalOf s.host.trim (sliceHash x))

end Sys2Proof.Machine
end

