-- ==== Sys2Proof/Machine/Send.lean ====
section
/-!
DEFINITION. Sys2Proof/Machine/Send.lean: what leaves the host port: messages to agents under fabric credits (18 R579),
data over the Wharf (06 R204), messages to other instances, credit returns (06 R192, R193), and freeing a berth entry.
-/
namespace Sys2Proof.Machine

/-- AGENT_CFG(l).DEFINED (02 R74). -/
def Core.defined (s : Core) (l : BitVec 6) : Bool := bit (s.reg (offAgentCfg l.toNat)) 0
/-- AGENT_CFG(l).FPORT (02 R74). -/
def Core.fport (s : Core) (l : BitVec 6) : Nat := bits (s.reg (offAgentCfg l.toNat)) 3 2

/-- The charter's instance table (12 R425). -/
def Core.members (s : Core) : List (BitVec 6) := (setBits (s.reg 0x600) 64).map (fun i => BitVec.ofNat 6 i)

/-- Lane of an agent in the charter's agent table (12 R425): LISTED, IO, ADMITTED. -/
def Core.agentLane (s : Core) (a : AgentId) : Nat :=
  let w := s.reg (0x4000 + a.toNat / 16 * 8)
  bits w (4 * (a.toNat % 16) + 3) (4 * (a.toNat % 16))
/-- LISTED. -/
def Core.listed (s : Core) (a : AgentId) : Bool := (s.agentLane a).testBit 0
/-- A listed I/O agent (01 R29, 12 R425). -/
def Core.isIo (s : Core) (a : AgentId) : Bool := (s.agentLane a).testBit 0 && (s.agentLane a).testBit 1
/-- ADMITTED. -/
def Core.admitted (s : Core) (a : AgentId) : Bool := (s.agentLane a).testBit 2

/-- Tombstone of an agent ID (11 R397). -/
def Core.tombed (s : Core) (a : AgentId) : Bool :=
  (mget 0 s.host.tomb (agentInst a).toNat).getLsbD (agentLocal a).toNat

/-- Whether an agent is present (01 R31): a local agent by its sideband bit, a remote one by the charter and the
tombstones. A tombstoned agent's presence is cleared (11 R394). -/
def Core.isPresent (s : Core) (a : AgentId) : Bool :=
  if s.tombed a then false
  else if agentInst a = s.self then s.host.present.getLsbD (agentLocal a).toNat
  else s.admitted a

/-- The replay epoch in force for the logical slice of a line (11 R385). -/
def Core.epochOf (s : Core) (x : LineAddr) : BitVec 4 :=
  mget 0 s.host.epochs (logicalOf s.host.trim (sliceHash x))

/-- A fabric port's egress. -/
def Core.fabp (s : Core) (f : Nat) : FabPort := mget FabPort.reset s.fab f
/-- Update a fabric port's egress. -/
def Core.onFab (f : Nat) (g : FabPort → FabPort) (s : Core) : Core :=
  { s with fab := mset FabPort.reset s.fab f (g (s.fabp f)) }

/-- Whether a fabric port may send: it is not sealed (11 R399) and the block is not sealed. -/
def Core.fabOpen (s : Core) (f : Nat) : Bool := !s.flt.sealFab.getLsbD f && s.block != .sealed_

/-- Whether a data message of a transaction still waits at the Wharf or at a fabric port (04 R117). -/
def Core.dataWaits (s : Core) (agent : AgentId) (tag : Tag) : Bool :=
  s.wharf.xfers.any (fun x => match x.act with
    | .fabric _ m => m.h.agent = agent && m.h.tag = tag
    | _ => false) ||
  s.fab.any (fun e => e.2.datQ.any (fun m => m.h.agent = agent && m.h.tag = tag))

/-- Whether data or a completion for the agent that a snoop names, of the snoop's line, still waits at the Wharf or at a fabric port: the
snoop goes behind it, so that the agent answers from the state it has been granted (04 R117, 06 R209, R212, R213). -/
def Core.grantWaits (s : Core) (n : Msg) : Bool :=
  let mine (m : Msg) : Bool := m.h.agent = n.h.peer && m.h.line = n.h.line
  s.wharf.xfers.any (fun x => match x.act with
    | .fabric _ m => mine m
    | _ => false) ||
  s.fab.any (fun e => e.2.datQ.any mine || e.2.cmpQ.any mine)

/-- Give the Wharf a transfer (06 R204). After a grant to its source, the source presents its next only behind the transfers that were
presented to the destination then. -/
def Core.present (src dst : Nat) (stamp : Stamp) (act : XferTo) (s : Core) : Core :=
  let (i, s) := s.fresh
  { s with wharf := { s.wharf with xfers := s.wharf.xfers ++ [⟨i, src, dst, stamp, act⟩] } }

/-- The Wharf endpoint of a memory port, of a Culvert port and of a slice's Skillet (01 R42). -/
def epMem (m : Nat) : Nat := 4 + m
def epCul (n : Nat) : Nat := 8 + n
def epSkl (p : Nat) : Nat := 14 + p

/-- Present data for a local agent at its fabric endpoint (01 R42). -/
def Core.presentAgent (src : Nat) (stamp : Stamp) (m : Msg) (s : Core) : Core :=
  let f := s.fport (agentLocal m.h.agent)
  s.present src f stamp (.fabric f m)

/-- Hand a message to the Culvert transmit side, to be routed by DSTI (09 R295). -/
def Core.sendChip (m : Msg) (s : Core) : Core := { s with toSend := s.toSend ++ [culOwn m] }

/-- The same for a data message: its line crosses the Wharf from an endpoint to its Culvert port first (01 R42, R43). -/
def Core.sendChipData (src : Nat) (stamp : Stamp) (m : Msg) (behind : List Msg) (s : Core) : Core :=
  { s with toSend := s.toSend ++ [culCross src stamp m behind] }

/-- A message leaves the slice that serves its line: the Logbook may record it (16 R541). -/
def Core.leaves (m : Msg) (s : Core) : Core := { s with up := s.up ++ [Up.released m] }

/-- Hand a task to another unit within the step. -/
def Core.task (t : Task) (s : Core) : Core := { s with todo := s.todo ++ [t] }

/-- Send a message to an instance: this one by the internal path, another by the Culvert. -/
def Core.sendInst (i : BitVec 6) (m : Msg) (s : Core) : Core :=
  let m := { m with h := { m.h with srci := s.self, dsti := i } }
  if i = s.self then s.task (.internal m) else s.sendChip m

/-- Credits towards an instance (06 R193, R194). -/
def Core.creditsTo (s : Core) (i : BitVec 6) : InstCredits := mget InstCredits.none s.host.credits i.toNat
/-- Update credits towards an instance. -/
def Core.onCredits (i : BitVec 6) (f : InstCredits → InstCredits) (s : Core) : Core :=
  s.onHost (fun h => { h with credits := mset InstCredits.none h.credits i.toNat (f (mget InstCredits.none h.credits i.toNat)) })

/-- A CREDIT control message from an instance to another (09 R299): kind 0 mooring, 1 header, 2 data, 3 snoop. -/
def creditMsg (self i : BitVec 6) (kind : Nat) (agent : AgentId) (param : Nat) : Msg :=
  let h : Hdr := { Hdr.zero with agent := agent, srci := self, dsti := i }
  ⟨0xC0, { h with hint := BitVec.ofNat 4 kind, param := BitVec.ofNat 16 param }, none⟩

/-- Send a CREDIT control message. -/
def Core.sendCredit (i : BitVec 6) (kind : Nat) (agent : AgentId) (param : Nat) (s : Core) : Core :=
  s.sendChip (creditMsg s.self i kind agent param)

/-- A grant on a fabric port's credit signals (18 R580). A sealed port returns no credit (11 R399). -/
def Core.grantFab (f kind agent cls cnt : Nat) (s : Core) : Core :=
  if s.fabOpen f then s.emit (.credit f kind agent cls cnt) else s

/-- Return the header credit of a request that frees its entry (06 R192, R193). -/
def Core.returnHeader (b : Berth) (s : Core) : Core :=
  if b.own && agentInst b.h.agent = s.self then s
  else if agentInst b.h.agent = s.self then
    match b.port with
    | some f => if b.pool then s.grantFab f.val 1 0 0 1
                else s.grantFab (s.fport (agentLocal b.h.agent)) 0 (agentLocal b.h.agent).toNat (classOf b.op) 0
    | none => s
  else if b.pool then s.sendCredit (agentInst b.h.agent) 1 0 1
  else s.sendCredit (agentInst b.h.agent) 0 b.h.agent (classOf b.op)

/-- Whether a request's data sits in a pool data slot, and not in a WB mooring (06 R188). -/
def Berth.poolData (b : Berth) : Bool := carriesData b.op && !(b.op = opWbD && !b.pool)

/-- Return the pool data credit of a request that frees its slot. -/
def Core.returnData (b : Berth) (s : Core) : Core :=
  if !b.poolData then s
  else if agentInst b.h.agent = s.self then
    match b.port with
    | some f => if b.own then s else s.grantFab f.val 2 0 0 1
    | none => s
  else s.sendCredit (agentInst b.h.agent) 2 0 1

/-- Free a berth entry and its slot, and return its credits. -/
def Core.freeBerth (id : Nat) (s : Core) : Core :=
  match s.berth? id with
  | none => s
  | some b =>
    let s := s.onHost (fun h => { h with berths := h.berths.filter (fun c => c.id != id) })
    (s.returnHeader b).returnData b

/-- A berth entry that nothing but a completion's delivery may keep ends: it is freed at once, or with that delivery (01 R45). -/
def Core.endEntry (id : Nat) (s : Core) : Core :=
  match s.berth? id with
  | none => s
  | some b => if b.cmpWait then s.onBerth id (fun b => { b with ended := true }) else s.freeBerth id

/-- A completion has been delivered on the fabric: its berth entry is freed, unless its data still awaits memory (01 R45, 04 R132). -/
def Core.cmpLeft (m : Msg) (s : Core) : Core :=
  match s.host.berths.find? (fun b => b.cmpWait && !b.own && b.h.agent = m.h.agent && b.h.tag = m.h.tag) with
  | none => s
  | some b => if b.ended then s.freeBerth b.id else s.onBerth b.id (fun b => { b with cmpWait := false })

/-- Send waiting messages of a channel while credits last (18 R579). -/
def flushSnp : List Msg → Nat → List Msg × Nat × List Msg
  | m :: l, c + 1 => let r := flushSnp l c; (r.1, r.2.1, m :: r.2.2)
  | l, c => (l, c, [])

/-- Send the data a fabric port holds, while it has credits, then the completions whose data has left, then the snoops that need wait for
neither (04 R117, 18 R579). -/
def Core.flushFab (f : Nat) (s : Core) : Core :=
  if !s.fabOpen f then s else
  let da := flushSnp (s.fabp f).datQ (s.fabp f).datCrd
  let s := s.onFab f (fun p => { p with datQ := da.1, datCrd := da.2.1 })
  let s := foldS (fun m => Core.emit (.fabric f m)) da.2.2 s
  let s := s.bump (unitFab f) 0x113
    ((da.2.2.map (fun m => match m.beats with | some b => if b.one then 1 else 2 | none => 0)).foldl (· + ·) 0)
  let go := (s.fabp f).cmpQ.filter (fun m => !s.dataWaits m.h.agent m.h.tag)
  let rest := (s.fabp f).cmpQ.filter (fun m => s.dataWaits m.h.agent m.h.tag)
  let cm := flushSnp go (s.fabp f).cmpCrd
  let s := s.onFab f (fun p => { p with cmpQ := cm.1 ++ rest, cmpCrd := cm.2.1 })
  let s := foldS (fun m s => (s.emit (.fabric f m)).cmpLeft m) cm.2.2 s
  let free := (s.fabp f).snpQ.filter (fun m => !s.grantWaits m)
  let held := (s.fabp f).snpQ.filter (fun m => s.grantWaits m)
  let sn := flushSnp free (s.fabp f).snpCrd
  let s := s.onFab f (fun p => { p with snpQ := sn.1 ++ held, snpCrd := sn.2.1 })
  (foldS (fun m => Core.emit (.fabric f m)) sn.2.2 s).bump (unitFab f) 0x111 sn.2.2.length

/-- Send a snoop to a local agent on its fabric port (02 R75). -/
def Core.sendSnp (l : BitVec 6) (m : Msg) (s : Core) : Core :=
  let f := s.fport l
  (s.onFab f (fun p => { p with snpQ := p.snpQ ++ [m] })).flushFab f

/-- Send a completion to a local agent: it leaves no earlier than its data (04 R117). -/
def Core.sendCmp (m : Msg) (s : Core) : Core :=
  let f := s.fport (agentLocal m.h.agent)
  (s.onFab f (fun p => { p with cmpQ := p.cmpQ ++ [m] })).flushFab f

/-- Pool header entries of a share in use: by port for a local agent, by instance for another (06 R188). -/
def Core.headersUsed (s : Core) (local? : Option (Fin 4)) (i : BitVec 6) : Nat :=
  (s.host.berths.filter (fun b => b.pool &&
    (match local? with
     | some f => decide (b.port = some f)
     | none => decide (agentInst b.h.agent = i) && decide (b.port = none)))).length

/-- Pool data slots of a share in use, early data included. -/
def Core.dataUsed (s : Core) (local? : Option (Fin 4)) (i : BitVec 6) : Nat :=
  (s.host.berths.filter (fun b => b.poolData && b.data.isSome &&
    (match local? with
     | some f => decide (b.port = some f)
     | none => decide (agentInst b.h.agent = i) && decide (b.port = none)))).length +
  (match local? with
   | some f => (s.host.early.filter (fun e => decide (e.port = f) && !(e.op = opDatM && !e.credit))).length
   | none => 0)

/-- Effective DATA_RESERVE (06 R191). -/
def Core.dataReserve (s : Core) : Nat := Nat.min 256 (Nat.max 16 (bits (s.reg offBerthCtl) 8 0))

/-- N, the members of the charter's instance table. -/
def Core.nMembers (s : Core) : Nat := s.members.length
/-- SHARE (06 R189). -/
def Core.share (s : Core) : Nat := 8192 / s.nMembers
/-- DATA_SHARE (06 R189). -/
def Core.dataShare (s : Core) : Nat := (512 - s.dataReserve) / s.nMembers

/-- Fabric ports that carry at least one DEFINED agent. -/
def Core.usedPorts (s : Core) : List Nat :=
  (List.range 4).filter (fun f => (List.range 64).any (fun l => s.defined (BitVec.ofNat 6 l) && s.fport (BitVec.ofNat 6 l) = f))

/-- A port's allotment of a share: an equal part, the remainder to the lowest-numbered such port (06 R192). -/
def Core.allot (s : Core) (total f : Nat) : Nat :=
  match s.usedPorts with
  | [] => 0
  | f0 :: l => if (f0 :: l).contains f then total / (l.length + 1) + (if f = f0 then total % (l.length + 1) else 0) else 0

/-- The own header share with its remainder (06 R189). -/
def Core.ownShare (s : Core) : Nat := s.share + (8192 - s.nMembers * s.share)
/-- The own data share with its remainder (06 R189). -/
def Core.ownDataShare (s : Core) : Nat := s.dataShare + ((512 - s.dataReserve) - s.nMembers * s.dataShare)

end Sys2Proof.Machine
end

