-- ==== Sys2Proof/Machine/MemPort.lean ====
section
/-!
DEFINITION. Sys2Proof/Machine/MemPort.lean: the memory ports: tags, reads and writes, one write of a line at a time (07
R242), posted completion (08 R262 to R268), and the returns of 18 R584.
-/
namespace Sys2Proof.Machine

/-- Whether a memory port is sealed (11 R399). -/
def Core.memSealed (s : Core) (m : Nat) : Bool := s.flt.sealMem.getLsbD m

/-- The lowest tag of a port that no outstanding command holds, of 1,024 (18 R584). -/
def Core.freeTag (s : Core) (m : Nat) : Option Nat :=
  (List.range 1024).find? (fun t =>
    !s.mem.reads.any (fun r => r.port = m && r.tag = some t) && !s.mem.writes.any (fun w => w.port = m && w.tag = some t))

/-- Posted completion is in force for a port: MEM_CFG.POSTED (08 R267). -/
def Core.postedOn (s : Core) (m : Nat) : Bool :=
  bit (s.reg (offMemCfg m)) 0 && decide (25 ≤ bits (s.reg offHoldup) 15 0) && !s.pf.hold

/-- MEM_CFG.PERSIST (08 R263). -/
def Core.persist (s : Core) (m : Nat) : Bool := bit (s.reg (offMemCfg m)) 1

/-- Hand the data of a read to its user. -/
def Core.giveRead (use : RFor) (d : LineData) (poison : Bool) (bad : BitVec 8) (s : Core) : Core :=
  match use with
  | .barge p id => s.task (.memData p id d poison)
  | .warm p idx id => s.task (.warmData p idx id d poison)
  | .larder page part => s.task (.pagePart page part d poison)
  | .overflow job b => s.task (.bucket job b d (if poison then 0xFF else bad))
  | .overlay part => { s with up := s.up ++ [.overlay part d poison] }

/-- Issue the reads of a port that wait for a tag. -/
def Core.issueRead (r : MRead) (s : Core) : Core :=
  match s.freeTag r.port with
  | none => { s with mem := { s.mem with reads := s.mem.reads ++ [r] } }
  | some t =>
    let s := { s with mem := { s.mem with reads := s.mem.reads ++ [{ r with tag := some t }] } }
    (s.emit (.memRead r.port t r.line)).bump (unitMem r.port) 0x120 1

/-- Whether a write carries a data slot's line. -/
def MWrite.slot (w : MWrite) : Bool :=
  match w.src with
  | .berth _ | .reserve => true
  | _ => false

/-- Whether a write carries a drip tray entry's line. -/
def MWrite.drips (w : MWrite) : Bool :=
  match w.src with
  | .drip _ _ => true
  | _ => false

/-- Bytes put over others: those of the second where its mask is 1. -/
def overlay (a : Option (LineData × LineMask)) (d : LineData) (m : LineMask) : LineData × LineMask :=
  match a with
  | some (e, k) => (mergeLine e d m, k ||| m)
  | none => (d, m)

/-- The bytes that writes from data slots hold of a line and memory has not accepted, the latest uppermost (06 R208). -/
def Core.slotBytes (s : Core) (x : LineAddr) : Option (LineData × LineMask) :=
  (s.mem.writes.filter (fun w => w.line = x && w.slot)).foldl (fun a w => some (overlay a w.data w.mask)) none

/-- Read a line through the port R60 selects: bytes that data slots still hold lie over what memory returns (06 R207, R208). A read on a
sealed port returns poisoned zeros at once (11 R399). -/
def Core.readLine (x : LineAddr) (use : RFor) (s : Core) : Core :=
  let m := s.memPort (linePa x).toNat
  if s.memSealed m then s.giveRead use 0 true 0xFF
  else s.issueRead { port := m, tag := none, line := x, use := use, above := s.slotBytes x }

/-- The write as it stands at issue: a Skillet entry's present contents, whose merges are all carried (07 R242). -/
def Core.writeNow (s : Core) (w : MWrite) : MWrite × Core :=
  match w.src with
  | .skillet p i =>
    match mfind (s.slice p).skl i with
    | some e =>
      if e.line = w.line then
        ({ w with data := e.data, poison := e.poison },
          s.onSlice p (fun x => { x with skl := mput x.skl i { e with since := none } }))
      else (w, s)
    | none => (w, s)
  | _ => (w, s)

/-- Whether a write waits behind its port's guaranteed lines: in a drain they are written first, but not ahead of an earlier write of the same
line (08 R271). -/
def Core.drainHolds (s : Core) (w : MWrite) : Bool :=
  (s.pf.hold || s.block = .sealed_) && !w.drain &&
    (s.block = .sealed_ || s.mem.writes.any (fun v => v.port = w.port && s.pf.left.contains v.id)) &&
    !(s.mem.writes.dropWhile (fun v => v.id != w.id)).any (fun v => v.line = w.line && s.pf.left.contains v.id)

/-- Issue a queued write if its line has crossed, no earlier write of its line is outstanding and a tag is free (07 R242). -/
def Core.issueWrite (id : Nat) (s : Core) : Core :=
  match s.mem.writes.find? (fun w => w.id = id) with
  | none => s
  | some w =>
    if w.tag.isSome || !w.crossed || s.drainHolds w then s
    else if (s.mem.writes.takeWhile (fun v => v.id != id)).any (fun v => v.line = w.line) then s
    else match s.freeTag w.port with
      | none => s
      | some t =>
        let (w, s) := s.writeNow w
        let w := { w with tag := some t }
        let s := { s with mem := { s.mem with writes := updateWhere (fun v => v.id = id) (fun _ => w) s.mem.writes } }
        (s.emit (.memWrite w.port t w.line w.data w.mask w.poison)).bump (unitMem w.port)
          (if w.mask = fullMask then 0x121 else 0x122) 1

/-- The order in which waiting writes are issued: as they were queued, and in a drain by their stamps, the guaranteed lines first (08 R271). -/
def Core.issueOrder (s : Core) : List MWrite :=
  if s.pf.left.isEmpty && s.pf.rest.isEmpty then s.mem.writes
  else
    let byStamp (l : List MWrite) : List MWrite := sortBy (fun a b => decide (age s.host.tick b.stamp ≤ age s.host.tick a.stamp)) l
    byStamp (s.mem.writes.filter (fun w => s.pf.left.contains w.id)) ++ byStamp (s.mem.writes.filter (fun w => !s.pf.left.contains w.id))

/-- Issue every write that may be issued, oldest first. -/
def Core.issueWrites (s : Core) : Core := foldS (fun (w : MWrite) => Core.issueWrite w.id) s.issueOrder s

/-- Issue the reads that wait for a tag. -/
def Core.issueReads (s : Core) : Core :=
  let wait := s.mem.reads.filter (fun r => r.tag.isNone)
  foldS Core.issueRead wait { s with mem := { s.mem with reads := s.mem.reads.filter (fun r => r.tag.isSome) } }

/-- Queue a memory write of a line. Its line crosses the Wharf from an endpoint to its memory port, or is an engine's own, which is issued
if it may go (01 R43). On a sealed port it is discarded (11 R399). Answers the write's name. -/
def Core.queueWrite (line : LineAddr) (data : LineData) (mask : LineMask) (poison : Bool) (src : WSrc) (stamp : Stamp)
    (posted : Bool) (frees : Option Nat) (waiter : Option (Nat × Nat)) (ep : Option Nat) (s : Core) : Nat × Core :=
  let (i, s) := s.fresh
  let m := s.memPort (linePa line).toNat
  let w : MWrite :=
    { id := i, line := line, data := data, mask := mask, poison := poison, src := src, stamp := stamp, posted := posted, frees := frees,
      waiter := waiter, port := m, tag := none, drain := false, wack := false, crossed := ep.isNone }
  if s.memSealed m then (i, (s.task (.place w)).task (.written w))
  else
    let s := { s with mem := { s.mem with writes := s.mem.writes ++ [w] } }
    match ep with
    | some e => (i, s.present e (epMem m) stamp (.memory i))
    | none => (i, s.issueWrite i)

/-- The line of a write has crossed the Wharf. -/
def Core.writeCrossed (i : Nat) (s : Core) : Core :=
  ({ s with mem := { s.mem with writes := updateWhere (fun w => w.id = i) (fun w => { w with crossed := true }) s.mem.writes } }).issueWrite i

/-- The draining Skillet entry a write carries, if it does (07 R238). -/
def Core.drains (s : Core) (w : MWrite) : Bool :=
  match w.src with
  | .skillet p i => match mfind (s.slice p).skl i with
    | some e => e.draining && e.line = w.line
    | none => false
  | _ => false

/-- The latest line that data slots, the drip tray or a draining Skillet entry hold and memory has not accepted, with the partial writes made
since over it: it serves every read of the line (06 R207, R208, 07 R246). -/
def Core.latestWrite (s : Core) (x : LineAddr) : Option MWrite :=
  (s.mem.writes.filter (fun w => w.line = x && (w.slot || w.drips || s.drains w))).foldl (fun (a : Option MWrite) w =>
    if w.mask = fullMask then some w else a.map (fun v => { v with data := mergeLine v.data w.data w.mask, src := w.src })) none

/-- Take a write off the table. -/
def Core.dropWrite (id : Nat) (s : Core) : Core :=
  { s with
    mem := { s.mem with writes := s.mem.writes.filter (fun w => w.id != id) }
    wharf := { s.wharf with xfers := s.wharf.xfers.filter (fun x => x.act != .memory id) } }

/-- A write has been accepted: take it off, let the next write of its line go, and hand it on (08 R262). -/
def Core.acceptWrite (w : MWrite) (s : Core) : Core := (((s.dropWrite w.id).issueWrites.issueReads).task (.place w)).task (.written w)

/-- A read returns (18 R584), with the slots of an Overflow bucket that fail their ECC: its data goes to its user; an unknown tag is discarded with MEM_PROTO. -/
def Core.memReadReturn (m tag : Nat) (d : LineData) (poison : Bool) (bad : BitVec 8) (s : Core) : Core :=
  match s.mem.reads.find? (fun r => r.port = m && r.tag = some tag) with
  | none => s.raise famMemProto (unitMem m)
  | some r =>
    let s := { s with mem := { s.mem with reads := s.mem.reads.filter (fun q => !(q.port = m && q.tag = some tag)) } }
    let s := if poison then (s.bump (unitMem m) 0x124 1).raiseAt famMemPoison (unitMem m) r.line 0 else s
    let d := match r.above with
      | some (a, k) => mergeLine d a k
      | none => d
    (s.giveRead r.use d poison bad).issueReads.issueWrites

/-- A write acknowledgement returns (18 R584, 08 R262). A drain write counts as written at it on every port (08 R271). -/
def Core.memWackReturn (m tag : Nat) (err : Bool) (s : Core) : Core :=
  match s.mem.writes.find? (fun w => w.port = m && w.tag = some tag && !w.wack) with
  | none => s.raise famMemProto (unitMem m)
  | some w =>
    let s := if err then s.raiseAt famMemWrerr (unitMem m) w.line 0 else s
    if s.persist m then
      let done (v : MWrite) : MWrite :=
        if w.drain then { v with wack := true, src := .drained, posted := false, frees := none, waiter := none } else { v with wack := true }
      let ws := updateWhere (fun (v : MWrite) => v.id = w.id) done s.mem.writes
      let s := { s with mem := { s.mem with writes := ws } }
      if w.drain then (s.task (.place w)).task (.written w) else s
    else s.acceptWrite w

/-- A persistence acknowledgement returns (18 R584). -/
def Core.memPackReturn (m tag : Nat) (s : Core) : Core :=
  match s.mem.writes.find? (fun w => w.port = m && w.tag = some tag) with
  | none => s.raise famMemProto (unitMem m)
  | some w => if s.persist m then s.acceptWrite w else s.raise famMemProto (unitMem m)

end Sys2Proof.Machine
end

