-- ==== Sys2Proof/Machine/Plru.lean ====
section
/-!
DEFINITION. Sys2Proof/Machine/Plru.lean: the 15-bit tree pseudo-LRU of a Sieve set (05 R595).
-/
namespace Sys2Proof.Machine

/-- Point every bit on a way's path away from the half that holds the way. -/
def treeTouchAux : Nat → Nat → Nat → Nat → Nat → BitVec 15 → BitVec 15
  | 0, _, _, _, _, t => t
  | f + 1, way, lo, n, k, t =>
    let h := n / 2
    let upper := lo + h ≤ way
    treeTouchAux f way (if upper then lo + h else lo) h (2 * k + 1 + if upper then 1 else 0) (putBit t k (!upper))

/-- The tree after a hit, fill or recall of a way. -/
def treeTouch (t : BitVec 15) (way : Nat) : BitVec 15 := treeTouchAux 4 way 0 16 0 t

/-- Follow the tree, turning away from a half with no eligible way. -/
def treeVictimAux : Nat → Nat → Nat → Nat → BitVec 15 → List Nat → Nat
  | 0, lo, _, _, _, _ => lo
  | f + 1, lo, n, k, t, elig =>
    let h := n / 2
    let lower := elig.any (fun w => decide (lo ≤ w) && decide (w < lo + h))
    let upper := elig.any (fun w => decide (lo + h ≤ w) && decide (w < lo + n))
    let b0 := t.getLsbD k
    let b1 := if !b0 && !lower then true else b0
    let b := if b1 && !upper then false else b1
    treeVictimAux f (if b then lo + h else lo) h (2 * k + 1 + if b then 1 else 0) t elig

/-- The victim way: the lowest empty eligible way, else the way the tree gives; none when no way is eligible. -/
def treeVictim (t : BitVec 15) (elig valid : List Nat) : Option Nat :=
  match elig with
  | [] => none
  | _ =>
    match elig.filter (fun w => !valid.contains w) with
    | w :: l => some (l.foldl Nat.min w)
    | [] => some (treeVictimAux 4 0 16 0 t elig)

end Sys2Proof.Machine
end

