-- ==== Sys2Proof/Machine/Record.lean ====
section
/-!
DEFINITION. Sys2Proof/Machine/Record.lean: home records: their 64-bit form (05 R140, R141), the chips they list (03 R98,
R99), adding a chip, and the tidying of 03 R103.
-/
namespace Sys2Proof.Machine

/-- Insert a chip in an ascending pointer list, once. -/
def insertPtr (c : BitVec 6) : List (BitVec 6) → List (BitVec 6)
  | [] => [c]
  | d :: l => if c = d then d :: l else if c < d then c :: d :: l else d :: insertPtr c l

/-- Pair bit of a chip (03 R98). -/
def pairBit (c : BitVec 6) : Nat := c.toNat / 2

/-- The pair vector of a pointer list. -/
def pairsOf (l : List (BitVec 6)) : BitVec 32 := l.foldl (fun v c => setBit v (pairBit c)) 0

/-- Add a chip to the listed chips: a ninth pointer turns the record to pair vector mode (03 R98). -/
def Chips.add (c : BitVec 6) : Chips → Chips
  | .ptrs l => let l' := insertPtr c l; if l'.length ≤ 8 then .ptrs l' else .pairs (pairsOf l')
  | .pairs v => .pairs (setBit v (pairBit c))
  | .all => .all

/-- Whether a payload names a chip (03 R98); in all mode every instance of the table is named. -/
def Chips.lists (c : BitVec 6) : Chips → Bool
  | .ptrs l => l.contains c
  | .pairs v => v.getLsbD (pairBit c)
  | .all => true

/-- The chips a payload names, among the instances of the charter's table (03 R99). -/
def Chips.named (insts : List (BitVec 6)) : Chips → List (BitVec 6)
  | .ptrs l => l.filter (fun c => insts.contains c)
  | .pairs v => insts.filter (fun c => v.getLsbD (pairBit c))
  | .all => insts

/-- Whether no chip is listed. -/
def Chips.isEmpty : Chips → Bool
  | .ptrs l => l.isEmpty
  | .pairs v => v = 0
  | .all => false

/-- Whether a record in S, SF or X names a chip as holder. -/
def HomeRec.holds (r : HomeRec) (c : BitVec 6) : Bool :=
  match r.st with
  | .s | .sf => r.chips.lists c
  | .x => r.owner = c
  | _ => false

/-- The normal form in which a record is written: I, X, SUSPECT and POISON in pointer mode with no chip, OWNER 0 where
unused (05 R140). -/
def HomeRec.norm (r : HomeRec) : HomeRec :=
  match r.st with
  | .i => HomeRec.none
  | .s => { r with owner := 0 }
  | .sf => r
  | .x => { r with chips := .ptrs [] }
  | .suspect => ⟨.suspect, 0, .ptrs []⟩
  | .poison => ⟨.poison, 0, .ptrs []⟩

/-- The S or SF record after chips left it: I when none is listed (03 R103). -/
def HomeRec.shrink (r : HomeRec) : HomeRec :=
  match r.st with
  | .s | .sf => if r.chips.isEmpty then HomeRec.none else r
  | _ => r

/-- Tidy one chip d that answered with RESULT I (03 R103): `other` tells whether the other chip of its pair also answered
so in this transaction or is not in the instance table. -/
def HomeRec.tidy (r : HomeRec) (d : BitVec 6) (other : Bool) : HomeRec :=
  match r.st with
  | .s | .sf =>
    let chips := match r.chips with
      | .ptrs l => Chips.ptrs (l.filter (fun c => c != d))
      | .pairs v => if other then .pairs (clearBit v (pairBit d)) else .pairs v
      | .all => .all
    let st := if r.st = .sf ∧ r.owner = d then RecSt.s else r.st
    HomeRec.shrink ⟨st, if st = .sf then r.owner else 0, chips⟩
  | _ => r

/-- Codes of STATE (05 R140). -/
def RecSt.code : RecSt → Nat
  | .i => 0 | .s => 1 | .sf => 2 | .x => 3 | .suspect => 6 | .poison => 7

/-- Pack a pointer list at bit 16, six bits each. -/
def packPtrs : Nat → List (BitVec 6) → Nat
  | _, [] => 0
  | k, c :: l => (c.toNat <<< (16 + 6 * k)) + packPtrs (k + 1) l

/-- The 64-bit form of a record (05 R140). -/
def HomeRec.encode (r0 : HomeRec) : Word :=
  let r := r0.norm
  let body := match r.chips with
    | .ptrs l => (0 <<< 3) + (l.length <<< 11) + packPtrs 0 l
    | .pairs v => (1 <<< 3) + (v.toNat <<< 16)
    | .all => 2 <<< 3
  BitVec.ofNat 64 (r.st.code + (r.owner.toNat <<< 5) + body)

/-- Read a 64-bit record (05 R140). The Bool tells a record that R141 reads as SUSPECT with DIR_FORMAT. -/
def HomeRec.decode (w : Word) : HomeRec × Bool :=
  let st := (w.extractLsb' 0 3).toNat
  let mode := (w.extractLsb' 3 2).toNat
  let owner := w.extractLsb' 5 6
  let count := (w.extractLsb' 11 4).toNat
  let bad := st = 4 || st = 5 || mode = 3 || (mode = 0 && 8 < count)
  if bad then (⟨.suspect, 0, .ptrs []⟩, true) else
    let chips := if mode = 0 then
        Chips.ptrs (((List.range count).map (fun k => w.extractLsb' (16 + 6 * k) 6)).foldl (fun l c => insertPtr c l) [])
      else if mode = 1 then .pairs (w.extractLsb' 16 32) else .all
    let rs := if st = 0 then RecSt.i else if st = 1 then RecSt.s else if st = 2 then .sf else if st = 3 then .x
      else if st = 6 then .suspect else .poison
    (HomeRec.norm ⟨rs, owner, chips⟩, false)

/-- The S or SF record listing some chips, in the mode a rebuild writes: pointer for 1 to 8, pair vector for 9 to 32, all
for more (05 R177). -/
def chipsFor (l : List (BitVec 6)) : Chips :=
  let p := l.foldl (fun acc c => insertPtr c acc) []
  if p.length ≤ 8 then .ptrs p else if p.length ≤ 32 then .pairs (pairsOf p) else .all

end Sys2Proof.Machine
end

