-- ==== Sys2Proof/Machine/Sieve.lean ====
section
/-!
DEFINITION. Sys2Proof/Machine/Sieve.lean: the Home Sieve, the suspect maps and the Local Sieve of a slice: lookup, fill,
write-back, allocation and spill (05 R152 to R163, R184).
-/
namespace Sys2Proof.Machine

/-! Remap and pins. -/

/-- SIEVE_REMAP(k) of a slice (05 R184). -/
def Core.remapReg (s : Core) (p k : Nat) : Word := s.reg (0x100000 + p * 0x10000 + 0x800 + k * 8)

/-- Whether a way is disabled by a remap register (05 R184): array false is the Home Sieve. -/
def Core.wayOff (s : Core) (p : Nat) (local? : Bool) (set way : Nat) : Bool :=
  (List.range 16).any (fun k =>
    let w := s.remapReg p k
    bit w 0 && (bit w 1 == local?) && bits w 5 2 = way && bits w 18 6 = set)

/-- Whether a slice's chamber holds a barge for a line: its Sieve ways are pinned (05 R154). -/
def Slice.hasChamber (x : Slice) (l : LineAddr) : Bool := x.chambers.any (fun c => c.line = l)

/-- Whether a Home Sieve way is pinned. -/
def Core.hsPinned (s : Core) (p : Nat) (set : Nat) (w : HsWay) : Bool :=
  (s.slice p).hasChamber (s.lineAtOffset (hsLineIndex set w.tag * 256))

/-! Home Sieve. -/

/-- Key of a way. -/
def wayKey (set way : Nat) : Nat := set * 16 + way

/-- The way that holds a tag, if any. -/
def Slice.hsFind (x : Slice) (set : Nat) (tag : BitVec 23) : Option (Nat × HsWay) :=
  (List.range 16).findSome? (fun w => match mfind x.hs (wayKey set w) with
    | some e => if e.tag = tag then some (w, e) else none
    | none => none)

/-- The record a Home Sieve holds for a line homed here, with its way. -/
def Core.hsLookup (s : Core) (p : Nat) (x : LineAddr) : Option (Nat × HsWay) :=
  match s.homeOffset (linePa x).toNat with
  | some ho => (s.slice p).hsFind (hsIndex ho).1 (hsIndex ho).2
  | none => none

/-- Point the set's tree away from a way (05 R595). -/
def Core.hsTouch (p set way : Nat) (s : Core) : Core :=
  s.onSlice p (fun x => { x with hsTree := mset 0 x.hsTree set (treeTouch (mget 0 x.hsTree set) way) })

/-- Records a slice holds dirty, in its Home Sieve or in write-back (05 R155). -/
def Slice.heldDirty (x : Slice) : Nat := (x.hs.filter (fun e => e.2.dirty)).length + x.wbHeld

/-- The suspect map of a slice (05 R156). -/
def Core.suspects (s : Core) (p : Nat) : List Suspect := mget [] s.host.suspects p
/-- Update a suspect map. -/
def Core.onSuspects (p : Nat) (f : List Suspect → List Suspect) (s : Core) : Core :=
  s.onHost (fun h => { h with suspects := mset [] h.suspects p (f (mget [] h.suspects p)) })

/-- A record of a page becomes dirty: the page's entry counts one more, or is made (05 R156). -/
def suspectAdd (page : Nat) (l : List Suspect) : List Suspect :=
  if l.any (fun e => e.page = page) then updateWhere (fun e => e.page = page) (fun e => { e with count := e.count + 1 }) l
  else l ++ [⟨page, 1, false⟩]

/-- A write-back of a page was accepted: its count falls, and an entry at 0 is removed unless flagged (05 R156, R173). -/
def suspectSub (page n : Nat) (l : List Suspect) : List Suspect :=
  (updateWhere (fun e => e.page = page) (fun e => { e with count := e.count - n }) l).filter
    (fun e => !(e.page = page && e.count = 0 && !e.flag))

/-- Whether a page is flagged in a slice's map (05 R173). -/
def Core.pageFlagged (s : Core) (p page : Nat) : Bool := (s.suspects p).any (fun e => e.page = page && e.flag)

/-- Queue an operation on a Larder page: it joins the page's operations in arrival order (05 R149). -/
def Core.larderOp (page : Nat) (op : LOp) (s : Core) : Core :=
  if s.eng.larder.any (fun j => j.page = page) then
    s.onEng (fun e => { e with larder := updateWhere (fun j => j.page = page) (fun j => { j with ops := j.ops ++ [op] }) e.larder })
  else
    let j : LJob :=
      { page := page, phase := .waiting, ops := [op], parts := [], recs := [], ending := [], want := 0, cls := 1, fixed := 0, slot := 16,
        asked := [], answers := [], settles := [], writesLeft := 0, locked := false, flags := [] }
    (s.onEng (fun e => { e with larder := e.larder ++ [j] })).task .larderPump

/-- Pass a dirty record to the Larder engine as a write-back (05 R151, R154). -/
def Core.writeBack (p : Nat) (ho : Nat) (r : HomeRec) (s : Core) : Core :=
  let s := (s.onSlice p (fun x => { x with wbHeld := x.wbHeld + 1 })).bump p 0x012 1
  s.larderOp (pageOf ho).1 (.writeBack p (pageOf ho).2 r)

/-- Fill a Home Sieve way with a clean record (05 R154). When every way is pinned, the record stays in the barge alone. -/
def Core.hsFill (p : Nat) (x : LineAddr) (r : HomeRec) (s : Core) : Core :=
  match s.homeOffset (linePa x).toNat with
  | none => s
  | some ho =>
    let set := (hsIndex ho).1
    let tag := (hsIndex ho).2
    let sl := s.slice p
    let ways := (List.range 16)
    let valid := ways.filter (fun w => mhas sl.hs (wayKey set w))
    let elig := ways.filter (fun w => !s.wayOff p false set w &&
      (match mfind sl.hs (wayKey set w) with
       | some e => !s.hsPinned p set e
       | none => true))
    match treeVictim (mget 0 sl.hsTree set) elig valid with
    | none => s
    | some w =>
      let s := match mfind sl.hs (wayKey set w) with
        | some e => if e.dirty then
            s.writeBack p (hsLineIndex set e.tag * 256) e.rcd else s
        | none => s
      (s.onSlice p (fun y => { y with hs := mput y.hs (wayKey set w) ⟨false, tag, r⟩ })).hsTouch p set w

/-- Write a changed record: into the Home Sieve way as dirty, or as a write-back of its own when no way holds it; with
DIRTY_HIGH 0 it is written back at once and the way stays clean (05 R154 to R156). -/
def Core.putRecord (p : Nat) (x : LineAddr) (r0 : HomeRec) (s : Core) : Core :=
  let r := r0.norm
  match s.homeOffset (linePa x).toNat with
  | none => s
  | some ho =>
    match s.hsLookup p x with
    | none =>
      (s.onSuspects p (suspectAdd (pageOf ho).1)).writeBack p ho r
    | some (w, e) =>
      if e.rcd = r then s
      else
        let key := wayKey (hsIndex ho).1 w
        let s := if e.dirty then s else s.onSuspects p (suspectAdd (pageOf ho).1)
        if bits (s.reg offHsCtl) 10 0 = 0 then
          (s.onSlice p (fun y => { y with hs := mput y.hs key { e with rcd := r, dirty := false } })).writeBack p ho r
        else s.onSlice p (fun y => { y with hs := mput y.hs key { e with rcd := r, dirty := true } })

/-! Local Sieve. -/

/-- Local Sieve way of a line, if any. -/
def Slice.lsFind (x : Slice) (l : LineAddr) : Option (Nat × LsWay) :=
  (List.range 16).findSome? (fun w => match mfind x.ls (wayKey (lsSet l) w) with
    | some e => if e.line = l then some (w, e) else none
    | none => none)

/-- The vector of a tombstoned agent reads as 0 (11 R396). -/
def Core.maskTomb (s : Core) (e : LocEnt) : LocEnt := { e with v := e.v &&& ~~~(mget 0 s.host.tomb s.self.toNat) }

/-- An entry the slice or the Overflow engine holds for a line without reading memory (05 R160). -/
def Core.lsPeek (s : Core) (p : Nat) (l : LineAddr) : Option LocEnt :=
  let x := s.slice p
  match x.lsFind l with
  | some (_, e) => some e.ent
  | none =>
    match x.spill.find? (fun e => e.line = l) with
    | some e => some e.ent
    | none =>
      match s.eng.move with
      | some m => if m.line = l then some m.ent
                  else (s.eng.stash.find? (fun e => e.line = l)).map (fun e => e.ent)
      | none => (s.eng.stash.find? (fun e => e.line = l)).map (fun e => e.ent)

/-- Raise a set's spill count, which saturates at 255 (05 R161). -/
def spillUp (m : Map Nat) (set : Nat) : Map Nat := mset 0 m set (Nat.min 255 (mget 0 m set + 1))
/-- Lower a set's spill count unless it has saturated (05 R160). -/
def spillDown (m : Map Nat) (set : Nat) : Map Nat :=
  if mget 0 m set = 255 then m else mset 0 m set (mget 0 m set - 1)

/-- Move an entry to the spill buffer: the set's spill count rises and the Overflow engine is to insert it (05 R161). -/
def Core.spillOut (p : Nat) (e : LsWay) (s : Core) : Core :=
  (s.onSlice p (fun x => { x with spill := x.spill ++ [e], spillCnt := spillUp x.spillCnt (lsSet e.line) })).bump p 0x015 1

/-- Whether an allocation for a line would need a spill buffer slot that is not free (05 R161). -/
def Core.spillFull (s : Core) (p : Nat) : Bool := 16 ≤ (s.slice p).spill.length

/-- Allocate an entry for a line: the victim's entry moves to the spill buffer, and with every way pinned the new entry
itself goes there (05 R161). -/
def Core.lsAlloc (p : Nat) (l : LineAddr) (e : LocEnt) (s : Core) : Core :=
  let set := lsSet l
  let x := s.slice p
  let valid := (List.range 16).filter (fun w => mhas x.ls (wayKey set w))
  let elig := (List.range 16).filter (fun w => !s.wayOff p true set w &&
    (match mfind x.ls (wayKey set w) with
     | some v => !x.hasChamber v.line
     | none => true))
  match treeVictim (mget 0 x.lsTree set) elig valid with
  | none => s.spillOut p ⟨l, e⟩
  | some w =>
    let s := match mfind x.ls (wayKey set w) with
      | some v => s.spillOut p v
      | none => s
    s.onSlice p (fun y =>
      { y with
        ls := mput y.ls (wayKey set w) ⟨l, e⟩
        lsTree := mset 0 y.lsTree set (treeTouch (mget 0 y.lsTree set) w) })

/-- Queue an operation of the Overflow engine: operations on one bucket are carried out in arrival order (05 R166). -/
def Core.ovfAdd (op : OOp) (l : LineAddr) (e : Option LocEnt) (s : Core) : Core :=
  let (i, s) := s.fresh
  (s.onEng (fun g => { g with ovf := g.ovf ++ [⟨i, op, l, e, false, [], [], 0, 0⟩] })).task .ovfPump

/-- Whether an insertion of a line's entry is in progress. -/
def Core.inserting (s : Core) (l : LineAddr) : Bool :=
  s.eng.ovf.any (fun j => match j.op with
    | .insert o _ => j.line = l || o.any (fun x => x.2 = l)
    | .move _ => j.line = l
    | _ => false)

/-- Write the entry of a line: none frees it (05 R161). An entry in the spill buffer, the stash or the move register is
taken from there and recalled into the Sieve. -/
def Core.lsPut (p : Nat) (l : LineAddr) (e : Option LocEnt) (s : Core) : Core :=
  let x := s.slice p
  let e := match e with
    | some v => if v.v = 0 then none else some v
    | none => none
  match x.lsFind l, e with
  | some (w, _), some v => s.onSlice p (fun y => { y with ls := mput y.ls (wayKey (lsSet l) w) ⟨l, v⟩ })
  | some (w, _), none => s.onSlice p (fun y => { y with ls := merase y.ls (wayKey (lsSet l) w) })
  | none, e =>
    let held := x.spill.any (fun v => v.line = l) || s.eng.stash.any (fun v => v.line = l) ||
      (match s.eng.move with
       | some m => decide (m.line = l)
       | none => false)
    let s := s.onSlice p (fun y =>
      { y with
        spill := y.spill.filter (fun v => v.line != l)
        spillCnt := if held then spillDown y.spillCnt (lsSet l) else y.spillCnt })
    -- an insertion that is already on its way is followed by a deletion
    let s := if held && s.inserting l then s.ovfAdd .tidyWrite l none else s
    let s := s.onEng (fun g =>
      { g with
        stash := g.stash.filter (fun v => v.line != l)
        move := match g.move with
          | some m => if m.line = l then none else some m
          | none => none })
    match e with
    | some v => s.lsAlloc p l v
    | none => s

/-- Point the set's tree away from a line's way after a hit by a head (05 R595). -/
def Core.lsTouch (p : Nat) (l : LineAddr) (s : Core) : Core :=
  match (s.slice p).lsFind l with
  | some (w, _) => s.onSlice p (fun y =>
      { y with lsTree := mset 0 y.lsTree (lsSet l) (treeTouch (mget 0 y.lsTree (lsSet l)) w) })
  | none => s

/-- Local agents that AGENT_CFG defines and the agent table lists as caching agents (05 R169). -/
def Core.cachingAgents (s : Core) : BitVec 64 :=
  (List.range 64).foldl (fun v l =>
    let a := agentId s.self (BitVec.ofNat 6 l)
    if s.defined (BitVec.ofNat 6 l) && s.listed a && !s.isIo a then setBit v l else v) 0

/-- The UNKNOWN entry of open mode (05 R169). -/
def Core.unknownEnt (s : Core) : LocEnt := ⟨.unknown, .shared, 0, s.cachingAgents⟩

/-- Whether a lookup that missed the slice must read the Overflow Larder (05 R160). -/
def Core.needsOvf (s : Core) (p : Nat) (l : LineAddr) : Bool :=
  (s.slice p).spillAll || mget 0 (s.slice p).spillCnt (lsSet l) != 0 || s.openMode l || s.tainted l

/-- The set of a slice's rights stored as read: 0b11 reads SHARED (05 R159). -/
def readRights (n : Nat) : Rights := if n = 1 then .fwd else if n = 2 then .excl else .shared
/-- A stored Local Sieve state, with every other code read as UNKNOWN (05 R159). -/
def readLocSt (n : Nat) : LocSt := if n = 1 then .s else if n = 2 then .sf else if n = 3 then .x else .unknown
/-- Codes of a local state and of RIGHTS (05 R159). -/
def LocSt.code : LocSt → Nat
  | .s => 1 | .sf => 2 | .x => 3 | .unknown => 4
def Rights.code : Rights → Nat
  | .shared => 0 | .fwd => 1 | .excl => 2

end Sys2Proof.Machine
end

