-- ==== Sys2Proof/Machine/Skillet.lean ====
section
/-!
DEFINITION. Sys2Proof/Machine/Skillet.lean: the Skillet with its trays and miss register, the atomic operations, the
contention predictor, the sequential-store detector and the far reservation table (07).
-/
namespace Sys2Proof.Machine

/-! Atomic operations (07 R221 to R226). -/

/-- OP of a descriptor. -/
def atomOp (d : BitVec 16) : Nat := (d.extractLsb' 0 4).toNat
/-- SIZE code of a descriptor. -/
def atomSize (d : BitVec 16) : Nat := (d.extractLsb' 4 3).toNat
/-- Operand bytes s. -/
def atomBytes (d : BitVec 16) : Nat := 2 ^ atomSize d
/-- OFFSET of a descriptor. -/
def atomOffset (d : BitVec 16) : Nat := (d.extractLsb' 7 8).toNat
/-- FAR of a descriptor. -/
def atomFar (d : BitVec 16) : Bool := d.getLsbD 15
/-- OP codes LR and SC. -/
def atomLr : Nat := 10
def atomSc : Nat := 11
def atomCas : Nat := 9

/-- Whether a descriptor is malformed (07 R224). -/
def atomBad (d : BitVec 16) : Bool :=
  11 < atomOp d || 4 < atomSize d || (atomSize d = 4 && atomOp d != atomCas) || atomOffset d % atomBytes d != 0

/-- A value of n bytes read as signed (07 R222). -/
def signedOf (n v : Nat) : Int := if v < 2 ^ (8 * n - 1) then (v : Int) else (v : Int) - (2 ^ (8 * n) : Nat)

/-- The value an operation writes, if it writes (07 R222): op, bytes, old, A, C and N, and whether a reservation holds. -/
def atomNew (op n old a nval : Nat) (resv : Bool) : Option Nat :=
  let w := 2 ^ (8 * n)
  if op = 0 then some ((old + a) % w)
  else if op = 1 then some (old &&& a)
  else if op = 2 then some (old ||| a)
  else if op = 3 then some (old ^^^ a)
  else if op = 4 then some (if signedOf n old ≤ signedOf n a then old else a)
  else if op = 5 then some (if signedOf n old ≤ signedOf n a then a else old)
  else if op = 6 then some (Nat.min old a)
  else if op = 7 then some (Nat.max old a)
  else if op = 8 then some a
  else if op = 9 then (if old = a then some nval else none)
  else if op = 10 then none
  else if resv then some a else none

/-- Bytes [lo + n − 1 : lo] of line data, little-endian. -/
def bytesAt (d : LineData) (lo n : Nat) : Nat := (d >>> (8 * lo)).toNat % 2 ^ (8 * n)

/-- The byte mask of n bytes at an offset. -/
def maskAt (lo n : Nat) : LineMask := BitVec.ofNat 256 ((2 ^ n - 1) <<< lo)

/-- An executed far ATOM: the line after it, whether it wrote, and the old value (07 R222, R223). -/
def atomExec (desc : BitVec 16) (line operand : LineData) (resv : Bool) : LineData × Bool × Nat :=
  let n := atomBytes desc
  let off := atomOffset desc
  let old := bytesAt line off n
  match atomNew (atomOp desc) n old (bytesAt operand 0 n) (bytesAt operand n n) resv with
  | some v => (mergeLine line (BitVec.ofNat 2048 (v <<< (8 * off))) (maskAt off n), true, old)
  | none => (line, false, old)

/-! Reservation granules (07 R233, R236). -/

/-- GRANULE_LG. -/
def Core.granuleLg (s : Core) : Nat := bits (s.reg offRsvCtl) 2 0
/-- Whether two lines lie in one granule. -/
def Core.sameGranule (s : Core) (a b : LineAddr) : Bool := a.toNat >>> s.granuleLg = b.toNat >>> s.granuleLg
/-- Clear every reservation whose granule contains a line (07 R236). -/
def Core.clearFar (x : LineAddr) (s : Core) : Core :=
  s.onHost (fun h => { h with far := h.far.filter (fun e => !s.sameGranule e.2 x) })
/-- Clear an agent's reservation. -/
def Core.clearFarOf (a : AgentId) (s : Core) : Core := s.onHost (fun h => { h with far := merase h.far a.toNat })
/-- Set an agent's reservation. -/
def Core.setFar (a : AgentId) (x : LineAddr) (s : Core) : Core := s.onHost (fun h => { h with far := mput h.far a.toNat x })
/-- Whether an agent's reservation holds for a line (07 R237). -/
def Core.farHolds (s : Core) (a : AgentId) (x : LineAddr) : Bool :=
  match mfind s.host.far a.toNat with
  | some y => s.sameGranule y x
  | none => false

/-! Contention predictor (07 R228, R229). -/

/-- Effective THRESHOLD. -/
def Core.predThreshold (s : Core) : Nat := Nat.max 1 (bits (s.reg offPredCtl) 4 2)
/-- PRED_CTL.MODE, 0b11 acting as 0b00. -/
def Core.predMode (s : Core) : Nat := let m := bits (s.reg offPredCtl) 1 0; if m = 3 then 0 else m
/-- Whether the predictor says far. -/
def Core.predFar (s : Core) (p : Nat) (x : LineAddr) : Bool :=
  decide (s.predThreshold ≤ (mget 0 (s.slice p).pred (predIndex x)).toNat)
/-- A trained change of a counter, saturating at 0 and 7. -/
def predStep (c : BitVec 3) (busy shared : Bool) : BitVec 3 :=
  let n := c.toNat
  BitVec.ofNat 3 (if busy then Nat.min 7 (n + 2) else if shared then Nat.min 7 (n + 1) else n - 1)
/-- Train the counter of a line. -/
def Core.train (p : Nat) (x : LineAddr) (busy shared : Bool) (s : Core) : Core :=
  s.onSlice p (fun y => { y with pred := mset 0 y.pred (predIndex x) (predStep (mget 0 y.pred (predIndex x)) busy shared) })

/-! Skillet entries (07 R238 to R246). -/

/-- The Skillet entry of a line that is not draining. -/
def Slice.sklFind (x : Slice) (l : LineAddr) : Option (Nat × SklEnt) :=
  x.skl.find? (fun e => e.2.line = l && !e.2.draining)

/-- The warming tray copy of a line, with its poison. -/
def Slice.warmFind (x : Slice) (l : LineAddr) : Option (Nat × LineData × Bool) :=
  x.warm.findSome? (fun e => if e.2.line = l then e.2.data.map (fun d => (e.1, d, e.2.poison)) else none)

/-- The drip tray entry of a line, or a draining Skillet entry, which serves as one (07 R238, R246). -/
def Slice.dripFind (x : Slice) (l : LineAddr) : Option (LineData × Bool × Stamp) :=
  match x.drip.find? (fun e => e.2.line = l) with
  | some (_, d) => some (d.data, d.poison, d.oldest)
  | none => (x.skl.find? (fun e => e.2.line = l && e.2.draining)).map (fun e => (e.2.data, e.2.poison, e.2.oldest))

/-- Whether a lookup finds the line in the Skillet or a tray (07 R240). -/
def Slice.sklHit (x : Slice) (l : LineAddr) : Bool :=
  (x.sklFind l).isSome || (x.warmFind l).isSome || (x.dripFind l).isSome

/-- SOURCE of data read from where a write holds it: a WB_D's slot and returned dirty data hold an agent's line, another slot a line on its
way to memory (03 R91, 06 R214). -/
def Core.slotSource (s : Core) (w : MWrite) : BitVec 2 :=
  match w.src with
  | .berth id => (match s.berth? id with
    | some r => if r.op = opWbD then 1 else 0
    | none => 0)
  | .reserve => 1
  | _ => 2

/-- Data the chip holds for a line that serves a memory read: the Skillet, the warming tray, the drip tray or a data slot
(06 R207, 07 R240, R246), with its poison and SOURCE. -/
def Core.heldData (s : Core) (p : Nat) (l : LineAddr) : Option (LineData × Bool × BitVec 2) :=
  let x := s.slice p
  let rest : Option (LineData × Bool × BitVec 2) :=
    match x.warmFind l with
    | some (_, d, q) => some (d, q, 2)
    | none =>
      match s.latestWrite l with
      | some w => some (w.data, w.poison, s.slotSource w)
      | none => (x.dripFind l).map (fun d => (d.1, d.2.1, 2))
  match x.sklFind l with
  | some (_, e) => if e.filling then rest else some (e.data, e.poison, 2)
  | none => rest

/-- Whether a tray has the line's data: the warming tray, or the drip tray or a draining entry when no data slot's was written later
(07 R240, R246). -/
def Core.trayHas (s : Core) (p : Nat) (l : LineAddr) : Bool :=
  ((s.slice p).warmFind l).isSome ||
    (((s.slice p).dripFind l).isSome && (match s.latestWrite l with
      | some w => !w.slot
      | none => true))

/-- Mark a use of an entry by a head. -/
def Core.sklUse (p i : Nat) (s : Core) : Core :=
  s.onSlice p (fun x =>
    match mfind x.skl i with
    | some e => { x with skl := mput x.skl i { e with used := x.sklUses + 1 }, sklUses := x.sklUses + 1 }
    | none => x)

/-- The lowest free drip tray entry. -/
def Slice.dripFree (x : Slice) : Option Nat := (List.range 4).find? (fun i => !mhas x.drip i)

/-- Move a dirty entry's line to the drip tray, whose write is issued (07 R246). -/
def Core.toDrip (p i : Nat) (e : SklEnt) (s : Core) : Core :=
  let s := s.onSlice p (fun x => { x with drip := mput x.drip i ⟨e.line, e.data, e.poison, e.oldest⟩ })
  (s.queueWrite e.line e.data fullMask e.poison (.drip p i) e.oldest false none none (some (epSkl p))).2

/-- Write a Skillet entry to memory; it stays valid (07 R242). -/
def Core.sklWrite (p i : Nat) (waiter : Option (Nat × Nat)) (s : Core) : Core :=
  match mfind (s.slice p).skl i with
  | some e => (s.queueWrite e.line e.data fullMask e.poison (.skillet p i) e.oldest false none waiter (some (epSkl p))).2
  | none => s

/-- A line granted with M or E, or by CMP_NEAR, leaves the Skillet and the warming tray (07 R238). -/
def Core.sklLeave (p : Nat) (l : LineAddr) (s : Core) : Core :=
  let x := s.slice p
  let s := s.onSlice p (fun y => { y with warm := y.warm.filter (fun e => !(e.2.line = l && e.2.data.isSome)) })
  match x.sklFind l with
  | none => s
  | some (i, e) =>
    if !e.dirty then s.onSlice p (fun y => { y with skl := merase y.skl i })
    else match x.dripFree with
      | some k => (s.onSlice p (fun y => { y with skl := merase y.skl i })).toDrip p k e
      | none =>
        (s.onSlice p (fun y => { y with skl := mput y.skl i { e with draining := true, pinned := false } })).sklWrite p i none

/-- The least recently used of some entries. -/
def lruOf : List (Nat × SklEnt) → Option Nat
  | [] => none
  | e :: l => some (l.foldl (fun b f => if f.2.used < b.2.used then f else b) e).1

/-- Reserve an entry for a miss: an invalid one, then the least recently used clean unpinned one, then the least recently
used dirty unpinned one, which moves to the drip tray (07 R241). None while no entry can be had. DESIGN CHOICE (log entry 68): of several
invalid entries the lowest-numbered one. -/
def Core.sklReserve (p : Nat) (l : LineAddr) (s : Core) : Option (Nat × Core) :=
  let x := s.slice p
  let new (used : Nat) : SklEnt :=
    { dirty := false, poison := false, filling := true, pinned := true, line := l, oldest := 0, data := 0,
      draining := false, used := used, since := none }
  let free := (List.range 48).find? (fun i => !mhas x.skl i)
  let place (i : Nat) (s : Core) : Core :=
    s.onSlice p (fun y => { y with skl := mput y.skl i (new (y.sklUses + 1)), sklUses := y.sklUses + 1 })
  match free with
  | some i => some (i, place i s)
  | none =>
    match lruOf (x.skl.filter (fun e => !e.2.dirty && !e.2.pinned)) with
    | some i => some (i, place i s)
    | none =>
      match lruOf (x.skl.filter (fun e => e.2.dirty && !e.2.pinned && !e.2.draining)), x.dripFree with
      | some i, some k =>
        match mfind x.skl i with
        | some e => some (i, place i (s.toDrip p k e))
        | none => none
      | _, _ => none

/-- The older of two stamps at a tick. -/
def olderStamp (tick a b : Stamp) : Stamp := if age tick a ≥ age tick b then a else b

/-- Fill a reserved entry with line data (07 R241). -/
def Core.sklFill (p i : Nat) (d : LineData) (poison : Bool) (s : Core) : Core :=
  s.onSlice p (fun x =>
    match mfind x.skl i with
    | some e => { x with skl := mput x.skl i { e with filling := false, data := d, poison := poison } }
    | none => x)

/-- Write an entry's data as a merge made under a stamp: it becomes DIRTY, and OLDEST keeps the oldest merge that memory
has not accepted (04 R132, 07 R242). -/
def Core.sklSet (p i : Nat) (d : LineData) (stamp : Stamp) (s : Core) : Core :=
  s.onSlice p (fun x =>
    match mfind x.skl i with
    | some e =>
      let o := if e.dirty then olderStamp s.host.tick e.oldest stamp else stamp
      let n := match e.since with
        | some t => olderStamp s.host.tick t stamp
        | none => stamp
      { x with skl := mput x.skl i { e with filling := false, dirty := true, data := d, oldest := o, since := some n } }
    | none => x)

/-- Pin or unpin an entry. -/
def Core.sklPin (p i : Nat) (b : Bool) (s : Core) : Core :=
  s.onSlice p (fun x =>
    match mfind x.skl i with
    | some e => { x with skl := mput x.skl i { e with pinned := b } }
    | none => x)

/-- Bring a line from a tray into an entry: the warming tray's copy clean, the drip tray's line dirty with its OLDEST,
whose memory write goes on (07 R240). -/
def Core.fromTray (p i : Nat) (l : LineAddr) (s : Core) : Core :=
  let x := s.slice p
  match x.warmFind l with
  | some (k, d, q) => (s.sklFill p i d q).onSlice p (fun y => { y with warm := merase y.warm k })
  | none =>
    let newest := (s.latestWrite l).map (fun w => (w.data, w.poison, w.stamp))
    match (if newest.isSome then newest else x.dripFind l) with
    | some (d, q, o) =>
      (s.sklFill p i d q).onSlice p (fun y =>
        match mfind y.skl i with
        | some e => { y with skl := mput y.skl i { e with dirty := true, oldest := o } }
        | none => y)
    | none => s

/-- Effective DIRTY_HIGH of the Skillet (07 R242). -/
def Core.sklHigh (s : Core) : Nat := Nat.min 48 (bits (s.reg offSklCtl) 5 0)
/-- Number of DIRTY entries. -/
def Slice.sklDirty (x : Slice) : Nat := (x.skl.filter (fun e => e.2.dirty)).length

/-! Sequential-store detector and prefetch (07 R243, R244). -/

/-- Effective SEQ_STOP: a write of 1 acts as 2. -/
def Core.seqStop (s : Core) : Nat := let v := bits (s.reg offSklCtl) 13 8; if v = 1 then 2 else v

/-- The detector's update for a WR_PART of line y: the new last and run. -/
def detectStep (last : LineAddr) (run : Nat) (y : LineAddr) : LineAddr × Nat :=
  if y = last then (last, run)
  else (y, if y = sliceNext last (sliceHash y) then Nat.min 63 (run + 1) else 1)

/-- Internal operations that wait in the slice or are held by its barges (07 R244). -/
def Slice.internalCount (x : Slice) : Nat :=
  x.internals.length + (x.barges.filter (fun b => match b.item with
    | .internal _ => true
    | _ => false)).length

/-- Create a prefetch of a line when R244 allows. -/
def Core.prefetch (p : Nat) (l : LineAddr) (s : Core) : Core :=
  let x := s.slice p
  if s.homesHere l && !x.sklHit l && !x.hasChamber l && decide (x.internalCount < 8) then
    let (i, s) := s.fresh
    (s.onSlice p (fun y => { y with internals := y.internals ++ [⟨i, .prefetch, l, s.arrival⟩] })).bump p 0x036 1
  else s

/-- The detector sees a WR_PART at its decision; answers whether it stops allocation (07 R243). -/
def Core.detect (p : Nat) (y : LineAddr) (s : Core) : Bool × Core :=
  let d := detectStep (s.slice p).last (s.slice p).run y
  let s := s.onSlice p (fun x => { x with last := d.1, run := d.2 })
  let stop := s.seqStop != 0 && decide (s.seqStop ≤ d.2)
  let s := if !stop && bit (s.reg offSklCtl) 14 && decide (2 ≤ d.2) then s.prefetch p (sliceNext y (sliceHash y)) else s
  (stop, s)

/-- Drop a line's warming tray copy (07 R245). -/
def Core.dropWarm (p : Nat) (l : LineAddr) (s : Core) : Core :=
  s.onSlice p (fun y => { y with warm := y.warm.filter (fun e => !(e.2.line = l && e.2.data.isSome)) })

end Sys2Proof.Machine
end

