-- ==== Sys2Proof/Machine/Barge.lean ====
section
/-!
DEFINITION. Sys2Proof/Machine/Barge.lean: what every flow of a barge shares: its header, snoop rounds and simmer time,
forwarding, delivery of data and completions, and its end (04 R117 to R124, 06 R193, R194, R205 to R213).
-/
namespace Sys2Proof.Machine

/-- The header of the transaction a barge serves. -/
def Core.bargeHdr (s : Core) (b : Barge) : Hdr :=
  match b.item with
  | .req id => match s.berth? id with
    | some r => r.h
    | none => { Hdr.zero with line := b.line }
  | .snoop id => match s.host.intake.find? (fun i => i.id = id) with
    | some r => r.h
    | none => { Hdr.zero with line := b.line }
  | .internal _ => { Hdr.zero with line := b.line }

/-- The berth entry a barge serves. -/
def Core.bargeReq (s : Core) (b : Barge) : Option Berth :=
  match b.item with
  | .req id => s.berth? id
  | _ => none

/-- The request opcode a barge serves, or the snoop's. -/
def Core.bargeOp (s : Core) (b : Barge) : BitVec 8 :=
  match b.item with
  | .req id => match s.berth? id with
    | some r => r.op
    | none => 0xFF
  | .snoop id => match s.host.intake.find? (fun i => i.id = id) with
    | some r => r.op
    | none => 0xFF
  | .internal _ => 0xFF

/-- Update a barge in place. -/
def Core.onBarge (p id : Nat) (f : Barge → Barge) (s : Core) : Core :=
  s.onSlice p (fun x => { x with barges := updateWhere (fun b => b.id = id) f x.barges })

/-- The simmer timer of a line and a target, if one runs (06 R213). -/
def Slice.simmering (x : Slice) (l : LineAddr) (t : Target) : Bool := x.simmer.any (fun e => e.line = l && e.target = t)

/-- Start or restart a simmer timer, in cycles of the slice's own clock (06 R213, 00 R10); a simmer time of 0 starts none. -/
def Core.startSimmer (p : Nat) (l : LineAddr) (t : Target) (s : Core) : Core :=
  let w := s.reg offSimmerCtl
  let n := match t with
    | .chip _ => bits w 27 16
    | .agent _ => bits w 11 0
  s.onSlice p (fun x =>
    let rest := x.simmer.filter (fun e => !(e.line = l && e.target = t))
    { x with simmer := if n = 0 then rest else rest ++ [⟨l, t, x.clock + n⟩] })

/-- Whether the berth array holds a WB_D of an agent for a line (06 R210). -/
def Core.wbHere (s : Core) (a : AgentId) (x : LineAddr) : Bool :=
  s.host.berths.any (fun b => b.op = opWbD && !b.own && b.h.agent = a && b.h.line = x)

/-- Send the local snoops of a barge that may go: not under simmer time, SNP_NA exempt. A snoop for an agent that is not
present is answered RSP_ABSENT (11 R391). PEER of a snoop names the agent that is to respond (03 R83). -/
def Core.sendLocal (p id : Nat) (n : LSnoop) (s : Core) : Core :=
  match s.barge? p id with
  | none => s
  | some b =>
    if n.sent then s
    else if !s.isPresent (agentId s.self n.loc) then
      s.onBarge p id (fun b =>
        { b with
          locals := updateWhere (fun m => m.loc = n.loc && m.op = n.op)
            (fun m => { m with sent := true, rsp := some (opRspAbsent, stI, false) }) b.locals })
    else if n.op != opSnpNa && (s.slice p).simmering b.line (.agent n.loc) then s.bump p 0x023 1
    else
      let h := s.bargeHdr b
      let m : Msg := ⟨n.op, { h with epoch := s.epochOf b.line, hint := n.hint, peer := agentId s.self n.loc, srci := s.self, dsti := s.self,
                                     param := 0, credit := false, poison := false, line := b.line }, none⟩
      let seen := s.wbHere (agentId s.self n.loc) b.line
      let s := s.onBarge p id (fun b => { b with
        sent := true
        locals := updateWhere (fun m => m.loc = n.loc && m.op = n.op) (fun m => { m with sent := true, wbSeen := seen }) b.locals })
      ((s.sendSnp n.loc m).leaves m).bump p 0x021 1

/-- Send every local snoop of a barge that may go. -/
def Core.sendLocals (p id : Nat) (s : Core) : Core :=
  match s.barge? p id with
  | none => s
  | some b => (foldS (Core.sendLocal p id) b.locals s).task (.advance p id)

/-- Begin a round of local snoops. -/
def Core.startRound (p id : Nat) (why : RoundFor) (l : List (BitVec 6 × BitVec 8 × BitVec 4)) (s : Core) : Core :=
  (s.onBarge p id (fun b => { b with
    roundFor := why
    locals := l.map (fun e => { loc := e.1, op := e.2.1, hint := e.2.2 }) })).sendLocals p id

/-- Whether a response says that the agent forwarded data to the requester (03 R96). -/
def LSnoop.forwards (n : LSnoop) : Bool :=
  match n.rsp with
  | some (op, _, f) => op = opRspFwd || (op = opRspD && f)
  | none => false

/-- Every local snoop of a barge has its response, and the data that the responses announced has arrived: forwarded data too, whose poison
changes the answer (11 R377) and before which no completion leaves (04 R117). -/
def Barge.roundOver (b : Barge) : Bool := b.locals.all (fun n => n.rsp.isSome && (n.fwd || !n.forwards)) && !b.awaitD

/-- Agents of a vector as local numbers, lowest first. -/
def agentsOf (v : BitVec 64) : List (BitVec 6) := (setBits v 64).map (fun i => BitVec.ofNat 6 i)

/-- Whether every agent of an instance is tombstoned: a silent instance (11 R396). -/
def Core.silent (s : Core) (i : BitVec 6) : Bool := mget 0 s.host.tomb i.toNat = BitVec.allOnes 64

/-- Lost-line data: 256 bytes of 0 with POISON 1 (11 R395). -/
def lostLine : LineData := 0

/-- Send one snoop of a barge to another instance, if no simmer time holds it and a snoop credit is there (06 R194, R213). A
silent instance is answered for by 11 R396. -/
def Core.sendChipSnoop (p id : Nat) (n : CSnoop) (s : Core) : Core :=
  match s.barge? p id with
  | none => s
  | some b =>
    if n.sent || n.chip = s.self then s
    else if s.silent n.chip then
      let x := match b.rcd with
        | some r => r.st = .x && r.owner = n.chip
        | none => false
      let r := if x then (opRspD, stI, false) else (opRspAbsent, stI, false)
      (s.onBarge p id (fun b => { b with
        chips := updateWhere (fun m => m.chip = n.chip) (fun m => { m with sent := true, rsp := some r }) b.chips
        dirty := if x then some (lostLine, true) else b.dirty
        lost := b.lost || x })).task (.advance p id)
    else if n.op != opSnpNa && (s.slice p).simmering b.line (.chip n.chip) then s.bump p 0x023 1
    else if (s.creditsTo n.chip).snoop = 0 then s
    else
      let h := s.bargeHdr b
      let m : Msg := ⟨n.op, { h with epoch := s.epochOf b.line, hint := n.hint, peer := 0, srci := s.self, dsti := n.chip,
                                     param := 0, credit := false, poison := false, line := b.line }, none⟩
      let s := s.onCredits n.chip (fun c => { c with snoop := c.snoop - 1 })
      let s := s.onBarge p id (fun b => { b with
        sent := true
        chips := updateWhere (fun m => m.chip = n.chip) (fun m => { m with sent := true }) b.chips })
      ((s.sendChip m).leaves m).bump p 0x020 1

/-- Send every snoop of a barge to another instance that may go. -/
def Core.sendChipSnoops (p id : Nat) (s : Core) : Core :=
  match s.barge? p id with
  | none => s
  | some b => foldS (Core.sendChipSnoop p id) b.chips s

/-- The end of a barge: it leaves its chamber and frees what it pinned (06 R205, R206). WB_Ds that wait in it for the record
come to the chamber again. -/
def Core.endBarge (p id : Nat) (s : Core) : Core :=
  match s.barge? p id with
  | none => s
  | some b =>
    let s := match b.skl with
      | some i => s.sklPin p i false
      | none => s
    let s := foldS (fun w s => s.task (.wbArrive p w)) b.early s
    (s.onSlice p (fun x => { x with
      barges := x.barges.filter (fun c => c.id != id)
      miss := if x.miss = some id then none else x.miss
      chambers := (updateWhere (fun c => c.line = b.line) (fun c => { c with order := c.order.filter (fun i => i != id) })
        x.chambers).filter (fun c => !c.order.isEmpty) })).task (.kick p)

/-- HINT of a completion: GRANT and DATA_FOLLOWS (03 R91). -/
def cmpHint (grant : BitVec 3) (data : Bool) : BitVec 4 := (BitVec.ofBool data) ++ grant
/-- HINT of a data message: SOURCE and TO_HOME (03 R91). -/
def datHint (source : BitVec 2) (toHome : Bool) : BitVec 4 := (0 : BitVec 1) ++ (BitVec.ofBool toHome) ++ source

/-- A completion for a request's header. -/
def mkCmp (op : BitVec 8) (h : Hdr) (epoch : BitVec 4) (self dst : BitVec 6) (grant : BitVec 3) (data : Bool)
    (param : BitVec 16) : Msg :=
  let k : Hdr := { h with epoch := epoch, poison := false, credit := false, hint := cmpHint grant data }
  ⟨op, { k with peer := 0, srci := self, dsti := dst, param := param }, none⟩

/-- A data message for a request's header. -/
def mkDat (op : BitVec 8) (h : Hdr) (epoch : BitVec 4) (self dst : BitVec 6) (source : BitVec 2) (toHome poison : Bool)
    (b : Beats) : Msg :=
  let k : Hdr := { h with epoch := epoch, poison := poison, credit := false, hint := datHint source toHome }
  ⟨op, { k with peer := 0, srci := self, dsti := dst, param := if b.one then 1 else 0 }, some b⟩

/-- The completion that R374 gives a read whose data is uncorrectable, by its class. -/
def poisonCmp (op : BitVec 8) (hint : BitVec 4) : BitVec 8 :=
  if op = opRdF then opCmpTrap
  else if (op = opRdS || op = opRdNa) && hint.extractLsb' 0 2 = (2 : BitVec 2) then opCmpHalt
  else opCmpPoison

/-- Whether a completion is one of the uncorrectable ones. -/
def isPoisonCmp (op : BitVec 8) : Bool := op = opCmpTrap || op = opCmpHalt || op = opCmpPoison

/-- Deliver a completion to a local agent (11 R375): an uncorrectable one raises POISON_SEEN and carries the low bits of the
sequence number that event takes. -/
def Core.deliverCmp (m : Msg) (s : Core) : Core :=
  if isPoisonCmp m.op then
    let f := s.fport (agentLocal m.h.agent)
    let src := 32 * famPoisonSeen + unitFab f
    let q : BitVec 16 := match s.seqFor src with
      | some n => n.extractLsb' 0 16
      | none => 0
    let m : Msg := { m with h := { m.h with param := q } }
    ((s.raiseEv ⟨src, m.h.line, m.h.agent, 0, 0, none⟩).sendCmp m).leaves m
  else (s.sendCmp m).leaves m

/-- Send request data or a grant's data to the requester: over the Wharf to its fabric port, or to its instance. -/
def Core.sendData (src : Nat) (stamp : Stamp) (m : Msg) (s : Core) : Core :=
  (if agentInst m.h.agent = s.self then s.presentAgent src stamp m
   else s.sendChipData src stamp m []).leaves m

/-- Data on its way to a line's memory is what every barge of the line that reads memory reads (06 R207, R208). -/
def Core.lineNow (p : Nat) (l : LineAddr) (d : LineData) (poison : Bool) (s : Core) : Core :=
  s.onSlice p (fun x => { x with
    barges := updateWhere (fun b => b.line = l && b.mem != .idle) (fun b => { b with mem := .have d poison 0 }) x.barges })

/-- A WB_D of this chip for a line that still awaits its completion. -/
def Core.wbAwaits (s : Core) (x : LineAddr) (b : Berth) : Bool :=
  b.op = opWbD && b.h.line = x && agentInst b.h.agent = s.self && !b.posted && !b.cmpWait && !b.discard

/-- Whether a WB_D of this chip for a line awaits its completion: in the berth array, or announced by a RSP_WBX and still on its way (03
R109, 06 R210). -/
def Core.wbOutstanding (s : Core) (x : LineAddr) : Bool :=
  s.host.berths.any (s.wbAwaits x) || s.host.wbComing.any (fun e => e.2 = x)

/-- Whether another WB_D of the chip for its line goes before a WB_D: one on the proxy's own account, or an earlier one (06 R210). -/
def Core.wbBefore (s : Core) (r : Berth) : Bool :=
  s.host.berths.any (fun b => s.wbAwaits r.h.line b && b.id != r.id && (b.own || decide (b.seq < r.seq)))

/-- The credits a request spends towards a home (06 R193): whether the mooring bit is there, the pool credits are there. -/
def Core.spend (home : BitVec 6) (agent : AgentId) (op : BitVec 8) (s : Core) : Option (Bool × Core) :=
  let c := s.creditsTo home
  let k := 4 * (agentLocal agent).toNat + classOf op
  let moor := c.moorings.getLsbD k
  let needsData := carriesData op && !(op = opWbD && moor)
  if !moor && c.header = 0 then none
  else if needsData && c.data = 0 then none
  else
    let s := s.onCredits home (fun c =>
      { c with
        moorings := if moor then clearBit c.moorings k else c.moorings
        header := if moor then c.header else c.header - 1
        data := if needsData then c.data - 1 else c.data })
    some (!moor, s)

/-- The data message of a forwarded request: its CREDIT is that of the request as forwarded (03 R83, 04 R120). -/
def Core.forwardData (r : Berth) (h : Hdr) (d : Beats) (s : Core) : Core :=
  let op := if r.op = opWbD then opDatM else opDatNa
  let hd : Hdr := { h with poison := r.poison, hint := datHint (if r.poison && r.made then 3 else 1) (r.op = opWbD) }
  let m : Msg := ⟨op, { hd with param := if d.one then 1 else 0 }, some d⟩
  (s.sendChipData r.ep r.stamp m []).leaves m

/-- HINT and PARAM of a request with their reserved bits 0 (03 R85, R91). -/
def cleanHint (op : BitVec 8) (h : BitVec 4) : BitVec 4 :=
  if op = opRdS || op = opRdNa then (if h.extractLsb' 0 2 = (2 : BitVec 2) then 2 else 0)
  else if op = opWbD then h &&& 0xC
  else 0
/-- PARAM of a request with its reserved bits 0: only an ATOM's descriptor has a meaning (03 R85, 07 R221). -/
def cleanParam (op : BitVec 8) (v : BitVec 16) : BitVec 16 := if op = opAtom then v else 0

/-- Forward a request to its remote home, its data directly behind it (04 R120); it waits while a WB_D of the chip for the
line is outstanding (06 R210) or while no credit can be spent (06 R193). -/
def Core.forward (p id : Nat) (s : Core) : Core :=
  match s.barge? p id with
  | none => s
  | some b =>
    match s.bargeReq b, s.homeOf b.line with
    | some r, some home =>
      let wait (s : Core) : Core := s.onBarge p id (fun b => { b with phase := .toForward })
      if (if r.op = opWbD then s.wbBefore r else s.wbOutstanding b.line) then wait s
      else match s.spend home r.h.agent r.op with
        | none => wait s
        | some (pool, s) =>
          let h : Hdr := { r.h with epoch := s.epochOf b.line, credit := pool, srci := s.self, dsti := home, poison := false }
          let h : Hdr := { h with hint := cleanHint r.op r.h.hint, param := cleanParam r.op r.h.param }
          let s := (s.sendChip ⟨r.op, h, none⟩).leaves ⟨r.op, h, none⟩
          let s := match r.data with
            | some d => if r.full then s.forwardData r h d else s
            | none => s
          let s := s.onBerth r.id (fun r => { r with credit := pool, fwd := true })
          (s.onBarge p id (fun b => { b with phase := .forwarded, sent := true })).bump p 0x009 1
    | _, _ => s

end Sys2Proof.Machine
end

