-- ==== Sys2Proof/Machine/Proxy.lean ====
section
/-!
DEFINITION. Sys2Proof/Machine/Proxy.lean: the proxy role: rows of R106 for local requests, of R107 and R108 for the home's
snoops, the resolution of UNKNOWN entries (03 R105), WB_Ds on the proxy's own account (03 R597), and what a home's
completion does (04 R117, R118, R124).
-/
namespace Sys2Proof.Machine

/-- Profile E (03 R76). -/
def Core.profileE (s : Core) : Bool := bits (s.reg offDomainCfg) 1 0 = 1

/-- Entry without an agent, and without its owner role if it was owner; none when no agent is left (03 R106, R107). -/
def LocEnt.drop (e : LocEnt) (l : BitVec 6) : Option LocEnt :=
  let v := clearBit e.v l.toNat
  if v = 0 then none
  else if (e.st = LocSt.sf || e.st = LocSt.x) && e.owner = l then some { e with st := .s, owner := 0, v := v }
  else some { e with v := v }

/-- A local response that names a WB_D on its way. -/
def LSnoop.wbx (n : LSnoop) : Bool :=
  match n.rsp with
  | some (op, _, _) => op = opRspWbx
  | none => false

/-- Drop every agent whose response left it with RESULT I. -/
def dropGone (ls : List LSnoop) (e : Option LocEnt) : Option LocEnt :=
  ls.foldl (fun e n => match e, n.rsp with
    | some v, some (_, r, _) => if r = stI then v.drop n.loc else some v
    | e, _ => e) e

/-- Whether a local round supplied the requester with data: RSP_FWD, or RSP_D that also forwarded. -/
def supplied (ls : List LSnoop) : Bool :=
  ls.any (fun n => match n.rsp with
    | some (op, _, fwded) => op = opRspFwd || (op = opRspD && fwded)
    | none => false)

/-- The response opcode of R108: the first of RSP_D, RSP_FWD, RSP_WBX, RSP_S, RSP_I, RSP_ABSENT that a response carries. -/
def strongestRsp (ops : List (BitVec 8)) : BitVec 8 :=
  match [opRspD, opRspFwd, opRspWbx, opRspS, opRspI].find? (fun o => ops.contains o) with
  | some o => o
  | none => opRspAbsent

/-- Rank of a state in the order M, E, F, S, I (03 R91). -/
def stRank (c : BitVec 3) : Nat := if c = stM then 4 else if c = stE then 3 else if c = stF then 2 else if c = stS then 1 else 0
/-- The stronger of two states. -/
def stMax (a b : BitVec 3) : BitVec 3 := if stRank a ≥ stRank b then a else b

/-- RESULT of an aggregated response (03 R108): over the agents left in V, the response's RESULT or what the entry records. -/
def Core.aggResult (s : Core) (e : Option LocEnt) (ls : List LSnoop) : BitVec 3 :=
  match e with
  | none => stI
  | some v => (agentsOf v.v).foldl (fun acc l =>
      let st := match ls.find? (fun n => n.loc = l) with
        | some n => match n.rsp with
          | some (_, r, _) => r
          | none => stS
        | none => if v.st = LocSt.sf && v.owner = l && !s.profileE then stF else stS
      stMax acc st) stI

/-! WB_Ds on the proxy's own account (03 R597). -/

/-- The next TAG of an agent's own-account WB_Ds that none of them holds. -/
def Core.ownTagFor (s : Core) (a : AgentId) : Tag :=
  let t0 := mget 0 s.host.ownTag (agentLocal a).toNat
  let busy (t : Tag) : Bool := s.host.berths.any (fun b => b.own && b.h.agent = a && b.h.tag = t)
  match (List.range 1024).find? (fun k => !busy (t0 + BitVec.ofNat 10 k)) with
  | some k => t0 + BitVec.ofNat 10 k
  | none => t0

/-- Make a WB_D on the proxy's own account under a local agent's ID, of data that came over a Wharf endpoint. Answers its TAG. To another
instance it waits for a credit in the model's list of own-account entries; to the own home it is done by the task. -/
def Core.makeOwnWb (line : LineAddr) (a : AgentId) (keep : Bool) (d : LineData) (poison made : Bool) (ep : Nat) (s : Core) : Tag × Core :=
  let t := s.ownTagFor a
  let s := s.onHost (fun h => { h with ownTag := mset 0 h.ownTag (agentLocal a).toNat (t + 1) })
  let (i, s) := s.fresh
  let hint : BitVec 4 := (1#1) ++ (BitVec.ofBool keep) ++ (if made then 3#2 else 0#2)
  let h : Hdr := { Hdr.zero with agent := a, tag := t, line := line, hint := hint, srci := s.self }
  let b : Berth :=
    { id := i, op := opWbD, h := h, own := true, pool := false, port := none, stamp := s.arrival, hash := sliceHash line, seq := s.host.seq,
      data := some (Beats.line d), ep := ep, poison := poison, made := made, full := true }
  let s := s.onHost (fun x => { x with berths := x.berths ++ [b], seq := x.seq + 1 })
  match s.homeOf line with
  | some home => if home = s.self then (t, s.task (.wbArrive (s.physOfLine line) i)) else (t, s.task (.credits home))
  | none => (t, s)

/-- Send the own-account WB_Ds towards other homes that wait and can spend credits (06 R193), one of a line at a time (06 R210). -/
def Core.sendOwnWbs (s : Core) : Core :=
  foldS (fun (b : Berth) s =>
    match s.homeOf b.h.line, b.data with
    | some home, some d =>
      if home = s.self then s
      else match s.spend home b.h.agent opWbD with
        | none => s
        | some (pool, s) =>
          let h : Hdr := { b.h with epoch := s.epochOf b.h.line, credit := pool, dsti := home }
          let src : BitVec 2 := b.h.hint.extractLsb' 0 2
          let m : Msg := ⟨opWbD, { h with hint := b.h.hint &&& 0xC }, none⟩
          let s := (s.sendChip m).leaves m
          let hd : Hdr := { h with poison := b.poison, hint := datHint (if src = 3 then 3 else 1) true }
          let s := (s.sendChipData b.ep b.stamp ⟨opDatM, hd, some d⟩ []).leaves ⟨opDatM, hd, some d⟩
          (s.putBerth { b with writing := true }).task .reserveFree
    | _, _ => s) (s.host.berths.filter (fun b => b.own && agentInst b.h.agent = s.self && !b.writing &&
      !s.host.berths.any (fun c => c.own && c.h.line = b.h.line && agentInst c.h.agent = s.self && decide (c.seq < b.seq)))) s

/-! Local requests (03 R106). -/

/-- FWD_AS codes (03 R91). -/
def fwdS : BitVec 4 := 0
def fwdF : BitVec 4 := 1
def fwdM : BitVec 4 := 3

/-- The local snoops of the RD_O, UPG and near ATOM rows: SNP_FO to the owner when there is one other than a, SNP_I to
the rest. -/
def ownRound (e : LocEnt) (a : BitVec 6) (owner : Bool) : List (BitVec 6 × BitVec 8 × BitVec 4) :=
  let o := if owner && (e.st = LocSt.sf || e.st = LocSt.x) && e.owner != a then [e.owner] else []
  o.map (fun l => (l, opSnpFo, fwdM)) ++
    (((agentsOf e.v).filter (fun l => l != a && !o.contains l)).map (fun l => (l, opSnpI, (0 : BitVec 4))))

/-- Whether a WB_D of this chip for a line is on its way, or has not been admitted with its data: at a local home, its slot is then not yet
the line's current data (06 R207, R210). -/
def Core.wbUnadmitted (s : Core) (x : LineAddr) : Bool :=
  s.host.berths.any (fun b => b.op = opWbD && b.h.line = x && agentInst b.h.agent = s.self && !b.own && !b.discard && (b.slice.isNone || !b.full)) ||
  s.host.wbComing.any (fun e => e.2 = x)

/-- Where a request goes next after the proxy role: to the home role of the same barge, or to the remote home. -/
def Core.toHome (p id : Nat) (s : Core) : Core :=
  match s.barge? p id with
  | none => s
  | some b =>
    let s := s.onBarge p id (fun b => { b with locals := [], roundFor := .none })
    if s.homesHere b.line then
      let op := s.bargeOp b
      if op != opWbD && s.wbUnadmitted b.line then s.onBarge p id (fun b => { b with phase := .toForward })
      else (s.onBarge p id (fun b => { b with phase := .atHome })).task (.advance p id)
    else s.forward p id

/-- The place of an ATOM at the proxy (07 R227): none leaves it to the home; some far decides. -/
inductive AtomPlace where
  | nearSelf | far | near | home
  deriving DecidableEq, Repr

/-- Decide an ATOM's place at the proxy, and train the predictor where the decision trains it (07 R227 to R230). -/
def Core.atomAtProxy (p : Nat) (b : Barge) (r : Berth) (e : Option LocEnt) (s : Core) : AtomPlace × Core :=
  let a := agentLocal r.h.agent
  match e with
  | some v =>
    if v.st = LocSt.x && v.owner = a then (.nearSelf, s)
    else if s.isIo r.h.agent || atomOp r.h.param = atomSc then (.far, s)
    else if v.rights = Rights.excl then
      if s.predMode = 1 then (.near, s)
      else if s.predMode = 2 then (.far, s)
      else
        let far := s.predFar p b.line
        let busy := ((s.slice p).chambers.any (fun c => c.line = b.line && 1 < c.order.length))
        let others := ((v.st = LocSt.sf || v.st = LocSt.x) && v.owner != a) || clearBit v.v a.toNat != 0
        let s := (s.train p b.line busy others).bump p (if far then 0x031 else 0x030) 1
        (if far then .far else .near, s)
    else (.home, s)
  | none => if s.isIo r.h.agent || atomOp r.h.param = atomSc then (.far, s) else (.home, s)

/-- The To state of a WB_D: its agent leaves the entry (03 R106). -/
def Core.dropWriter (p : Nat) (x : LineAddr) (a : BitVec 6) (s : Core) : Core :=
  match s.lsPeek p x with
  | some v => if v.st = LocSt.x && v.owner = a then s.lsPut p x none else s.lsPut p x (v.drop a)
  | none => s

/-- The proxy's row for a local request (03 R106, 04 R111). A UPG of an agent that does not hold the line goes on as RD_O, at the
home too (03 R106). A WB_D for another home leaves the entry as it is until its completion comes (04 R118). -/
def Core.proxyRow (p id : Nat) (e : Option LocEnt) (s : Core) : Core :=
  match s.barge? p id with
  | none => s
  | some b =>
    match s.bargeReq b with
    | none => s
    | some r =>
      let a := agentLocal r.h.agent
      let held := match e with
        | some v => v.v.getLsbD a.toNat
        | none => false
      let asOwn := r.op = opUpg && !held
      let r := if asOwn then { r with op := opRdO } else r
      let s := if asOwn then s.putBerth r else s
      let row (l : List (BitVec 6 × BitVec 8 × BitVec 4)) (s : Core) : Core :=
        (s.onBarge p id (fun b => { b with phase := .atProxy })).startRound p id .row l
      if r.op = opRdS || r.op = opRdF then
        match e with
        | some v =>
          if (v.st = LocSt.sf || v.st = LocSt.x) && v.owner != a then
            row [(v.owner, opSnpFs, if s.profileE then fwdS else fwdF)] s
          else s.toHome p id
        | none => s.toHome p id
      else if r.op = opRdNa then
        match e with
        | some v => if v.st = LocSt.x && v.owner != a then row [(v.owner, opSnpNa, 0)] s else s.toHome p id
        | none => s.toHome p id
      else if r.op = opRdO || r.op = opUpg then
        match e with
        | some v =>
          if v.rights = Rights.excl then
            let upg := r.op = opUpg && v.v.getLsbD a.toNat
            let l := ownRound v a (!upg)
            if l.isEmpty && !upg then s.toHome p id else row l s
          else s.toHome p id
        | none => s.toHome p id
      else if r.op = opAtom then
        let (place, s) := s.atomAtProxy p b r e
        let s := if place = .near then s.onBarge p id (fun b => { b with near := true }) else s
        match place, e with
        | .nearSelf, _ => row [(a, opSnpFo, fwdM)] s
        | .near, some v =>
          let l := ownRound v a true
          if l.isEmpty then s.toHome p id else row l s
        | .far, _ =>
          let s := match s.bargeReq b with
            | some r => s.putBerth { r with h := { r.h with param := r.h.param ||| 0x8000 } }
            | none => s
          s.toHome p id
        | _, _ => s.toHome p id
      else if r.op = opWbD then
        (if s.homesHere b.line then s.dropWriter p b.line a else s).toHome p id
      else s.toHome p id

/-- The requester of a barge as a local agent. -/
def Core.requester (s : Core) (b : Barge) : BitVec 6 := agentLocal (s.bargeHdr b).agent

/-- The entry of the granted agent (03 R106): per grant, from the entry as it stands. -/
def grantTo (e : Option LocEnt) (a : BitVec 6) (g : BitVec 3) : Option LocEnt :=
  let v : BitVec 64 := match e with
    | some x => x.v
    | none => 0
  let va := setBit v a.toNat
  let alone := clearBit v a.toNat = 0
  if g = stF then some ⟨.sf, .fwd, a, va⟩
  else if g = stS then
    match e with
    | some x => some { x with v := va }
    | none => some ⟨.s, .shared, 0, va⟩
  else if g = stE then
    if alone then some ⟨.x, .excl, a, va⟩ else some ⟨.s, .excl, 0, va⟩
  else if g = stM then some ⟨.x, .excl, a, oneHot 64 a.toNat⟩
  else e

/-- Whether writing an entry for a line would need a spill buffer slot that is not free (05 R161). -/
def Core.allocBlocked (s : Core) (p : Nat) (l : LineAddr) (e : Option LocEnt) : Bool :=
  e.isSome && (s.lsPeek p l).isNone && s.spillFull p

/-- Deliver the completion of a local request, start its simmer time and end its barge; its berth entry is freed with the completion's
delivery (01 R45). The grant of a completion replaced for poison is I (11 R375). With keep, the entry stays until memory accepts its write
(04 R132). -/
def Core.finishLocal (p id : Nat) (op : BitVec 8) (g : BitVec 3) (data : Bool) (param : BitVec 16) (keep : Bool) (s : Core) : Core :=
  match s.barge? p id with
  | none => s
  | some b =>
    match s.bargeReq b with
    | none => s.endBarge p id
    | some r =>
      let bad := b.gotPoison && !isPoisonCmp op
      let op' := if bad then poisonCmp r.op r.h.hint else op
      let g' := if bad || isPoisonCmp op then stI else g
      let m := mkCmp op' r.h (s.epochOf b.line) s.self s.self g' data (if bad then 0 else param)
      let s := if g' != stI || op' = opCmpNear then s.startSimmer p b.line (.agent (agentLocal r.h.agent)) else s
      let s := if isPoisonCmp op' then s.bump p 0x00D 1 else s
      let s := s.endBarge p id
      let s := if s.tombed r.h.agent then (if keep then s else s.freeBerth r.id)
        else (s.onBerth r.id (fun r => { r with cmpWait := true, ended := !keep })).deliverCmp m
      if r.op = opWbD then s.task (.wbDone b.line) else s

/-- The end of the proxy's local round (03 R106). -/
def Core.rowDone (p id : Nat) (s : Core) : Core :=
  match s.barge? p id with
  | none => s
  | some b =>
    match s.bargeReq b with
    | none => s
    | some r =>
      let a := agentLocal r.h.agent
      let e := (s.lsPeek p b.line).map s.maskTomb
      -- an agent whose WB_D is on its way leaves the entry when that WB_D completes
      let e' := dropGone (b.locals.filter (fun n => !n.wbx)) e
      let ok := supplied b.locals
      -- dirty data for which no agent served the requester goes to the home ahead of the request: lost-line data of a dead owner (11 R395)
      let toHomeWith (e : Option LocEnt) (s : Core) : Core :=
        match b.dirty, b.locals.find? (fun n => match n.rsp with
            | some (op, _, _) => op = opRspD
            | none => false) with
        | some (d, q), some n =>
          let keep : Bool := match e with
            | some v => v.v.getLsbD n.loc.toNat
            | none => false
          let s := (s.makeOwnWb b.line (agentId s.self n.loc) keep d q b.lost b.dirtyEp).2
          ((s.onBarge p id (fun b => { b with dirty := none })).lsPut p b.line e).toHome p id
        | _, _ => (s.lsPut p b.line e).toHome p id
      let resolved (op : BitVec 8) (g : BitVec 3) (data : Bool) (e : Option LocEnt) (s : Core) : Core :=
        ((s.lsPut p b.line e).bump p 0x00A 1).finishLocal p id op g data 0 false
      if r.op = opRdS || r.op = opRdF then
        if ok then
          let own := match b.locals with
            | n :: _ => n.loc
            | [] => a
          -- dirty data the owner also returned goes to the home as a WB_D that keeps the line
          let s := match b.dirty with
            | some (d, q) => (s.makeOwnWb b.line (agentId s.self own) true d q b.lost b.dirtyEp).2
            | none => s
          let v : LocEnt := e'.getD ⟨.s, .excl, 0, 0⟩
          let va := setBit v.v a.toNat
          if s.profileE then
            let e2 : LocEnt := if va.getLsbD own.toNat then { v with st := .sf, owner := own, v := va }
                               else { v with st := .s, owner := 0, v := va }
            resolved opCmp stS true (some e2) s
          else resolved opCmp stF true (some { v with st := .sf, owner := a, v := va }) s
        else toHomeWith e' s
      else if r.op = opRdNa then
        if ok then resolved opCmp stI true e s else toHomeWith (if b.lost then e' else e) s
      else if r.op = opUpg && (match e with
          | some v => v.v.getLsbD a.toNat
          | none => false) then
        resolved opCmp stM false (some ⟨.x, .excl, a, oneHot 64 a.toNat⟩) s
      else
        let near := r.op = opAtom
        if ok && b.gotPoison then
          -- the line's only dirty copy is lost: its poison goes to the home, and the chip keeps no copy (11 R377)
          let own := match b.locals.find? (fun n => match n.rsp with
              | some (op, _, _) => op = opRspFwd || op = opRspD
              | none => false) with
            | some n => n.loc
            | none => a
          let s := match b.dirty with
            | some (d, _) => (s.makeOwnWb b.line (agentId s.self own) false d true b.lost b.dirtyEp).2
            | none => s
          resolved opCmp stI true none s
        else if ok then
          resolved (if near then opCmpNear else opCmp) stM true (some ⟨.x, .excl, a, oneHot 64 a.toNat⟩) s
        else toHomeWith e' s

/-! The home's snoop at a proxy (03 R107, R108). -/

/-- Local snoops R107 names for a snoop of the home. -/
def snoopRound (e : LocEnt) (op : BitVec 8) (hint : BitVec 4) : List (BitVec 6 × BitVec 8 × BitVec 4) :=
  let owned := e.st = LocSt.x || e.st = LocSt.sf
  if op = opSnpS then (if e.st = LocSt.x then [(e.owner, opSnpS, 0)] else [])
  else if op = opSnpFs then (if owned then [(e.owner, opSnpFs, hint)] else [])
  else if op = opSnpFo then
    if owned then (e.owner, opSnpFo, fwdM) ::
        ((agentsOf e.v).filter (fun l => l != e.owner)).map (fun l => (l, opSnpI, (0 : BitVec 4)))
    else (agentsOf e.v).map (fun l => (l, opSnpI, (0 : BitVec 4)))
  else if op = opSnpI then (agentsOf e.v).map (fun l => (l, opSnpI, hint &&& 4))
  else (if e.st = LocSt.x then [(e.owner, opSnpNa, 0)] else [])

/-- The entry after a snoop of the home, from the entry and the round's responses (03 R107). SNP_NA changes no entry (04 R129). -/
def snoopTo (e : LocEnt) (op : BitVec 8) (hint : BitVec 4) (ls : List LSnoop) : Option LocEnt :=
  let e' := dropGone ls (some e)
  let owned := e.st = LocSt.x || e.st = LocSt.sf
  if op = opSnpS then
    e'.map (fun v => if e.st = LocSt.x then { v with st := .s, rights := .shared, owner := 0 } else { v with rights := .shared })
  else if op = opSnpFs then
    if !owned then e'
    else if hint.extractLsb' 0 2 = (1 : BitVec 2) then e'.map (fun v => { v with st := .s, rights := .shared, owner := 0 })
    else e'.map (fun v => if v.v.getLsbD e.owner.toNat then { v with st := .sf, owner := e.owner, rights := .fwd }
                          else { v with rights := .fwd })
  else if op = opSnpFo || op = opSnpI then none
  else some e

/-- The aggregated response of R108: opcode, RESULT and FWDED, from the entry before and the agents that are left after. -/
def Core.aggregate (s : Core) (op : BitVec 8) (e : Option LocEnt) (after : Option LocEnt) (ls : List LSnoop) :
    BitVec 8 × BitVec 3 × Bool :=
  match e with
  | none => (if ls.any (fun n => n.wbx) then opRspWbx else opRspAbsent, stI, false)
  | some _ =>
    if ls.isEmpty then
      match after with
      | some _ => (opRspS, s.aggResult after ls, false)
      | none => (opRspAbsent, stI, false)
    else
      let o := strongestRsp (ls.filterMap (fun n => n.rsp.map (fun r => r.1)))
      let fwded := ls.any (fun n => match n.rsp with
        | some (q, _, f) => q = opRspD && f
        | none => false)
      let o' := if (op = opSnpFs || op = opSnpS || op = opSnpNa) && (o = opRspI || o = opRspAbsent) && after.isSome then opRspS else o
      (o', s.aggResult after ls, fwded)

/-- The home's snoop of this chip that a barge works on: its intake entry's, or the own-chip snoop of a local home (04 R123). -/
def Core.ownSnoop (s : Core) (b : Barge) : Option (BitVec 8 × BitVec 4) :=
  match b.item with
  | .snoop iid => (s.host.intake.find? (fun i => i.id = iid)).map (fun i => (i.op, i.h.hint))
  | _ => (b.chips.find? (fun n => n.chip = s.self && n.rsp.isNone)).map (fun n => (n.op, n.hint))

/-- Whether a snoop asks for ownership (03 R105). -/
def snoopOwns (op : BitVec 8) : Bool := op = opSnpFo || op = opSnpI

/-- The chip's answer to the home's snoop, with the To state applied: opcode, RESULT and FWDED (03 R107, R108). The agents that answered RESULT
I count as gone in it. A DAT_M that was forwarded with POISON 1 is told to the home as well (11 R377). -/
def Core.chipAnswer (p : Nat) (b : Barge) (op : BitVec 8) (hint : BitVec 4) (s : Core) : (BitVec 8 × BitVec 3 × Bool) × Core :=
  let e := (s.lsPeek p b.line).map s.maskTomb
  let after := match e with
    | some v => snoopTo v op hint b.locals
    | none => none
  let left := if op = opSnpNa then dropGone b.locals e else after
  let r := s.aggregate op e left b.locals
  let r := if b.gotPoison && r.1 = opRspFwd && b.dirty.isSome then (opRspD, r.2.1, true) else r
  (r, if e.isSome then s.lsPut p b.line after else s)

/-- Finish a snoop barge: apply the To state, send any dirty data and then the one response, return the snoop credit, free
the intake entry (04 R121, 06 R194). -/
def Core.snoopDone (p id : Nat) (s : Core) : Core :=
  match s.barge? p id with
  | none => s
  | some b =>
    match b.item with
    | .snoop iid =>
      match s.host.intake.find? (fun i => i.id = iid) with
      | none => s.endBarge p id
      | some it =>
        let (r, s) := s.chipAnswer p b it.op it.h.hint
        let home := it.h.srci
        let h : Hdr := { it.h with hint := (BitVec.ofBool r.2.2) ++ r.2.1, poison := false, credit := false, param := 0, peer := 0 }
        let h : Hdr := { h with srci := s.self, dsti := home }
        let answer : Msg := ⟨r.1, h, none⟩
        let s := match b.dirty with
          | some (d, q) =>
            let m := mkDat opDatM it.h it.h.epoch s.self home (if b.lost then 3 else 1) true q (Beats.line d)
            if home = s.self then ((s.sendInst home m).leaves m).sendInst home answer
            else (s.sendChipData b.dirtyEp b.stamp m [answer, creditMsg s.self home 3 0 1]).leaves m
          | none =>
            let s := s.sendInst home answer
            if home = s.self then s else s.sendCredit home 3 0 1
        let s := s.leaves answer
        let s := s.onHost (fun x => { x with intake := x.intake.filter (fun i => i.id != iid) })
        (s.endBarge p id).task .reserveFree
    | _ => s

/-! Resolution of UNKNOWN entries (03 R105). -/

/-- The resolved entry: agents with RESULT I leave V; SF with the F agent as owner, S, or none (03 R105). -/
def resolveTo (e : LocEnt) (ls : List LSnoop) : Option LocEnt :=
  match dropGone ls (some e) with
  | none => none
  | some v =>
    match ls.find? (fun n => match n.rsp with
        | some (_, r, _) => r = stF
        | none => false) with
    | some n => some { v with st := .sf, owner := n.loc }
    | none => some { v with st := .s, owner := 0 }

/-- The local part of a chip snoop is over: finish the snoop barge, or give a home's own barge its answer (04 R123). -/
def Core.chipDone (p id : Nat) (s : Core) : Core :=
  match s.barge? p id with
  | none => s
  | some b =>
    match b.item, s.ownSnoop b with
    | .snoop _, _ => s.snoopDone p id
    | _, some (op, hint) =>
      let (r, s) := s.chipAnswer p b op hint
      let s := s.onBarge p id (fun b => { b with
        chips := updateWhere (fun n => n.chip = s.self) (fun n => { n with sent := true, rsp := some r }) b.chips
        locals := []
        roundFor := .none
        awaitWb := if r.1 = opRspWbx && !b.wbFrom.contains s.self then b.awaitWb ++ [s.self] else b.awaitWb })
      s.task (.advance p id)
    | _, _ => s

/-- Act for the line with an entry that is not UNKNOWN: the home's snoop of R107, or the row of R106. A RSP_WBX of a resolution counts
in the answer to the home (03 R109). -/
def Core.actOnEntry (p id : Nat) (e : Option LocEnt) (s : Core) : Core :=
  match s.barge? p id with
  | none => s
  | some b =>
    match s.ownSnoop b with
    | some (op, hint) =>
      let l := match e with
        | some v => snoopRound v op hint
        | none => []
      let told := b.locals.filter (fun n => n.wbx)
      (s.startRound p id .chip l).onBarge p id (fun b => { b with locals := told ++ b.locals })
    | none => s.proxyRow p id e

/-- Go on with a line's entry: an UNKNOWN one is resolved first, with SNP_S, or with SNP_I for an ownership snoop (03 R105).
A replayed grant goes on with the entry as it stands (11 R387). -/
def Core.withEntry (p id : Nat) (e : Option LocEnt) (s : Core) : Core :=
  match s.barge? p id, e with
  | some b, some v =>
    if b.phase = .granted then (s.onBarge p id (fun b => { b with replay := false })).task (.advance p id)
    else if v.st = LocSt.unknown then
      let inv := match s.ownSnoop b with
        | some (op, _) => snoopOwns op
        | none => false
      s.startRound p id (if inv then .resolveInv else .resolve)
        ((agentsOf v.v).map (fun l => (l, if inv then opSnpI else opSnpS, (0 : BitVec 4))))
    else s.actOnEntry p id e
  | some b, none =>
    if b.phase = .granted then (s.onBarge p id (fun b => { b with replay := false })).task (.advance p id)
    else s.actOnEntry p id none
  | none, _ => s

/-- The end of a resolution (03 R105, 05 R162). Dirty data goes to the home as a WB_D with KEEP 1 under its agent's ID. -/
def Core.resolveDone (p id : Nat) (s : Core) : Core :=
  match s.barge? p id with
  | none => s
  | some b =>
    match s.lsPeek p b.line with
    | none => s.actOnEntry p id none
    | some e =>
      let dest := resolveTo (s.maskTomb e) b.locals
      let s := s.lsPut p b.line dest
      match b.dirty, b.locals.find? (fun n => match n.rsp with
          | some (op, _, _) => op = opRspD
          | none => false) with
      | some (d, q), some n =>
        let a := agentId s.self n.loc
        let (t, s) := s.makeOwnWb b.line a true d q b.lost b.dirtyEp
        s.onBarge p id (fun b => { b with
          locals := b.locals.filter (fun n => n.wbx)
          dirty := none
          roundFor := .resolveWb
          wbTags := [(a, t)] })
      | _, _ => (s.onBarge p id (fun b => { b with locals := b.locals.filter (fun n => n.wbx) })).actOnEntry p id dest

/-- The end of a resolution for an ownership snoop: data is forwarded to the requester as DAT_M for SNP_FO, and goes to the
home for SNP_I; the rules of R107 then answer (03 R105). -/
def Core.resolveInvDone (p id : Nat) (s : Core) : Core :=
  match s.barge? p id with
  | none => s
  | some b =>
    match s.ownSnoop b, b.dirty with
    | some (op, _), some (d, q) =>
      if op = opSnpFo then
        let h := s.bargeHdr b
        let s := s.sendData (s.fport (match b.locals.find? (fun n => match n.rsp with
            | some (o, _, _) => o = opRspD
            | none => false) with
          | some n => n.loc
          | none => 0)) b.stamp (mkDat opDatM h (s.epochOf b.line) s.self (agentInst h.agent) (if b.lost then 3 else 1) false q (Beats.line d))
        let s := s.onBarge p id (fun b => { b with
          gotPoison := b.gotPoison || q
          dirty := if q then b.dirty else none
          locals := updateWhere (fun n => match n.rsp with
              | some (o, _, _) => o = opRspD
              | none => false) (fun n => { n with rsp := some (opRspFwd, stI, false), fwd := true }) b.locals })
        s.chipDone p id
      else s.chipDone p id
    | _, _ => s.chipDone p id

/-- Whether the WB_Ds that a resolution sent have their completions (05 R162). -/
def Core.resolveWbDone (s : Core) (b : Barge) : Bool :=
  b.wbTags.all (fun e => !s.host.berths.any (fun r => r.own && r.h.agent = e.1 && r.h.tag = e.2))

/-- The entry a head acts on after R396: an X entry of a tombstoned owner, or UNKNOWN with no agent left, is freed and
lost-line data goes to the home under the owner's ID. -/
def Core.reapDead (p : Nat) (l : LineAddr) (s : Core) : Core :=
  match s.lsPeek p l with
  | none => s
  | some e =>
    let v := s.maskTomb e
    if v.v = 0 then
      let s := s.lsPut p l none
      if e.st = LocSt.x || e.st = LocSt.unknown then
        let o := if e.st = LocSt.x then e.owner else (agentsOf e.v).headD 0
        (s.makeOwnWb l (agentId s.self o) false lostLine true true (epSkl p)).2
      else s
    else if (e.st = LocSt.sf) && !v.v.getLsbD e.owner.toNat then s.lsPut p l (some { v with st := .s, owner := 0 })
    else if v = e then s else s.lsPut p l (some v)

/-- Look up a line's entry for a barge and go on with it (05 R160): in the Sieve, the spill buffer or the engine's own copies,
which are recalled (06 R215); else in the Overflow Larder when it may hold the line. A recall that may need a spill buffer slot waits for a
free one (05 R161). -/
def Core.lookupEntry (p id : Nat) (s : Core) : Core :=
  match s.barge? p id with
  | none => s
  | some b =>
    let s := s.reapDead p b.line
    match s.lsPeek p b.line with
    | some e =>
      let here := ((s.slice p).lsFind b.line).isSome
      if !here && !(s.slice p).spill.any (fun v => v.line = b.line) && s.spillFull p then
        s.onBarge p id (fun b => { b with roundFor := .lookup })
      else
        let s := if here then (s.lsTouch p b.line).bump p 0x013 1 else s.lsPut p b.line (some e)
        (s.onBarge p id (fun b => { b with roundFor := .none })).withEntry p id (some (s.maskTomb e))
    | none =>
      if s.needsOvf p b.line then
        (s.onBarge p id (fun b => { b with roundFor := .lookup })).ovfAdd (.lookup p id) b.line none
      else (s.onBarge p id (fun b => { b with roundFor := .none })).withEntry p id none

/-- A miss in open mode or on a tainted line installs an UNKNOWN entry, once the spill buffer has a slot for a victim (05 R160, R161, R169). One
whose agents are all dead is handled as found at its next use (11 R396), and one without any agent is no entry (05 R161). -/
def Core.installUnknown (p id : Nat) (line : LineAddr) (s : Core) : Core :=
  let u := s.unknownEnt
  if (s.maskTomb u).v = 0 then
    let s := match agentsOf u.v with
      | [] => s
      | a :: _ => (s.makeOwnWb line (agentId s.self a) false lostLine true true (epSkl p)).2
    (s.onBarge p id (fun b => { b with roundFor := .none })).withEntry p id none
  else if s.spillFull p then s
  else ((s.lsAlloc p line u).bump p 0x018 1).lookupEntry p id

/-- An Overflow lookup for a barge has ended: the entry found is recalled; in open mode or on a tainted line a miss installs an
UNKNOWN entry (05 R160, R169). -/
def Core.entryFound (p id : Nat) (e : Option LocEnt) (s : Core) : Core :=
  match s.barge? p id with
  | none => s
  | some b =>
    if b.roundFor != .lookup then s
    else match b.item, e with
      | .internal _, e => s.task (.tidied p id e)
      | _, some v =>
        let s := s.onSlice p (fun x => { x with spillCnt := spillDown x.spillCnt (lsSet b.line) })
        ((s.lsAlloc p b.line v).bump p 0x014 1).lookupEntry p id
      | _, none =>
        if s.openMode b.line || s.tainted b.line then s.installUnknown p id b.line
        else (s.onBarge p id (fun b => { b with roundFor := .none })).withEntry p id none

/-! What a home's completion does (03 R106, 04 R117, R118). -/

/-- The completion whose To state has been applied leaves with its data's last beat (04 R117). -/
def Core.grantDone (p id : Nat) (s : Core) : Core :=
  match s.barge? p id with
  | none => s
  | some b =>
    match b.cmp, b.applied, s.bargeReq b with
    | some m, some g, some r =>
      let data := m.h.hint.getLsbD 3
      if data && !b.gotData && !s.tombed r.h.agent then s else s.finishLocal p id m.op g data m.h.param false
    | _, _, _ => s

/-- The GRANT and the entry that a completion's grant g gives agent a over entry e (03 R106). An E grant becomes S while other agents of the
chip hold the line, or when its data has gone out as DAT_S; one whose data has gone out as DAT_E stays E. -/
def grantEntry (e : Option LocEnt) (a : BitVec 6) (g : BitVec 3) (gotE asS : Bool) : BitVec 3 × Option LocEnt :=
  let others := match e with
    | some v => clearBit v.v a.toNat != 0
    | none => false
  if g = stI then (g, e)
  else if g = stE && gotE then (g, some ⟨.x, .excl, a, oneHot 64 a.toNat⟩)
  else if g = stE && asS && !others then (stS, some ⟨.s, .excl, 0, oneHot 64 a.toNat⟩)
  else (if g = stE && others then stS else g, grantTo e a g)

/-- A home's completion is at its proxy, or a grant waits for a spill buffer slot: other local holders are invalidated, the To state is
applied, and the completion leaves (03 R106, 04 R117, R118, R124). A replayed request's entry is looked up first, in open mode as R169 has
it (11 R387). -/
def Core.grantStep (p id : Nat) (s : Core) : Core :=
  match s.barge? p id with
  | none => s
  | some b =>
    match b.cmp, s.bargeReq b with
    | some m, some r =>
      let g0 := readState (m.h.hint.extractLsb' 0 3)
      if b.applied.isSome then s.grantDone p id
      else if b.replay && g0 != stI then s.lookupEntry p id
      else
        let a := agentLocal r.h.agent
        let g := if isPoisonCmp m.op || b.gotPoison then stI else g0
        let e := (s.lsPeek p b.line).map s.maskTomb
        let co := if g = stM then match e with
            | some v => (agentsOf v.v).filter (fun l => l != a)
            | none => []
          else []
        if r.op = opWbD then (s.dropWriter p b.line a).finishLocal p id m.op stI false 0 false
        else if !co.isEmpty then s.startRound p id .coHolders (co.map (fun l => (l, opSnpI, (0 : BitVec 4))))
        else
          let (g', e') := grantEntry e a g (b.gotData && !b.asS) b.asS
          if g != stI && s.allocBlocked p b.line e' then s
          else
            let s := if g = stI || s.tombed r.h.agent then s else s.lsPut p b.line e'
            (s.onBarge p id (fun b => { b with applied := some g' })).grantDone p id
    | _, _ => s.endBarge p id

end Sys2Proof.Machine
end

