-- ==== Sys2Proof/Machine/HomePlan.lean ====
section
/-!
DEFINITION. Sys2Proof/Machine/HomePlan.lean: the home's decision as data (03 R99 to R103): which chips it snoops, where the
requester's data comes from, the To state, and the record after the responses.
-/
namespace Sys2Proof.Machine

/-- Two instances in one drawer (03 R76). -/
def Core.sameDrawer (s : Core) (a b : BitVec 6) : Bool :=
  let lg := bits (s.reg offDomainCfg) 4 2
  a.toNat >>> lg = b.toNat >>> lg

/-- The drawer rule applied to a profile and a drawer size, as plain data for `planOf`. -/
structure PlanCfg where
  profileE : Bool
  drawerLg : Nat
  members : List (BitVec 6)
  deriving DecidableEq, Repr

/-- The plan configuration in force. -/
def Core.planCfg (s : Core) : PlanCfg := ⟨s.profileE, bits (s.reg offDomainCfg) 4 2, s.members⟩

/-- A plan with its data opcode and grant. -/
def mkPlan (w : Work) (r : HomeRec) (sup : Supply) (dat : BitVec 8) (cmp : BitVec 8) (g : BitVec 3) : Plan :=
  ⟨w, r, sup, dat, cmp, g, 0, false, false, false⟩

/-- Chips a record lists, without some chip (03 R99). -/
def HomeRec.listedBut (r : HomeRec) (k : PlanCfg) (c : BitVec 6) : List (BitVec 6) :=
  (r.chips.named k.members).filter (fun d => d != c)

/-- The home's row for shared reads (03 R101). -/
def planRead (k : PlanCfg) (c : BitVec 6) (r : HomeRec) : Plan × List (BitVec 6 × BitVec 8 × BitVec 4) :=
  let datF := mkPlan .read r .memory opDatF opCmp stF
  let datS := mkPlan .read r .memory opDatS opCmp stS
  let same (d : BitVec 6) : Bool := c.toNat >>> k.drawerLg = d.toNat >>> k.drawerLg
  match r.st with
  | .s =>
    if k.profileE then ({ datS with toRec := { r with chips := r.chips.add c } }, [])
    else ({ datF with toRec := ⟨.sf, c, r.chips.add c⟩ }, [])
  | .sf =>
    if r.owner = c then (if k.profileE then datS else datF, [])
    else if !k.profileE then
      ({ datF with toRec := ⟨.sf, c, r.chips.add c⟩, supply := .forward }, [(r.owner, opSnpFs, fwdF)])
    else if same r.owner then
      ({ datS with toRec := { r with chips := r.chips.add c }, supply := .forward }, [(r.owner, opSnpFs, fwdS)])
    else ({ datS with toRec := { r with chips := r.chips.add c } }, [])
  | .x =>
    if r.owner = c then
      if k.profileE then (mkPlan .read ⟨.x, c, .ptrs []⟩ .memory opDatE opCmp stE, [])
      else ({ datF with toRec := ⟨.sf, c, .ptrs [c]⟩ }, [])
    else
      let both := Chips.add c (.ptrs [r.owner])
      if !k.profileE then ({ datF with toRec := ⟨.sf, c, both⟩, supply := .forward }, [(r.owner, opSnpFs, fwdF)])
      else if same r.owner then
        ({ datS with toRec := ⟨.sf, r.owner, both⟩, supply := .forward }, [(r.owner, opSnpFs, fwdS)])
      else ({ datS with toRec := ⟨.s, 0, both⟩ }, [(r.owner, opSnpS, 0)])
  | _ =>
    if k.profileE then (mkPlan .read ⟨.x, c, .ptrs []⟩ .memory opDatE opCmp stE, [])
    else ({ datF with toRec := ⟨.sf, c, .ptrs [c]⟩ }, [])

/-- The home's row for RD_O and a near ATOM (03 R101). -/
def planOwn (k : PlanCfg) (c : BitVec 6) (r : HomeRec) (cmp : BitVec 8) : Plan × List (BitVec 6 × BitVec 8 × BitVec 4) :=
  let base := mkPlan .own ⟨.x, c, .ptrs []⟩ .memory opDatM cmp stM
  let inv (l : List (BitVec 6)) := l.map (fun d => (d, opSnpI, (0 : BitVec 4)))
  match r.st with
  | .s => (base, inv (r.listedBut k c))
  | .sf =>
    if r.owner = c then (base, inv (r.listedBut k c))
    else ({ base with supply := .forward },
      (r.owner, opSnpFo, fwdM) :: inv ((r.listedBut k c).filter (fun d => d != r.owner)))
  | .x => if r.owner = c then (base, []) else ({ base with supply := .forward }, [(r.owner, opSnpFo, fwdM)])
  | _ => (base, [])

/-- The home's row for UPG: with c listed in S or SF, invalidation alone; otherwise as RD_O (03 R101). -/
def planUpg (k : PlanCfg) (c : BitVec 6) (r : HomeRec) : Plan × List (BitVec 6 × BitVec 8 × BitVec 4) :=
  if (r.st = RecSt.s || r.st = RecSt.sf) && r.chips.lists c then
    (mkPlan .upg ⟨.x, c, .ptrs []⟩ .none opDatM opCmp stM,
      (r.listedBut k c).map (fun d => (d, opSnpI, (0 : BitVec 4))))
  else planOwn k c r opCmp

/-- The home's row for RD_NA (03 R101). -/
def planNa (c : BitVec 6) (r : HomeRec) : Plan × List (BitVec 6 × BitVec 8 × BitVec 4) :=
  let base := mkPlan .na r .memory opDatNa opCmp stI
  if r.st = RecSt.x && r.owner != c then ({ base with supply := .forward }, [(r.owner, opSnpNa, 0)]) else (base, [])

/-- Snoops of the writing rows: the listed chips, c included, or the owner (03 R101). -/
def writeSnoops (k : PlanCfg) (r : HomeRec) (dropOnX : Bool) : List (BitVec 6 × BitVec 8 × BitVec 4) :=
  match r.st with
  | .s | .sf => (r.chips.named k.members).map (fun d => (d, opSnpI, (4 : BitVec 4)))
  | .x => [(r.owner, opSnpI, if dropOnX then 4 else 0)]
  | _ => []

/-- The home's row for WR_FULL (03 R101, 04 R133). -/
def planWrFull (k : PlanCfg) (r : HomeRec) : Plan × List (BitVec 6 × BitVec 8 × BitVec 4) :=
  (mkPlan .wrFull HomeRec.none .none opDatNa opCmp stI, writeSnoops k r true)

/-- The home's row for WR_PART and a far ATOM (03 R101, 04 R134). -/
def planPart (k : PlanCfg) (r : HomeRec) (w : Work) (cmp : BitVec 8) : Plan × List (BitVec 6 × BitVec 8 × BitVec 4) :=
  ({ mkPlan w HomeRec.none .none opDatNa cmp stI with fromX := r.st = RecSt.x }, writeSnoops k r false)

/-- Whether a chip answered with RESULT I (03 R103). -/
def goneChip (chips : List CSnoop) (d : BitVec 6) : Bool :=
  chips.any (fun n => n.chip = d && (match n.rsp with
    | some (_, st, _) => st = stI
    | none => false))

/-- One chip's response applied to a record (03 R103): a chip that answered with RESULT I leaves it. A pair's bit is cleared when
the other chip of the pair also answered so, or is no member. -/
def tidyChip (k : PlanCfg) (chips : List CSnoop) (keep : BitVec 6) (n : CSnoop) (r : HomeRec) : HomeRec :=
  if goneChip chips n.chip && n.chip != keep then
    let pair : BitVec 6 := n.chip ^^^ 1
    r.tidy n.chip ((goneChip chips pair || !k.members.contains pair) && pair != keep)
  else r

/-- The record after every response, and how many of them tidied it: those that changed it (03 R103). -/
def tidyAll (k : PlanCfg) (chips : List CSnoop) (keep : BitVec 6) (r : HomeRec) : HomeRec × Nat :=
  chips.foldl (fun (r : HomeRec × Nat) n =>
    let t := tidyChip k chips keep n r.1
    (t, if t = r.1 then r.2 else r.2 + 1)) (r, 0)

/-- Whether the owner of an X record answered RSP_ABSENT: the request is served as from I (03 R103). -/
def ownerAbsent (r : HomeRec) (chips : List CSnoop) : Bool :=
  r.st = RecSt.x && chips.any (fun n => n.chip = r.owner && (match n.rsp with
    | some (op, _, _) => op = opRspAbsent
    | none => false))

/-- Whether a snooped chip forwarded data to the requester. -/
def chipSupplied (chips : List CSnoop) : Bool :=
  chips.any (fun n => match n.rsp with
    | some (op, _, f) => op = opRspFwd || (op = opRspD && f)
    | none => false)

end Sys2Proof.Machine
end

