-- ==== Sys2Proof/Machine/Gate.lean ====
section
/-!
DEFINITION. Sys2Proof/Machine/Gate.lean: the Gates of the six memory engines: regions, default maps, refusals and pauses
(16 R549 to R558).
-/
namespace Sys2Proof.Machine

/-- Access kinds of a Gate (16 R553): read 0, write 1, execute 2. -/
def gRead : Nat := 0
def gWrite : Nat := 1
def gExec : Nat := 2

/-- Gate indices (16 R549). -/
def gateLarder : Nat := 0
def gateOvf : Nat := 1
def gateScrub : Nat := 2
def gateDump : Nat := 3
def gateLogbook : Nat := 4
def gateOverlay : Nat := 5

/-- Offset of a Gate's registers (16 R553). -/
def offGate (e : Nat) : Nat := 0x44000 + e * 0x200

/-- Engine privilege: SERVICE 0, HOST 1, USER 2 (16 R553). -/
def Core.gatePriv (s : Core) (e : Nat) : Nat := Nat.min 2 (bits (s.reg (offGate e)) 1 0)
/-- GATE_CTL.PAUSE (16 R556). -/
def Core.gatePaused (s : Core) (e : Nat) : Bool := bit (s.reg (offGate e)) 2
/-- GATE_CTL.UPDATE (16 R557). -/
def Core.gateUpdate (s : Core) (e : Nat) : Bool := bit (s.reg (offGate e)) 3

/-- Whether region r of a Gate matches a byte address (16 R550). -/
def Core.gateMatch (s : Core) (e r pa : Nat) : Bool :=
  let a := s.reg (offGate e + 0x100 + r * 0x10)
  let lg := Nat.min 56 (Nat.max 11 (bits a 6 1))
  let base := (bits a 55 11 * 2048) >>> lg
  bit a 0 && pa >>> lg = base && !bit a (56 + (pa >>> (lg - 3)) % 8)

/-- The permission of region r for a kind and a privilege (16 R553). -/
def Core.gatePerm (s : Core) (e r kind priv : Nat) : Bool := bit (s.reg (offGate e + 0x108 + r * 0x10)) (3 * priv + kind)

/-- The range entry, RESV or not, that gives an address to this instance (16 R549). -/
def Core.ownRange (s : Core) (pa : Nat) : Option Range :=
  s.ranges.find? (fun e => e.covers pa && e.homeOf pa = s.self)

/-- Whether a Gate permits an access by its first byte (16 R549 to R552, R557). -/
def Core.gatePermits (s : Core) (e kind pa : Nat) : Bool :=
  if s.gateUpdate e then true else
  match s.ownRange pa with
  | none => false
  | some g =>
    let resvOnly := kind = gWrite && (e = gateLarder || e = gateOvf || e = gateScrub)
    if resvOnly && !g.resv then false else
    let priv := s.gatePriv e
    match ((List.range 16).filter (fun r => s.gateMatch e r pa)).getLast? with
    | some r => s.gatePerm e r kind priv
    | none =>
      if priv = 0 then (kind != gExec || g.resv)
      else if priv = 1 then (kind != gExec && !g.resv)
      else false

/-- A refused access: REFUSED counts it, GATE_FADDR records it, and GATE_FAULT is raised (16 R554). -/
def Core.gateRefuse (e kind pa : Nat) (s : Core) : Core :=
  let st := s.reg (offGate e + 8)
  let s := s.setReg (offGate e + 8) (withBits st 16 1 (Nat.min 0xFFFF (bits st 16 1 + 1)))
  let s := s.setReg (offGate e + 0x10) (at' pa 0 ||| at' kind 56)
  s.raise famGateFault e

end Sys2Proof.Machine
end

