-- ==== Sys2Proof/Machine/Overflow.lean ====
section
/-!
DEFINITION. Sys2Proof/Machine/Overflow.lean: the Overflow engine: slots of a bucket, lookups, cuckoo insertion, the stash, the
taint list, open mode and census requests (05 R164 to R172).
-/
namespace Sys2Proof.Machine

/-! Slots (05 R164). -/

/-- Bits of slot s of a bucket as a number. -/
def slotBits (d : LineData) (s : Nat) : Nat := (d >>> (256 * s)).toNat % 2 ^ 256
/-- A field of a number: n bits from bit lo. -/
def natField (v lo n : Nat) : Nat := (v >>> lo) % 2 ^ n

/-- VALID of a slot. -/
def slotValid (d : LineData) (s : Nat) : Bool := natField (slotBits d s) 0 1 = 1
/-- GEN of a slot. -/
def slotGen (d : LineData) (s : Nat) : BitVec 48 := BitVec.ofNat 48 (natField (slotBits d s) 128 48)
/-- LINE of a slot. -/
def slotLine (d : LineData) (s : Nat) : LineAddr := BitVec.ofNat 48 (natField (slotBits d s) 16 48)
/-- The entry of a slot. -/
def slotEnt (d : LineData) (s : Nat) : LocEnt :=
  let x := slotBits d s
  ⟨readLocSt (natField x 1 3), readRights (natField x 4 2), BitVec.ofNat 6 (natField x 6 6), BitVec.ofNat 64 (natField x 64 64)⟩

/-- Whether a slot holds a live entry: VALID, its ECC good, and of the current generation. -/
def Core.slotLive (s : Core) (d : LineData) (bad : BitVec 8) (k : Nat) : Bool :=
  slotValid d k && !bad.getLsbD k && slotGen d k = s.eng.generation

/-- A slot's 256 bits for an entry; its SECDED code, whose layout the spec does not give, is a free value. -/
def Core.slotWord (s : Core) (l : LineAddr) (e : LocEnt) : Nat :=
  1 + (e.st.code <<< 1) + (e.rights.code <<< 4) + (e.owner.toNat <<< 6) + (l.toNat <<< 16) + (e.v.toNat <<< 64) +
    (s.eng.generation.toNat <<< 128) + ((Config.freeWord s.freeCtr).toNat % 512 <<< 176)

/-! Open mode and census requests (05 R170, R171). -/

/-- The slice hash values that a set of logical slices covers under TRIM. -/
def Core.hashMask (s : Core) (ls : BitVec 16) : BitVec 16 :=
  (List.range 16).foldl (fun m h => if ls.getLsbD (logicalOf s.host.trim (BitVec.ofNat 4 h)) then setBit m h else m) 0

/-- Send a census request for some logical slices to every instance (05 R171, 09 R301). -/
def Core.censusRequest (ls : BitVec 16) (s : Core) : Core :=
  let all := s.hashMask ls = BitVec.allOnes 16
  let n := s.eng.censusSeq + 1
  let s := s.onEng (fun g =>
    { g with
      censusSeq := n
      censusEnds := []
      censusTaints := if all then g.taints else if g.censusRun && g.censusAll then g.censusTaints else []
      censusAll := all || (g.censusRun && g.censusAll)
      censusRun := true })
  let mask := s.hashMask ls
  foldS (fun i s =>
    let h : Hdr := { Hdr.zero with tag := n.setWidth 10, srci := s.self, dsti := i, param := mask }
    s.sendInst i ⟨0xC2, h, none⟩) s.members s

/-- Open mode starts for some logical slices (05 R170). -/
def Core.openStart (ls : BitVec 16) (s : Core) : Core :=
  (s.onEng (fun g => { g with lsOpen := g.lsOpen ||| ls })).censusRequest ls

/-- Every logical slice in use under TRIM. -/
def Core.allLogical (s : Core) : BitVec 16 :=
  if s.host.trim = 1 then 0xFF else if s.host.trim = 2 then 0xF else 0xFFFF

/-- Add a bucket to the taint list and send a census request for every logical slice; a full list opens every logical slice
instead (05 R168). -/
def Core.taintAdd (b : Nat) (s : Core) : Core :=
  if s.eng.taints.contains b then s.censusRequest s.allLogical
  else if 16 ≤ s.eng.taints.length then s.openStart s.allLogical
  else (s.onEng (fun g => { g with taints := g.taints ++ [b] })).censusRequest s.allLogical

/-- Whether an item of the snoop intake is a census page whose lines are still to be inserted. -/
def SnoopItem.censusPage (i : SnoopItem) : Bool := i.op = opSnpQ && i.h.hint.extractLsb' 0 2 = (1 : BitVec 2)

/-- The end of a census (05 R168, R172): the latest number's census-end has come from every instance, every census page has been worked on, and
every insertion it caused has been accepted. -/
def Core.censusCheck (s : Core) : Core :=
  if s.eng.censusRun && s.members.all (fun i => s.eng.censusEnds.contains i) && s.eng.censusInserts = 0 &&
      !s.host.intake.any SnoopItem.censusPage then
    s.onEng (fun g =>
      { g with
        lsOpen := 0
        censusRun := false
        censusAll := false
        taints := if g.censusAll then g.taints.filter (fun b => !g.censusTaints.contains b) else g.taints })
  else s

/-! Jobs. -/

/-- The buckets a job uses. -/
def Core.jobBuckets (s : Core) (j : OJob) : List Nat :=
  match j.op with
  | .scrub b => [b]
  | .sweep b _ => [b]
  | .move b => [b]
  | _ => s.candidates j.line

/-- The Gate a job's accesses pass. -/
def jobGate (j : OJob) : Nat :=
  match j.op with
  | .scrub _ => gateScrub
  | _ => gateOvf

/-- Update a job. -/
def Core.onJob (i : Nat) (f : OJob → OJob) (s : Core) : Core :=
  s.onEng (fun g => { g with ovf := updateWhere (fun j => j.id = i) f g.ovf })
/-- A job. -/
def Core.job? (s : Core) (i : Nat) : Option OJob := s.eng.ovf.find? (fun j => j.id = i)
/-- End a job; waiting jobs may start. -/
def Core.endJob (i : Nat) (s : Core) : Core :=
  (s.onEng (fun g => { g with ovf := g.ovf.filter (fun j => j.id != i) })).task .ovfPump

/-- Byte address of a bucket. -/
def Core.bucketPa (s : Core) (b : Nat) : Nat := (linePa (s.bucketLine b)).toNat

/-- Read one bucket for a job; a refused read taints the bucket, or skips it for the walk (16 R555). Before the first generation
advance every slot counts as free without a memory access (15 R513). -/
def Core.readBucket (j : OJob) (b : Nat) (s : Core) : Core :=
  let g := jobGate j
  if s.eng.generation = 0 then s.task (.bucket j.id b 0 0)
  else if s.gatePermits g gRead (s.bucketPa b) then s.readLine (s.bucketLine b) (.overflow j.id b)
  else
    let s := s.gateRefuse g gRead (s.bucketPa b)
    match j.op with
    | .scrub _ => s.endJob j.id
    | _ => (s.taintAdd b).task (.bucket j.id b 0 0)

/-- Start a waiting job. -/
def Core.startJob (j : OJob) (s : Core) : Core :=
  let bs := s.jobBuckets j
  let s := s.onJob j.id (fun j => { j with started := true, awaited := bs })
  foldS (Core.readBucket j) bs s

/-- Whether an insertion displaces entries, or one waits homeless: one at a time goes through the one move register (05 R166, R167). -/
def Core.insertBusy (s : Core) : Bool :=
  s.eng.move.isSome || s.eng.ovf.any (fun j => match j.op with
    | .insert (some _) _ | .insert none true | .move _ => true
    | _ => false)

/-- The next line of a census whose UNKNOWN entry waits to be inserted, when the move register is free; a line that has an entry by now
needs none (05 R172). -/
def Core.censusNext (s : Core) : Core :=
  match s.eng.insQ with
  | [] => s
  | x :: l =>
    if s.insertBusy then s
    else
      let p := s.physOfLine x
      let s := s.onEng (fun g => { g with insQ := l })
      if (s.lsPeek p x).isSome then
        let s := if p < 18 then s.onSlice p (fun y => { y with spillCnt := spillDown y.spillCnt (lsSet x) }) else s
        ((s.onEng (fun g => { g with censusInserts := g.censusInserts - 1 })).task .ovfPump).task .censusCheck
      else (s.onEng (fun g => { g with ovfCount := g.ovfCount + 1 })).ovfAdd (.insert none true) x (some s.unknownEnt)

/-- Start every job that may start: no earlier job uses one of its buckets, its Gate is not paused, and no power-fail hold
stops the engine (05 R166, 16 R556, 08 R271). -/
def Core.ovfPump (s : Core) : Core :=
  let s := s.censusNext
  foldS (fun (j : OJob) s =>
    match s.job? j.id with
    | none => s
    | some j =>
      let before := s.eng.ovf.takeWhile (fun k => k.id != j.id)
      if j.started || s.pf.hold || s.gatePaused (jobGate j) ||
          before.any (fun k => (s.jobBuckets k).any (fun b => (s.jobBuckets j).contains b)) then s
      else s.startJob j) s.eng.ovf s

/-- Write one slot of a bucket: VALID 0 for none (05 R160, R168). A refused write is discarded. Answers whether it was made. -/
def Core.writeSlot (j : OJob) (b k : Nat) (w : Nat) (s : Core) : Bool × Core :=
  let g := jobGate j
  if s.gatePermits g gWrite (s.bucketPa b + 32 * k) then
    let s := s.onJob j.id (fun j => { j with writes := j.writes + 1 })
    (true, (s.queueWrite (s.bucketLine b) (BitVec.ofNat 2048 (w <<< (256 * k))) (maskAt (32 * k) 32) false (.overflow j.id)
      s.arrival false none none none).2)
  else (false, s.gateRefuse g gWrite (s.bucketPa b + 32 * k))

/-- Slots of a bucket that fail their ECC and held an entry of this generation: VALID is cleared, the bucket is tainted and
OVF_ECC raised (05 R168). -/
def Core.badSlots (j : OJob) (b : Nat) (d : LineData) (bad : BitVec 8) (s : Core) : Core :=
  foldS (fun k s =>
    if popcount (slotGen d k ^^^ s.eng.generation) ≤ 8 then
      (((s.writeSlot j b k 0).2).taintAdd b).raise famOvfEcc 0
    else s) (setBits bad 8) s

/-- Where a job finds its line: bucket, slot and entry. -/
def Core.jobFind (s : Core) (j : OJob) : Option (Nat × Nat × LocEnt) :=
  j.parts.findSome? (fun q =>
    (List.range 8).findSome? (fun k =>
      if s.slotLive q.2.1 q.2.2 k && slotLine q.2.1 k = j.line then some (q.1, k, slotEnt q.2.1 k) else none))

/-- Put an entry in the stash, or leave it in the move register with OVF_FULL when the stash is full: the walk then tidies without a pause (05
R166, R167). -/
def Core.toStash (l : LineAddr) (e : LocEnt) (s : Core) : Core :=
  if s.eng.stash.length < 64 then
    s.onEng (fun g =>
      { g with
        stash := (g.stash.filter (fun x => x.line != l)) ++ [⟨l, e⟩]
        move := match g.move with
          | some m => if m.line = l then none else some m
          | none => none })
  else
    let b := s.eng.scrubBucket
    ((s.onEng (fun g => { g with move := some ⟨l, e⟩, ovfFull := true })).raise famOvfFull 0).ovfAdd (.scrub b) 0 none

/-- The homeless entry of the move register takes stash room as soon as there is some (05 R167). -/
def Core.unhome (s : Core) : Core :=
  match s.eng.move with
  | some m =>
    if s.eng.ovfFull && s.eng.stash.length < 64 then
      (s.onEng (fun g => { g with stash := g.stash ++ [m], move := none, ovfFull := false })).task .ovfPump
    else s
  | none => s

/-- After a deletion in a bucket: stash entries that may lie in the bucket are tried again (05 R166, R167). -/
def Core.stashAgain (b : Nat) (s : Core) : Core :=
  foldS (fun (x : OvfEnt) s =>
    if (s.candidates x.line).contains b && !s.inserting x.line then s.ovfAdd (.insert none false) x.line (some x.ent) else s)
    s.eng.stash s.unhome

/-- Whether an entry that is to be inserted is still where its insertion took it from: it has not been recalled (05 R160). -/
def Core.stillOut (s : Core) (j : OJob) : Bool :=
  match j.op with
  | .insert (some (p, l)) _ => (s.slice p).spill.any (fun e => e.line = l)
  | .insert none false => s.eng.stash.any (fun e => e.line = j.line)
  | .move _ => match s.eng.move with
    | some m => decide (m.line = j.line)
    | none => false
  | _ => true

/-- An insertion has found no place: its entry goes to the stash, from the move register or straight away; a stash entry stays there, and a
spilled entry leaves its buffer (05 R166). A census's insertion is then over. -/
def Core.homeless (j : OJob) (e : LocEnt) (s : Core) : Core :=
  let s := match j.op with
    | .insert none false => s
    | .insert (some (p, l)) _ =>
      ((s.onSlice p (fun x => { x with spill := x.spill.filter (fun v => v.line != l) })).toStash j.line e).task (.kick p)
    | .insert none true => ((s.onEng (fun g => { g with censusInserts := g.censusInserts - 1 })).toStash j.line e).task .censusCheck
    | _ => s.toStash j.line e
  s.endJob j.id

/-- Place a job's entry: a free slot, else the place of an entry that goes to the move register and on to its other bucket, behind the
operations already on that bucket; at most 16 such moves (05 R166). A stash entry takes only a free slot. -/
def Core.place (i : Nat) (s : Core) : Core :=
  match s.job? i with
  | none => s
  | some j =>
    match j.ent with
    | none => s.endJob i
    | some e =>
      if !s.stillOut j then s.endJob i else
      let free := j.parts.findSome? (fun q => ((List.range 8).find? (fun k => !s.slotLive q.2.1 q.2.2 k)).map (fun k => (q.1, k)))
      match free, j.parts.getLast? with
      | some (b, k), _ =>
        let (ok, s) := s.writeSlot j b k (s.slotWord j.line e)
        if ok then s else s.homeless j e
      | none, some (b, d, _) =>
        if 16 ≤ j.moves || j.op = .insert none false then s.homeless j e
        else
          let k := s.eng.ovfCount % 8
          let victim : OvfEnt := ⟨slotLine d k, slotEnt d k⟩
          let (ok, s) := s.writeSlot j b k (s.slotWord j.line e)
          if !ok then s.homeless j e
          else
            let s := s.onEng (fun g => { g with move := some victim })
            match (s.candidates victim.line).filter (fun x => x != b) with
            | o :: _ =>
              let (n, s) := s.fresh
              let v : OJob := ⟨n, .move o, victim.line, some victim.ent, false, [], [], j.moves + 1, 0⟩
              (s.onEng (fun g => { g with ovf := g.ovf ++ [v] })).task .ovfPump
            | [] => s.toStash victim.line victim.ent
      | none, none => s.homeless j e

/-- An Overflow entry of a line after R396: freed with lost-line data to the home when a dead agent owned it, else without the dead agents. -/
def Core.reapOvf (l : LineAddr) (e : LocEnt) (s : Core) : Core :=
  let v := s.maskTomb e
  if v.v = 0 then
    let s := s.ovfAdd .tidyWrite l none
    if e.st = LocSt.x || e.st = LocSt.unknown then
      let o := if e.st = LocSt.x then e.owner else (agentsOf e.v).headD 0
      (s.makeOwnWb l (agentId s.self o) false lostLine true true (epSkl 0)).2
    else s
  else if e.st = LocSt.sf && !v.v.getLsbD e.owner.toNat then s.ovfAdd .tidyWrite l (some { v with st := .s, owner := 0 })
  else if v = e then s else s.ovfAdd .tidyWrite l (some v)

/-- AGENT_ADMIT resolves the entry of a line that names the agent (15 R525): at once, or by a maintenance operation when the line has a
chamber. -/
def Core.sweepOne (p : Nat) (loc : BitVec 6) (l : LineAddr) (e : Option LocEnt) (s : Core) : Core :=
  if p < 18 && (s.slice p).hasChamber l then
    let (n, s) := s.fresh
    s.onSlice p (fun x => { x with internals := x.internals ++ [⟨n, .sweep loc, l, s.arrival⟩] })
  else if (s.lsPeek p l).isSome then s.reapDead p l
  else match e with
    | some v => s.reapOvf l v
    | none => s

/-- While an insertion waits homeless, the Overflow walk goes on to its next bucket at once (05 R167). -/
def Core.walkOn (s : Core) : Core :=
  if s.eng.ovfFull && !s.eng.ovf.any (fun j => match j.op with
      | .scrub _ => true
      | _ => false) then
    let m := 2 * 2 ^ s.ovfLog
    let b := (s.eng.scrubBucket + 1) % m
    (s.onEng (fun g => { g with scrubBucket := b })).ovfAdd (.scrub b) 0 none
  else s

/-- Every bucket of a job has been read. -/
def Core.jobReady (i : Nat) (s : Core) : Core :=
  match s.job? i with
  | none => s
  | some j =>
    let found := s.jobFind j
    match j.op with
    | .lookup p id =>
      match found with
      | some (b, k, e) =>
        if s.spillFull p || (s.slice p).st = .sealed_ then s.endJob i
        else
          let s := ((s.writeSlot j b k 0).2).entryFound p id (some e)
          match s.job? i with
          | some j => if j.writes = 0 then s.endJob i else s
          | none => s
      | none => (s.task (.entry p id none)).endJob i
    | .tidyRead p id => (s.task (.entry p id (found.map (fun f => f.2.2)))).endJob i
    | .query q r => (s.task (.queryAns q r (found.map (fun f => f.2.2)))).endJob i
    | .census =>
      let p := s.physOfLine j.line
      if found.isSome || (s.lsPeek p j.line).isSome then
        ((s.onEng (fun g => { g with censusInserts := g.censusInserts - 1 })).endJob i).task .censusCheck
      else
        let s := if p < 18 then s.onSlice p (fun x => { x with spillCnt := spillUp x.spillCnt (lsSet j.line) }) else s
        (s.onEng (fun g => { g with insQ := g.insQ ++ [j.line] })).endJob i
    | .move _ => s.place i
    | .insert _ _ => s.place i
    | .tidyWrite =>
      match found with
      | none => s.endJob i
      | some (b, k, _) =>
        let w := match j.ent with
          | some e => s.slotWord j.line e
          | none => 0
        let (ok, s) := s.writeSlot j b k w
        if ok then s else s.endJob i
    | .scrub b =>
      let tidy := bit (s.reg offScrubCtl) 2 || s.eng.ovfFull
      let lines := j.parts.flatMap (fun q => (List.range 8).filterMap (fun k =>
        if s.slotLive q.2.1 q.2.2 k && ((slotEnt q.2.1 k).st = LocSt.s || (slotEnt q.2.1 k).st = LocSt.sf) then
          some (slotLine q.2.1 k) else none))
      let s := if tidy then foldS (fun l s =>
          let (n, s) := s.fresh
          s.onSlice (s.physOfLine l) (fun x => { x with internals := x.internals ++ [⟨n, .tidy, l, s.arrival⟩] }))
          (lines.filter (fun l => s.physOfLine l < 18)) s
        else s
      match s.job? i with
      | some j => if j.writes = 0 then ((s.endJob i).stashAgain b).walkOn else s
      | none => s
    | .sweep b loc =>
      let l := j.parts.flatMap (fun q => (List.range 8).filterMap (fun k =>
        if s.slotLive q.2.1 q.2.2 k && (slotEnt q.2.1 k).v.getLsbD loc.toNat then some (slotLine q.2.1 k, slotEnt q.2.1 k) else none))
      let s := foldS (fun (e : LineAddr × LocEnt) s => s.sweepOne (s.physOfLine e.1) loc e.1 (some e.2)) l s
      match s.job? i with
      | some j => if j.writes = 0 then (s.endJob i).stashAgain b else s
      | none => s

/-- A bucket has been read for a job. -/
def Core.bucketRead (i b : Nat) (d : LineData) (bad : BitVec 8) (s : Core) : Core :=
  match s.job? i with
  | none => s
  | some j =>
    let s := s.badSlots j b d bad
    let s := s.onJob i (fun j => { j with
      parts := j.parts ++ [(b, d, bad)]
      awaited := j.awaited.filter (fun x => x != b) })
    match s.job? i with
    | some j => if j.awaited.isEmpty then
        -- parts stand in candidate order, half 0 first
        let ps := ((s.jobBuckets j).filterMap (fun x => j.parts.find? (fun q => q.1 = x)))
        (s.onJob i (fun j => { j with parts := if ps.isEmpty then j.parts else ps })).jobReady i
      else s
    | none => s

/-- A write of a job has been accepted: an inserted entry leaves the spill buffer, the stash or the move register, unless it has been recalled
since; and the job ends with its last write (05 R161, R166). -/
def Core.jobWritten (i : Nat) (s : Core) : Core :=
  match s.job? i with
  | none => s
  | some j =>
    let s := s.onJob i (fun j => { j with writes := j.writes - 1 })
    if 1 < j.writes then s.task .censusCheck
    else
      let recalled := (s.eng.ovf.dropWhile (fun k => k.id != i)).any (fun k => k.op = .tidyWrite && k.line = j.line)
      let s := match j.op with
        | .insert (some (p, l)) _ =>
          (if recalled then s else s.onSlice p (fun x => { x with spill := x.spill.filter (fun e => e.line != l) })).task (.kick p)
        | .insert none true => s.onEng (fun g => { g with censusInserts := g.censusInserts - 1 })
        | .insert none false =>
          (if recalled then s else s.onEng (fun g => { g with stash := g.stash.filter (fun e => e.line != j.line) })).unhome
        | .move _ => s.onEng (fun g => { g with
            move := match g.move with
              | some m => if m.line = j.line && !g.ovfFull then none else some m
              | none => none })
        | .lookup _ _ | .tidyWrite => foldS Core.stashAgain (s.jobBuckets j) s
        | .scrub b => (s.stashAgain b).walkOn
        | .sweep b _ => s.stashAgain b
        | _ => s
      (s.endJob i).task .censusCheck

/-- The Overflow engine takes a slice's oldest spilled entry (05 R166), when it is free: one insertion displaces entries at a
time, through its one move register. -/
def Core.insertStart (p : Nat) (s : Core) : Core :=
  if s.insertBusy then s
  else match (s.slice p).spill with
    | [] => s
    | e :: _ =>
      (s.onEng (fun g => { g with ovfCount := g.ovfCount + 1 })).ovfAdd (.insert (some (p, e.line)) false) e.line (some e.ent)

end Sys2Proof.Machine
end

