-- ==== Sys2Proof/Machine/Larder.lean ====
section
/-!
DEFINITION. Sys2Proof/Machine/Larder.lean: the Larder engine: page reads and their classification, record fetches and
write-backs, rebuild by interrogation with its settles, and census pages (05 R142 to R151, R171 to R179).
-/
namespace Sys2Proof.Machine

/-! Pages as numbers. -/

/-- Strength t (05 R144). -/
def Core.strength (s : Core) : Nat := 8 * (bits (s.reg offLarderCtl) 1 0 + 1)
/-- Pages of the Larder (05 R182). -/
def Core.pageCount (s : Core) : Nat := s.homedSize / 32768
/-- The line of record i of a page (05 R174). -/
def Core.recLine (s : Core) (page i : Nat) : LineAddr := s.lineAtOffset (page * 32768 + i * 256)

/-- Data of one part of a page. -/
def partData (l : List (Nat × LineData × Bool)) (k : Nat) : LineData :=
  match l.find? (fun p => p.1 = k) with
  | some p => p.2.1
  | none => 0

/-- The records of four lines as one number (05 R142). -/
def recsNat (l : List (Nat × LineData × Bool)) : Nat :=
  (partData l 0).toNat + ((partData l 1).toNat <<< 2048) + ((partData l 2).toNat <<< 4096) + ((partData l 3).toNat <<< 6144)

/-- Record i of the records as one number. -/
def recWord (v i : Nat) : Word := BitVec.ofNat 64 (v >>> (64 * i))
/-- The records as one number. -/
def wordsNat : List Word → Nat
  | [] => 0
  | w :: l => w.toNat + (wordsNat l <<< 64)

/-- The check slot of a page in the line that holds it, 512 bits (05 R143). -/
def Core.slotNat (s : Core) (page : Nat) (d : LineData) : Nat := natField d.toNat (8 * (s.slotPa page % 256)) 512

/-- Classification of a page (05 R148): 0 CURRENT, 1 OLD, 2 UNTRUSTED; the records as one number; the bits corrected. -/
def Core.classify (s : Core) (page : Nat) (parts : List (Nat × LineData × Bool)) : Nat × Nat × Nat :=
  let t := s.strength
  let slot := s.slotNat page (partData parts 4)
  let gen := natField slot 448 48
  let raw := recsNat parts
  if parts.any (fun p => p.2.2) then (2, raw, 0)
  else match bchDecode t (((raw + (gen <<< 8192)) <<< (14 * t)) ^^^ natField slot 0 (14 * t)) with
    | some (w, n) =>
      let d := w >>> (14 * t)
      if natField d 8192 48 = s.eng.generation.toNat then (0, d % 2 ^ 8192, n) else (1, 0, 0)
    | none => if popcount (BitVec.ofNat 48 gen ^^^ s.eng.generation) ≤ 8 then (2, raw, 0) else (1, 0, 0)

/-- A check slot of the current generation for some records, 512 bits (05 R143). -/
def Core.slotFor (s : Core) (recs : Nat) : Nat :=
  bchCheck s.strength (recs + (s.eng.generation.toNat <<< 8192)) + (s.eng.generation.toNat <<< 448)

/-! Pages in progress. -/

/-- A page in progress. -/
def Core.page? (s : Core) (page : Nat) : Option LJob := s.eng.larder.find? (fun j => j.page = page)
/-- Update a page in progress. -/
def Core.onPage (page : Nat) (f : LJob → LJob) (s : Core) : Core :=
  s.onEng (fun g => { g with larder := updateWhere (fun j => j.page = page) f g.larder })
/-- Whether a page is locked for a rebuild (05 R179). -/
def Core.pageLocked (s : Core) (page : Nat) : Bool :=
  match s.page? page with
  | some j => j.locked
  | none => false

/-- Whether the engine may issue accesses (16 R556, 08 R271). -/
def Core.larderHeld (s : Core) : Bool := s.gatePaused gateLarder || s.pf.hold

/-- Read one part of a page; a refused read makes the page UNTRUSTED (16 R555). -/
def Core.readPart (page k : Nat) (s : Core) : Core :=
  let pa := if k = 4 then s.slotPa page else (linePa (s.pageLine page k)).toNat
  if s.gatePermits gateLarder gRead pa then s.readLine (BitVec.ofNat 48 (pa / 256)) (.larder page k)
  else (s.gateRefuse gateLarder gRead pa).task (.pagePart page k 0 true)

/-- Start the reads of a page. Before the first generation advance a page counts as OLD without a memory access (15 R513). -/
def Core.pageStart (page : Nat) (s : Core) : Core :=
  let s := s.onPage page (fun j => { j with phase := .reading, parts := [], answers := [], settles := [], want := 0 })
  if s.eng.generation = 0 then
    foldS (fun k s => s.task (.pagePart page k 0 false)) [0, 1, 2, 3, 4] s
  else foldS (Core.readPart page) [0, 1, 2, 3, 4] s

/-- Whether a record of a page is held in a Home Sieve (05 R174). -/
def Core.recHeld (s : Core) (page i : Nat) : Bool :=
  let x := s.recLine page i
  let p := s.physOfLine x
  p < 18 && (s.hsLookup p x).isSome

/-- The record a Home Sieve holds for record i of a page, or the page's own. -/
def Core.recNow (s : Core) (page i : Nat) (w : Word) : HomeRec :=
  let x := s.recLine page i
  let p := s.physOfLine x
  match (if p < 18 then s.hsLookup p x else none) with
  | some (_, e) => e.rcd
  | none => (HomeRec.decode w).1

/-- The logical slice a physical slice serves (02 R68). -/
def Core.logicalServed (s : Core) (p : Nat) : Option Nat := (List.range 16).find? (fun l => mget 0x1F s.host.remap l = p)

/-- Physical slices whose map flags a page (05 R173). -/
def Core.flaggers (s : Core) (page : Nat) : List Nat := (List.range 18).filter (fun p => s.pageFlagged p page)

/-- The records to rebuild for the flagged maps of a page: those of each map's logical slice (05 R173). -/
def Core.suspectWant (s : Core) (page : Nat) : BitVec 128 :=
  (s.flaggers page).foldl (fun v p =>
    match s.logicalServed p with
    | some l => (List.range 128).foldl (fun v i =>
        if logicalOf s.host.trim (sliceHash (s.recLine page i)) = l then setBit v i else v) v
    | none => v) 0

/-- Whether an operation only reads the page for service firmware (12 R440). -/
def LOp.towOnly (o : LOp) : Bool :=
  match o with
  | .towRead _ => true
  | _ => false

/-- Whether an operation reads a record of the page: a head's fetch, or the census, which reads them all. -/
def LOp.readsRec (o : LOp) (i : Nat) : Bool :=
  match o with
  | .fetch _ _ k => k.toNat = i
  | .census _ _ => true
  | _ => false

/-- The records that a page's state gives a rebuild: every one of a page that is UNTRUSTED or named by DIR_REBUILD, those of a flagged
map's logical slice, and those that an operation reads as SUSPECT (05 R174). -/
def Core.scopeOf (s : Core) (j : LJob) : BitVec 128 :=
  if j.ops.all LOp.towOnly then 0
  else if j.cls = 2 || j.ops.any (fun o => match o with
      | .towRebuild _ => true
      | _ => false) then BitVec.allOnes 128
  else (List.range 128).foldl (fun v i =>
    if (HomeRec.decode (j.recs.getD i 0)).1.st = RecSt.suspect && j.ops.any (fun o => o.readsRec i) then setBit v i else v)
    (s.suspectWant j.page)

/-- Those of them that no Home Sieve holds (05 R174). -/
def Core.notHeld (s : Core) (page : Nat) (v : BitVec 128) : BitVec 128 :=
  (List.range 128).foldl (fun w i => if v.getLsbD i && !s.recHeld page i then setBit w i else w) 0

/-! Writes. -/

/-- The mask of a line's changed records. -/
def recMask (l : List Nat) : LineMask := l.foldl (fun m i => m ||| maskAt (8 * (i % 32)) 8) 0

/-- One memory write of a page, checked by its first byte; a refused write is discarded and flags the page (16 R551, R555). -/
def Core.pageWrite (page : Nat) (x : LineAddr) (d : LineData) (m : LineMask) (s : Core) : Core :=
  let first := match setBits m 256 with
    | k :: _ => k
    | [] => 0
  let pa := (linePa x).toNat + first
  if s.gatePermits gateLarder gWrite pa then
    let s := s.onPage page (fun j => { j with writesLeft := j.writesLeft + 1 })
    (s.queueWrite x d m false (.larder page) s.arrival false none none none).2
  else
    let s := s.gateRefuse gateLarder gWrite pa
    foldS (fun p => Core.onSuspects p (fun l =>
      updateWhere (fun e => e.page = page) (fun e => { e with flag := true }) l)) (List.range 18) s

/-- Write a page (05 R151): every line, or the changed records of each line; and the check slot. -/
def Core.pageWrites (page : Nat) (recs : List Word) (full : Bool) (changed : List Nat) (s : Core) : Core :=
  let v := wordsNat recs
  let line (k : Nat) : LineData := BitVec.ofNat 2048 (v >>> (2048 * k))
  let s := foldS (fun k s =>
    let ch := changed.filter (fun i => i / 32 = k)
    if full then s.pageWrite page (s.pageLine page k) (line k) fullMask
    else if ch.isEmpty then s
    else s.pageWrite page (s.pageLine page k) (line k) (recMask ch)) [0, 1, 2, 3] s
  let pa := s.slotPa page
  s.pageWrite page (BitVec.ofNat 48 (pa / 256)) (BitVec.ofNat 2048 (s.slotFor v <<< (8 * (pa % 256)))) (maskAt (pa % 256) 64)

/-! Queries and settles. -/

/-- Send an SNP_Q, with its data, to an instance: by the internal path to this one, else when a snoop credit is there (05
R176). -/
def Core.sendSnpQ (i : BitVec 6) (m : Msg) (d : Option Msg) (s : Core) : Core :=
  if i = s.self then
    let s := s.sendInst i m
    match d with
    | some x => s.sendInst i x
    | none => s
  else if m.op = opWbD then
    -- data of a dead requester's DAT_M, sent home under a pool header and a pool data credit (11 R395)
    if (s.creditsTo i).header = 0 || (s.creditsTo i).data = 0 then
      s.onEng (fun g => { g with snpqOut := g.snpqOut ++ [(i, m, d)] })
    else
      let s := (s.onCredits i (fun c => { c with header := c.header - 1, data := c.data - 1 })).sendInst i m
      match d with
      | some x => s.sendInst i x
      | none => s
  else if (s.creditsTo i).snoop = 0 then s.onEng (fun g => { g with snpqOut := g.snpqOut ++ [(i, m, d)] })
  else
    let s := (s.onCredits i (fun c => { c with snoop := c.snoop - 1 })).sendInst i m
    match d with
    | some x => s.sendInst i x
    | none => s

/-- Header of an SNP_Q: AGENT 0, the TAG of R176, KIND. -/
def snpqHdr (line : LineAddr) (kind : Nat) (tag : Nat) (param : Nat) : Hdr :=
  { Hdr.zero with line := line, hint := BitVec.ofNat 4 kind, tag := BitVec.ofNat 10 (tag + kind * 256), param := BitVec.ofNat 16 param }

/-- Count an interrogation at every slice that has a record of the page to rebuild (16 R534). -/
def Core.countAsked (page : Nat) (s : Core) : Core :=
  match s.page? page with
  | none => s
  | some j =>
    let of (p : Nat) : Bool := (setBits j.want 128).any (fun i => s.physOfLine (s.recLine page i) = p)
    foldS (fun p s => s.bump p 0x017 1) ((List.range 18).filter of) s

/-- A rebuild starts: the page is locked and every instance is asked (05 R175, R179). A silent instance is answered for. -/
def Core.rebuildStart (page slot : Nat) (s : Core) : Core :=
  let ask := s.members
  let s := s.countAsked page
  let s := s.onPage page (fun j => { j with phase := .asking, slot := slot, asked := ask, answers := [] })
  foldS (fun i s =>
    if s.silent i then s.onPage page (fun j => { j with answers := j.answers ++ [⟨i, 0, 0⟩] })
    else s.sendSnpQ i ⟨opSnpQ, snpqHdr (s.recLine page 0) 0 slot 0, none⟩ none) ask s

/-- Send the settle snoops of a page that may go, with AGENT 0 and TAG 0 (05 R178). A silent instance is answered for. -/
def Core.sendSettles (page : Nat) (s : Core) : Core :=
  match s.page? page with
  | none => s
  | some j =>
    foldS (fun (e : Settle) s =>
      let mark (f : Settle → Settle) (s : Core) : Core :=
        s.onPage page (fun j => { j with settles := updateWhere (fun x => x.idx = e.idx && x.chip = e.chip) f j.settles })
      let x := s.recLine page e.idx.toNat
      let op := if e.drop then opSnpI else opSnpS
      let h : Hdr := { Hdr.zero with line := x, hint := if e.drop then 4 else 0, epoch := s.epochOf x }
      if e.sent then s
      else if s.silent e.chip then mark (fun x => { x with sent := true, rsp := some (opRspAbsent, stI) }) s
      else if e.chip = s.self then (mark (fun x => { x with sent := true }) s).sendInst e.chip ⟨op, h, none⟩
      else if (s.creditsTo e.chip).snoop = 0 then s
      else ((mark (fun x => { x with sent := true }) s).onCredits e.chip (fun c => { c with snoop := c.snoop - 1 })).sendInst
        e.chip ⟨op, h, none⟩) j.settles s

/-- A settle of a page has its answer and the dirty data or the WB_D that this announced (05 R178). -/
def LJob.settled (j : LJob) (e : Settle) : Bool :=
  match e.rsp with
  | none => false
  | some (op, _) => (op != opRspD || e.data) && (op != opRspWbx || j.wbs.contains (e.idx, e.chip))

/-- What a chip answered for record i: none, or its CHIPSTATE (05 R175). -/
def QAns.state (a : QAns) (i : Nat) : Option Nat :=
  if a.held.getLsbD i then some ((a.chst >>> (2 * i)).toNat % 4) else none

/-- The lowest-numbered of some chips. -/
def lowestChip (l : List (BitVec 6)) : BitVec 6 := l.foldl (fun a c => if c < a then c else a) (l.headD 0)

/-- The rebuilt record i from the answers, and the settle snoops it needs (05 R177). The Bool tells a DIR_CONFLICT. -/
def rebuildRec (ans : List QAns) (i : Nat) : HomeRec × List Settle × Bool :=
  let held := (ans.filter (fun a => (a.state i).isSome)).map (fun a => a.chip)
  let x := (ans.filter (fun a => a.state i = some 2)).map (fun a => a.chip)
  let fwd := (ans.filter (fun a => a.state i = some 1)).map (fun a => a.chip)
  let idx := BitVec.ofNat 7 i
  match x with
  | _ :: _ :: _ => (⟨.poison, 0, .ptrs []⟩, [], true)
  | _ =>
    if ans.any (fun a => a.state i = some 3) then
      (HomeRec.none, held.map (fun c => { idx := idx, chip := c, drop := false }), false)
    else match x with
      | o :: _ => (⟨.x, o, .ptrs []⟩, (held.filter (fun c => c != o)).map (fun c => { idx := idx, chip := c, drop := true }), false)
      | [] =>
        match fwd, held with
        | _ :: _, _ => (⟨.sf, lowestChip fwd, chipsFor held⟩, [], false)
        | [], _ :: _ => (⟨.s, 0, chipsFor held⟩, [], false)
        | [], [] => (HomeRec.none, [], false)

/-- The record of a settled line (05 R178). -/
def settledRec (profileE : Bool) (l : List Settle) : HomeRec :=
  let left := (l.filter (fun e => match e.rsp with
    | some (_, r) => r != stI
    | none => false)).map (fun e => e.chip)
  let f := (l.filter (fun e => match e.rsp with
    | some (_, r) => r = stF
    | none => false)).map (fun e => e.chip)
  if left.isEmpty then HomeRec.none
  else if !profileE && !f.isEmpty then ⟨.sf, lowestChip f, chipsFor left⟩
  else ⟨.s, 0, chipsFor left⟩

/-! Serving a page's operations. -/

/-- Note an SNP_Q of the census as sent, so that its RSP_Q is known (05 R176). -/
def Core.censusSent (chip : BitVec 6) (h : Hdr) (s : Core) : Core :=
  s.onEng (fun g => { g with censusOut := g.censusOut ++ [(chip, h.tag, h.line)] })

/-- A census page for a chip: SNP_Q with the map of marked records; and after the last page the census-end (05 R171). A page of a walk that
a later request has restarted is left out. -/
def Core.censusPage (page : Nat) (recs : List Word) (chip : BitVec 6) (seq : BitVec 8) (s : Core) : Core :=
  match s.eng.censuses.find? (fun c => c.chip = chip && c.seq = seq) with
  | none => s
  | some c =>
    let marks : BitVec 128 := (List.range 128).foldl (fun v i =>
      if (s.recNow page i (recs.getD i 0)).holds chip && c.mask.getLsbD (sliceHash (s.recLine page i)).toNat then setBit v i else v) 0
    let tag := c.seq.toNat
    let x := s.recLine page 0
    let s := if marks = 0 then s else
      let h := snpqHdr x 1 tag 0
      let d : Beats := ⟨BitVec.ofNat 2048 marks.toNat, maskAt 0 16, true⟩
      (s.censusSent chip h).sendSnpQ chip ⟨opSnpQ, h, none⟩ (some ⟨opDatNa, { h with hint := 3, param := 1 }, some d⟩)
    if page + 1 < s.pageCount then s
    else
      let h := snpqHdr x 2 tag tag
      ((s.onEng (fun g => { g with censuses := g.censuses.filter (fun c => c.chip != chip) })).censusSent chip h).sendSnpQ chip
        ⟨opSnpQ, h, none⟩ none

/-- The result of one operation on a page's records: the records, the changed indices, whether all lines are rewritten, and the
operations that end when the writes are accepted. -/
structure Served where
  recs : List Word
  changed : List Nat
  full : Bool
  ending : List LOp
  s : Core

/-- Whether an operation reads the page and writes nothing. -/
def LOp.readOnly (o : LOp) : Bool :=
  match o with
  | .fetch _ _ _ | .towRead _ | .census _ _ => true
  | _ => false

/-- Serve one operation of a page (05 R149 to R151, R171, R182, 12 R440). Of a page locked for a rebuild, a head gets its record after the
unlock (05 R179). -/
def serveOp (page cls fixed raw : Nat) (locked : Bool) (x : Served) (o : LOp) : Served :=
  match o with
  | .fetch p b i =>
    let d := (HomeRec.decode (x.recs.getD i.toNat 0)).1
    if locked then { x with ending := x.ending ++ [.fetched p b d] } else { x with s := x.s.task (.record p b d) }
  | .writeBack _ i r =>
    { x with
      recs := x.recs.set i.toNat r.encode
      changed := if x.changed.contains i.toNat then x.changed else x.changed ++ [i.toNat]
      ending := x.ending ++ [o] }
  | .scrub =>
    let lim := bits (x.s.reg offScrubCtl) 43 40
    if cls = 2 then { x with s := x.s.raise famLarderUe 0 }
    else if cls = 0 && lim != 0 && lim ≤ fixed then
      { x with full := true, ending := x.ending ++ [o], s := x.s.raise famLarderCe 0 }
    else x
  | .towRead cmd =>
    let slot := if cls = 0 then x.s.slotFor (wordsNat x.recs) else raw
    let words := x.recs ++ (List.range 8).map (fun k => recWord slot k)
    { x with s := { x.s with up := x.s.up ++ [.page cmd words (cls + fixed * 256)] } }
  | .census chip seq => { x with s := x.s.censusPage page x.recs chip seq }
  | .towRebuild _ | .suspect _ | .fetched _ _ _ => { x with ending := x.ending ++ [o] }

/-- End the operations that a page's writes have ended: a write-back frees its record's held count and its suspect count, and a head gets
its record (05 R155, R156, R179). -/
def Core.endOps (page : Nat) (l : List LOp) (s : Core) : Core :=
  foldS (fun o s => match o with
    | .writeBack p _ _ =>
      ((s.onSlice p (fun x => { x with wbHeld := x.wbHeld - 1 })).onSuspects p (suspectSub page 1)).task (.kick p)
    | .towRebuild cmd => { s with up := s.up ++ [.rebuilt cmd (match s.page? page with
      | some j => popcount j.want
      | none => 0)] }
    | .fetched p b r => s.task (.record p b r)
    | _ => s) l s

/-- A page has no work left, or goes on with the operations that come after, from a new read. -/
def Core.pageDone (page : Nat) (s : Core) : Core :=
  match s.page? page with
  | none => s
  | some j =>
    let s := s.endOps page j.ending
    let s := if j.ops.isEmpty then s.onEng (fun g => { g with larder := g.larder.filter (fun j => j.page != page) })
      else s.onPage page (fun j => { j with
        phase := .waiting
        parts := []
        ending := []
        want := 0
        slot := 16
        locked := false
        flags := []
        lost := 0
        wbs := [] })
    s.task .larderPump

/-- A rebuilt page's writes are accepted: the map's FLAGs clear, the page unlocks, and the heads that wait take the rebuilt
records without another read (05 R173, R179). A FLAG set since the rebuild began stays: the page is rebuilt again for its records. -/
def Core.pageUnlock (page : Nat) (s : Core) : Core :=
  match s.page? page with
  | none => s
  | some j =>
    let s := foldS (fun p => Core.onSuspects p (fun l =>
      (updateWhere (fun e => e.page = page) (fun e => { e with flag := false }) l).filter
        (fun e => !(e.page = page && e.count = 0)))) j.flags s
    let again := s.suspectWant page
    let now (o : LOp) : Bool := match o with
      | .fetch _ _ i => !again.getLsbD i.toNat
      | _ => o.readOnly && again = 0
    let x := (j.ops.takeWhile now).foldl (serveOp page 0 0 0 false) ⟨j.recs, [], false, [], s⟩
    (x.s.onPage page (fun j => { j with ops := j.ops.dropWhile now, locked := false, slot := 16 })).pageDone page

/-- Operations of a page that one read-modify-write carries out, in their order: those that read it, then those that write it; the rest begin
when its writes are accepted (05 R149, R151). -/
def batchOf (l : List LOp) : List LOp × List LOp :=
  let rest := l.dropWhile LOp.readOnly
  (l.takeWhile LOp.readOnly ++ rest.takeWhile (fun o => !o.readOnly), rest.dropWhile (fun o => !o.readOnly))

/-- Carry out a batch of a page's operations and write what it changed: all four lines of a page that is rebuilt, that held no records of this
generation or had bits corrected, else the changed records (05 R151, R179). -/
def Core.pageBatch (page : Nat) (s : Core) : Core :=
  match s.page? page with
  | none => s
  | some j =>
    let raw := if s.eng.generation = 0 then 0 else s.slotNat page (partData j.parts 4)
    let (now, later) := batchOf j.ops
    let x := now.foldl (serveOp page j.cls j.fixed raw j.locked) ⟨j.recs, [], j.locked, [], s⟩
    let s := x.s.onPage page (fun j => { j with ops := later, ending := x.ending, recs := x.recs, phase := .writing, writesLeft := 0 })
    let s := if x.full || !x.changed.isEmpty then s.pageWrites page x.recs (x.full || j.cls = 1 || j.fixed != 0) x.changed else s
    match s.page? page with
    | some j => if j.writesLeft = 0 then (if j.locked then s.pageUnlock page else s.pageDone page) else s
    | none => s

/-- The records of a rebuilt page as they are to be written: a rebuilt record by its answers and its settle, one that a Home Sieve holds as held
there, and POISON for a line whose dirty data was found lost (05 R174, R177, R178, 11 R376). -/
def Core.rebuiltRecs (s : Core) (j : LJob) (scope : BitVec 128) : List Word :=
  (List.range 128).map (fun i =>
    let w := j.recs.getD i 0
    let l := j.settles.filter (fun e => e.idx.toNat = i && !e.drop)
    if j.lost.getLsbD i then (HomeRec.mk .poison 0 (.ptrs [])).encode
    else if scope.getLsbD i && s.recHeld j.page i then (s.recNow j.page i w).encode
    else if l.isEmpty then w else (settledRec s.profileE l).encode)

/-- DIR_FORMAT for a malformed record that an operation reads (05 R141). -/
def Core.formatCheck (page : Nat) (new : BitVec 128) (s : Core) : Core :=
  match s.page? page with
  | none => s
  | some j =>
    if j.cls = 2 then s
    else foldS (fun i s =>
      if (HomeRec.decode (j.recs.getD i 0)).2 && j.ops.any (fun o => o.readsRec i) then
        s.raiseAt famDirFormat (s.physOfLine (s.recLine page i)) (s.recLine page i) 0
      else s) (setBits new 128) s

/-- Every instance has answered: rebuild the wanted records, and settle where needed (05 R177). Triggers that joined are part of it: the set of
records is the union (05 R179). Answers the records newly built. -/
def Core.buildWanted (page : Nat) (s : Core) : BitVec 128 × Core :=
  match s.page? page with
  | none => (0, s)
  | some j =>
    let want := s.notHeld page (s.scopeOf j)
    let new := want &&& ~~~j.want
    let built := (setBits new 128).map (fun i => (i, rebuildRec j.answers i))
    let s := s.formatCheck page new
    let s := foldS (fun (b : Nat × HomeRec × List Settle × Bool) s => if b.2.2.2 then
        s.raiseAt famDirConflict (s.physOfLine (s.recLine page b.1)) (s.recLine page b.1) 0 else s) built s
    (new, s.onPage page (fun j => { j with
      recs := built.foldl (fun (l : List Word) b => l.set b.1 b.2.1.encode) j.recs
      settles := j.settles ++ built.flatMap (fun b => b.2.2.1)
      want := j.want ||| new
      flags := s.flaggers page
      phase := .settling }))

/-- A settle's answers may be complete: a trigger that has joined meanwhile is built from the same answers; then the rebuilt page is written
with all four lines and its slot, and write-backs that wait are applied over it (05 R151, R178, R179). -/
def Core.settleCheckPage (page : Nat) (s : Core) : Core :=
  match s.page? page with
  | none => s
  | some j =>
    if j.phase != .settling || !j.settles.all j.settled then s
    else
      let (new, s) := s.buildWanted page
      let s := if new = 0 then s else s.sendSettles page
      match s.page? page with
      | none => s
      | some j =>
        if !j.settles.all j.settled then s
        else
          let recs := s.rebuiltRecs j (s.scopeOf j)
          (s.onPage page (fun j => { j with recs := recs })).pageBatch page

/-- Every instance asked has answered (05 R177). -/
def Core.answersCheck (page : Nat) (s : Core) : Core :=
  match s.page? page with
  | none => s
  | some j =>
    if j.phase != .asking || j.asked.any (fun i => !j.answers.any (fun a => a.chip = i)) then s
    else
      let s := (s.onPage page (fun j => { j with want := 0 })).buildWanted page
      (s.2.sendSettles page).settleCheckPage page

/-- A page whose rebuild has its turn: the instances are asked; when a Home Sieve holds every record in question there is nothing to ask
(05 R174). -/
def Core.rebuildTurn (page slot : Nat) (s : Core) : Core :=
  match s.page? page with
  | none => s
  | some j =>
    let want := s.notHeld page (s.scopeOf j)
    let s := s.onPage page (fun j => { j with want := want })
    if want = 0 then (s.onPage page (fun j => { j with phase := .settling, slot := slot, flags := s.flaggers page })).settleCheckPage page
    else (s.rebuildStart page slot).answersCheck page

/-- Start waiting pages, at most 64 in progress, or 4 while leave for a generation is awaited, and waiting rebuilds in the order of their
triggers, at most INTERROG_CTL.MAX (05 R149, R179, 14 R483). -/
def Core.larderPump (s : Core) : Core :=
  if s.larderHeld then s else
  let s := foldS (fun (j : LJob) s =>
    let busy := (s.eng.larder.filter (fun k => k.phase != .waiting)).length
    if j.phase = .waiting && busy < (if s.eng.genLeave then 4 else 64) then s.pageStart j.page else s) s.eng.larder s
  let max := let m := bits (s.reg offInterrogCtl) 4 0; if m = 0 then 1 else Nat.min 16 m
  foldS (fun (j : LJob) s =>
    let used := (s.eng.larder.filter (fun k => k.slot < 16)).map (fun k => k.slot)
    match (List.range max).find? (fun k => !used.contains k) with
    | some k => if j.phase = .queued then s.rebuildTurn j.page k else s
    | none => s) (sortBy (fun a b => decide (a.trig ≤ b.trig)) s.eng.larder) s

/-- A page has been read: it is classified, and rebuilt or served (05 R148, R173, R174). Service firmware's reads of it come first. -/
def Core.pageReady (page : Nat) (s : Core) : Core :=
  match s.page? page with
  | none => s
  | some j =>
    let (cls, v, fixed) := if s.eng.generation = 0 then (1, 0, 0) else s.classify page j.parts
    let recs := (List.range 128).map (recWord v)
    let raw := if s.eng.generation = 0 then 0 else s.slotNat page (partData j.parts 4)
    let x := (j.ops.takeWhile LOp.towOnly).foldl (serveOp page cls fixed raw false) ⟨recs, [], false, [], s⟩
    let s := x.s.onPage page (fun j => { j with
      recs := recs, cls := cls, fixed := fixed, want := 0, settles := [], ops := j.ops.dropWhile LOp.towOnly })
    match s.page? page with
    | none => s
    | some j =>
      let flagged := !(s.flaggers page).isEmpty && !j.ops.isEmpty
      if s.scopeOf j = 0 && !flagged then s.pageBatch page
      else
        let (n, s) := s.fresh
        let s := s.onPage page (fun j => { j with phase := .queued, locked := true, trig := n })
        (s.task (.pageLocked page)).task .larderPump

/-- A part of a page has been read. -/
def Core.pagePart (page k : Nat) (d : LineData) (poison : Bool) (s : Core) : Core :=
  let s := s.onPage page (fun j => { j with parts := (j.parts.filter (fun p => p.1 != k)) ++ [(k, d, poison)] })
  match s.page? page with
  | some j => if j.phase = .reading && decide (5 ≤ j.parts.length) then s.pageReady page else s
  | none => s

/-- A write of a page has been accepted. -/
def Core.pageWritten (page : Nat) (s : Core) : Core :=
  let s := s.onPage page (fun j => { j with writesLeft := j.writesLeft - 1 })
  match s.page? page with
  | some j =>
    if j.phase = .writing && j.writesLeft = 0 then (if j.locked then s.pageUnlock page else s.pageDone page) else s
  | none => s

/-- Send the SNP_Qs and settle snoops that wait for credits. -/
def Core.flushSnpQ (s : Core) : Core :=
  let l := s.eng.snpqOut
  let s := s.onEng (fun g => { g with snpqOut := [] })
  let s := foldS (fun e s => Core.sendSnpQ e.1 e.2.1 e.2.2 s) l s
  foldS (fun (j : LJob) s => if j.phase = .settling then s.sendSettles j.page else s) s.eng.larder s

end Sys2Proof.Machine
end

