-- ==== Sys2Proof/Machine/Home.lean ====
section
/-!
DEFINITION. Sys2Proof/Machine/Home.lean: the home role: the record lookup, the decision, the collection of a barge, the merge
paths of writes and far ATOMs, completions, WB_Ds that meet a chamber, SETTLE, and a slice's internal operations (03 R99 to
R103, 04 R116 to R137, 06 R207, 07 R227 to R247).
-/
namespace Sys2Proof.Machine

/-- The requester's chip. -/
def Core.reqChip (s : Core) (b : Barge) : BitVec 6 := agentInst (s.bargeHdr b).agent

/-- Whether a request is of channel class (03 R91). -/
def channelClass (op : BitVec 8) (hint : BitVec 4) : Bool := (op = opRdS || op = opRdNa) && hint.extractLsb' 0 2 = (2 : BitVec 2)

/-! Completions from the home. -/

/-- Counter events of a request collected in the home role (16 R534). -/
def Core.countCollected (p : Nat) (r : Berth) (op : BitVec 8) (s : Core) : Core :=
  let s := s.bump p 0x008 1
  let s := if r.op = opRdF then s.bump p 0x00B 1 else if channelClass r.op r.h.hint then s.bump p 0x00C 1 else s
  if isPoisonCmp op then s.bump p 0x00D 1 else s

/-- Complete a barge's request at the home (03 R101): the requester's proxy is this chip's own, or another instance's, whose
simmer time then starts (06 R213). A local requester's completion takes the proxy's steps of 03 R106: a grant applies its To state, and
waits for data that comes from elsewhere (04 R117, R118). -/
def Core.homeComplete (p id : Nat) (op : BitVec 8) (g : BitVec 3) (data : Bool) (param : BitVec 16) (keep : Bool) (s : Core) :
    Core :=
  match s.barge? p id with
  | none => s
  | some b =>
    match s.bargeReq b with
    | none => s.endBarge p id
    | some r =>
      let s := s.countCollected p r op
      let c := agentInst r.h.agent
      if c = s.self then
        let live := !r.own && !s.tombed r.h.agent
        let grants := g != stI && !isPoisonCmp op
        if live && (grants || (data && !b.gotData)) then
          let m := mkCmp op r.h (s.epochOf b.line) s.self s.self g data param
          (s.onBarge p id (fun b => { b with phase := .granted, cmp := some m })).grantStep p id
        else s.finishLocal p id op g data param keep
      else
        let m := mkCmp op r.h (s.epochOf b.line) s.self c g data param
        let s := (s.sendInst c m).leaves m
        let s := if (g != stI && !isPoisonCmp op) || op = opCmpNear then s.startSimmer p b.line (.chip c) else s
        let s := s.endBarge p id
        if keep then s else s.freeBerth r.id

/-- Whether a completion may leave at its posted point: posted completion is in force for the line's port, and the count of
posted lines is below 1,984 (08 R267, R268). -/
def Core.mayPost (s : Core) (x : LineAddr) : Bool :=
  s.postedOn (s.memPort (linePa x).toNat) && decide (s.host.posted < 1984)

/-- Count one posted line. -/
def Core.countPosted (s : Core) : Core := s.onHost (fun h => { h with posted := h.posted + 1 })

/-- Complete a WB_D or write entry towards its requester, when no barge holds it any more. An own-account WB_D of this
instance has no completion message (03 R597). -/
def Core.completeEntry (id : Nat) (op : BitVec 8) (s : Core) : Core :=
  match s.berth? id with
  | none => s
  | some r =>
    let c := agentInst r.h.agent
    if c = s.self then
      if r.own || s.tombed r.h.agent then s
      else (s.onBerth id (fun b => { b with cmpWait := true })).deliverCmp (mkCmp op r.h (s.epochOf r.h.line) s.self s.self stI false 0)
    else
      let m := mkCmp op r.h (s.epochOf r.h.line) s.self c stI false 0
      (s.sendInst c m).leaves m

/-- Whether a line's memory port is sealed (11 R399). -/
def Core.portSealed (s : Core) (x : LineAddr) : Bool := s.memSealed (s.memPort (linePa x).toNat)

/-! WB_Ds at the home (03 R101, 04 R135, 06 R207). -/

/-- A berth entry's data, zeros when it has none. -/
def Berth.line (r : Berth) : LineData := match r.data with
  | some b => b.data
  | none => 0

/-- Write a WB_D's data to memory from its slot and complete it at its posted or accepted point; the slot is then what every memory read of
the line in the chamber is served from (06 R207). On a sealed port it completes with CMP_POISON and is discarded (11 R399). -/
def Core.wbFinish (id : Nat) (s : Core) : Core :=
  match s.berth? id with
  | none => s
  | some r =>
    let x := r.h.line
    if s.portSealed x then ((s.completeEntry id opCmpPoison).endEntry id).task (.wbDone x)
    else
      let post := s.mayPost x && !(r.own && agentInst r.h.agent = s.self)
      let s := s.lineNow (s.physOfLine x) x r.line r.poison
      let s := if post then (s.completeEntry id opCmp).countPosted else s
      let s := s.onBerth id (fun b => { b with posted := post, counted := post, writing := true })
      (s.queueWrite x r.line fullMask r.poison (.berth id) r.stamp post (some id) none (some r.ep)).2.task (.wbDone x)

/-- A stray WB_D: its data is discarded, CMP is sent and MSG_STRAY raised (03 R101). -/
def Core.wbStray (p id : Nat) (s : Core) : Core :=
  match s.berth? id with
  | none => s
  | some r =>
    ((((s.completeEntry id opCmp).endEntry id).raiseAt famMsgStray p r.h.line r.h.agent).task (.wbDone r.h.line)).task .reserveFree

/-- KEEP of a WB_D. -/
def Berth.keepBit (r : Berth) : Bool := r.h.hint.getLsbD 2

/-- The data of a WB_D was made up for a lost line: its record becomes POISON (11 R376). -/
def Berth.lostData (r : Berth) : Bool := r.made && r.poison

/-- The record of a line whose data is lost (11 R376). -/
def HomeRec.lost : HomeRec := ⟨.poison, 0, .ptrs []⟩

/-- Whether writing a record would have to wait, because 1,024 records are held dirty and this one is clean and changes (05 R155). -/
def Core.dirtyBlocked (s : Core) (p : Nat) (b : Barge) (r : HomeRec) : Bool :=
  1024 ≤ (s.slice p).heldDirty &&
  (match s.hsLookup p b.line with
   | some (_, e) => !e.dirty && decide (e.rcd ≠ r.norm)
   | none => decide (b.stored.map HomeRec.norm ≠ some r.norm))

/-- Write a head's record where it is held, if it changes it (05 R154, R155). -/
def Core.storeRec (p id : Nat) (r : HomeRec) (s : Core) : Core :=
  match s.barge? p id with
  | none => s
  | some b =>
    let same : Bool := match s.hsLookup p b.line with
      | some (_, e) => e.rcd = r.norm
      | none => b.stored.map HomeRec.norm = some r.norm
    (if same then s else s.putRecord p b.line r).onBarge p id (fun b => { b with stored := b.stored.map (fun _ => r) })

/-- A WB_D with its data meets a head that has the record (06 R207). The head has snooped its own chip once a local round for it has begun.
Data with KEEP 1 serves as memory data: it is never what a response announced. A WB_D of a chip that the head has done with is stray; one
that comes before the decision while its record may not become dirty waits for a write-back with the head (05 R155). -/
def Core.wbMeet (p id wb : Nat) (s : Core) : Core :=
  match s.barge? p id, s.berth? wb with
  | some b, some r =>
    let o := agentInst r.h.agent
    let d := r.line
    let rcd := b.rcd.getD HomeRec.none
    let named := rcd.st = .x && rcd.owner = o && !b.committed && !b.wbFrom.contains o
    let take (s : Core) : Core := s.onBarge p id (fun b => { b with
      dirty := some (d, r.poison)
      dirtyEp := r.ep
      lost := b.lost || r.lostData
      fromWb := true
      wbFrom := b.wbFrom ++ [o]
      awaitWb := b.awaitWb.filter (fun c => c != o) })
    let keep (s : Core) : Core := s.onBarge p id (fun b => { b with
      mem := .have d r.poison (if r.lostData then 3 else 0)
      lost := b.lost || r.lostData })
    if b.awaitWb.contains o && !r.keepBit then ((take s).wbFinish wb).task (.advance p id)
    else if !named then s.wbStray p wb
    else match b.chips.find? (fun n => n.chip = o), b.plan with
      | some n, _ =>
        let mine := o = s.self
        let looking := b.roundFor = .lookup || b.roundFor = .resolve || b.roundFor = .resolveInv || b.roundFor = .resolveWb
        let begun := n.sent || (mine && (looking || b.locals.any (fun m => m.sent)))
        if r.keepBit then ((keep s).wbFinish wb).task (.advance p id)
        else if !begun then
          let s := (take s).onBarge p id (fun b => { b with
            locals := if mine then [] else b.locals
            roundFor := if mine then .none else b.roundFor
            chips := updateWhere (fun m => m.chip = o) (fun m => { m with sent := true, rsp := some (opRspD, stI, false) }) b.chips })
          (s.wbFinish wb).task (.advance p id)
        else match n.rsp with
          | none => (take s).wbFinish wb
          | some (op, _, f) => (s.onBarge p id (fun b => { b with
              wbFrom := b.wbFrom ++ [o]
              chips := updateWhere (fun m => m.chip = o) (fun m => { m with rsp := some (op, stI, f) }) b.chips })).wbFinish wb
      | none, some k =>
        if r.keepBit then (keep s).wbFinish wb
        else ((take s).onBarge p id (fun b => { b with
          plan := some (if k.work = .na then { k with toRec := HomeRec.none } else k) })).wbFinish wb
      | none, none =>
        let rec' : HomeRec := if r.lostData then HomeRec.lost else if r.keepBit then rcd else HomeRec.none
        if s.dirtyBlocked p b rec' then s.onBarge p id (fun b => { b with early := b.early ++ [wb] })
        else
          let s := (if r.keepBit || r.lostData then keep s else take s).onBarge p id (fun b => { b with rcd := some rec', lost := false })
          (s.storeRec p id rec').wbFinish wb
  | _, _ => s

/-- A WB_D whose page is locked for a rebuild is written and completed without waiting, whatever its KEEP (05 R179). -/
def Core.wbLocked (s : Core) (p : Nat) (x : LineAddr) : Bool :=
  match s.homeOffset (linePa x).toNat with
  | some ho => s.pageLocked (pageOf ho).1 && (s.hsLookup p x).isNone
  | none => false

/-- Dirty data of a chip for a line of a page under rebuild has come: a settle's, or a WB_D's. Data made up for a lost line makes the record
POISON (05 R178, R179, 11 R376). -/
def Core.pageData (chip : BitVec 6) (x : LineAddr) (lost wb : Bool) (s : Core) : Core :=
  match s.homeOffset (linePa x).toNat with
  | none => s
  | some ho =>
    let page := (pageOf ho).1
    let i := (pageOf ho).2
    (s.onPage page (fun j => { j with
      settles := if wb then j.settles
        else updateWhere (fun e => e.idx = i && e.chip = chip && e.sent) (fun e => { e with data := true }) j.settles
      wbs := if wb then j.wbs ++ [(i, chip)] else j.wbs
      lost := if lost then setBit j.lost i.toNat else j.lost })).settleCheckPage page

/-- A WB_D of a locked page is written at once, and is the current data of the line's barges (05 R179, 06 R207). -/
def Core.wbWritten (wb : Nat) (s : Core) : Core :=
  match s.berth? wb with
  | none => s
  | some r => (s.wbFinish wb).pageData (agentInst r.h.agent) r.h.line r.lostData true

/-- The first barge of a line's chamber that is at work. -/
def Core.headOf (s : Core) (p : Nat) (x : LineAddr) : Option Barge :=
  match (s.slice p).chambers.find? (fun c => c.line = x) with
  | some c => c.order.findSome? (fun i => (s.slice p).barge? i)
  | none => none

/-- A WB_D in the berth array comes to its line's chamber at the home with its data: one that is occupied takes it without its joining the
order; an empty one is made for it (06 R205, R207). A head that still waits for the record takes it up with the record; any other head that
has none does not hold it up: it looks the record up itself. One whose logical slice is not mapped waits in its berth. -/
def Core.wbArrive (p wb : Nat) (s : Core) : Core :=
  match s.berth? wb with
  | none => s
  | some r =>
    let x := r.h.line
    if 18 ≤ p || !r.full then s
    else if s.wbLocked p x then s.wbWritten wb
    else
      let (i, s) := s.fresh
      let b : Barge := { id := i, grp := 1, item := .req wb, line := x, stamp := r.stamp, phase := .atHome, given := true }
      let join (f : Chamber → Chamber) (s : Core) : Core := (s.onSlice p (fun y => { y with
        barges := y.barges ++ [b]
        chambers := if y.hasChamber x then updateWhere (fun c => c.line = x) f y.chambers else y.chambers ++ [⟨x, [i]⟩] })).task (.advance p i)
      match s.headOf p x with
      | none => join id s
      | some h =>
        if h.rcd.isSome && !h.reread then s.wbMeet p h.id wb
        else if h.phase = .recordWait || h.reread then s.onBarge p h.id (fun b => { b with early := b.early ++ [wb] })
        else join (fun c => { c with order := c.order.take 1 ++ [i] ++ c.order.drop 1 }) s

/-- Whether a WB_D that joined beside a head is still at the record of the line: the head's own lookup comes after it, and a later WB_D's
as well (06 R207). -/
def Core.wbBeside (s : Core) (p : Nat) (b : Barge) : Bool :=
  (s.slice p).barges.any (fun c => c.line = b.line && c.id != b.id && s.bargeOp c = opWbD &&
    (c.phase = .atHome || c.phase = .recordWait || c.phase = .toForward) && (s.bargeOp b != opWbD || decide (c.id < b.id)))

/-! Line data at the home. -/

/-- Data for the head's flow, with its poison and SOURCE: what a snoop returned, memory data, or data the chip holds (04 R116,
06 R207, R208, 07 R240, R246). -/
def Core.lineData (s : Core) (p : Nat) (b : Barge) : Option (LineData × Bool × BitVec 2) :=
  match b.dirty with
  | some (d, q) => some (d, q, if b.lost then 3 else 1)
  | none =>
    match b.mem with
    | .have d q c => some (d, q, c)
    | _ => s.heldData p b.line

/-- Ask memory for a barge's line once. -/
def Core.askMemory (p id : Nat) (s : Core) : Core :=
  match s.barge? p id with
  | none => s
  | some b =>
    if b.mem = .idle then (s.onBarge p id (fun b => { b with mem := .asked })).readLine b.line (.barge p id) else s

/-- The early read of a head (04 R116). A read's goes to memory although the Skillet holds the line, and is then discarded; a line that a
tray or a data slot holds is not read (06 R208, 07 R240, R246). -/
def Core.earlyRead (p id : Nat) (s : Core) : Core :=
  match s.barge? p id with
  | none => s
  | some b =>
    let op := s.bargeOp b
    let reads := op = opRdS || op = opRdF || op = opRdO || op = opRdNa
    let merges := (op = opWrPart || op = opAtom) && !(s.slice p).sklHit b.line
    if bit (s.reg offFlowCtl) 0 && (reads || merges) then
      match s.heldData p b.line with
      | some (d, q, c) =>
        let s := s.onBarge p id (fun b => { b with mem := .have d q c })
        if ((s.slice p).sklFind b.line).isSome then s.readLine b.line (.barge p id) else s
      | none => s.askMemory p id
    else s

/-- The Wharf endpoint a barge's line data leaves from (01 R42): where collected data came in, the Skillet's, the one of the data slot that
holds the line, or the memory port's. -/
def Core.dataFrom (s : Core) (p : Nat) (b : Barge) (source : BitVec 2) : Nat :=
  let mem := epMem (s.memPort (linePa b.line).toNat)
  if b.dirty.isSome then b.dirtyEp
  else if source = 2 then epSkl p
  else match s.latestWrite b.line with
    | some w =>
      match w.src, s.wharf.xfers.find? (fun x => x.act = .memory w.id) with
      | .berth k, _ => match s.berth? k with
        | some r => r.ep
        | none => mem
      | _, some x => x.src
      | _, none => mem
    | none => mem

/-- Send a read's data to the requester under its plan's opcode (03 R101): an E grant to a local agent whose chip keeps other
holders goes out as DAT_S (03 R106). -/
def Core.sendGrantData (p id : Nat) (d : LineData) (q : Bool) (c : BitVec 2) (s : Core) : Core :=
  match s.barge? p id with
  | none => s
  | some b =>
    match b.plan with
    | none => s
    | some k =>
      let h := s.bargeHdr b
      let me := agentInst h.agent = s.self
      let others := match (s.lsPeek p b.line).map s.maskTomb with
        | some e => clearBit e.v (agentLocal h.agent).toNat != 0
        | none => false
      let asS := me && k.datOp = opDatE && others
      let s := s.onBarge p id (fun b => { b with
        sentData := true
        gotData := true
        gotPoison := b.gotPoison || (me && q)
        asS := asS
        sent := true })
      match b.item with
      | .internal (.engineRead part) => { s with up := s.up ++ [.overlay part d q] }
      | _ => s.sendData (s.dataFrom p b c) b.stamp (mkDat (if asS then opDatS else k.datOp) h (s.epochOf b.line) s.self (agentInst h.agent) c
          false q (Beats.line d))

/-! Committing the record (03 R103, 05 R155). -/

/-- The record a collected barge writes, and how many responses tidied it. A WR_FULL leaves I whatever its snoops brought, and POISON when it
carries a dead agent's lost line (04 R133, 11 R376, R395). -/
def Core.finalRec (s : Core) (b : Barge) (k : Plan) : HomeRec × Nat :=
  if k.work = .wrFull then
    (if (match s.bargeReq b with
      | some r => r.lostWr
      | none => false) then HomeRec.lost else HomeRec.none, 0)
  else if b.lost then (HomeRec.lost, 0)
  else tidyAll s.planCfg b.chips (s.reqChip b) k.toRec

/-- Write the final record, once, and count its tidying responses. -/
def Core.commitRec (p id : Nat) (r : HomeRec × Nat) (s : Core) : Core :=
  match s.barge? p id with
  | none => s
  | some b =>
    if b.committed then s
    else
      let s := if r.2 = 0 then s else s.bump p 0x016 r.2
      (s.storeRec p id r.1).onBarge p id (fun b => { b with committed := true })

/-! Writes and merges (04 R131 to R134, 07 R232 to R242). -/

/-- Complete a write whose memory write is decided: at its posted point, keeping its entry until acceptance, or at its accepted
point (04 R131, R132). A WR_FULL that hit the Skillet has its line in its entry, which is written to memory (07 R240). -/
def Core.writeLine (p id : Nat) (d : LineData) (m : LineMask) (s : Core) : Core :=
  match s.barge? p id with
  | none => s
  | some b =>
    match b.item, s.bargeReq b, b.skl with
    | .internal (.engineWrite _ _), _, some i =>
      ((s.sklSet p i d b.stamp).sklWrite p i (some (p, id))).onBarge p id (fun b => { b with phase := .memWait })
    | .internal (.engineWrite src _), _, none => (s.queueWrite b.line d m false src b.stamp false none none none).2.endBarge p id
    | _, none, _ => s.endBarge p id
    | _, some r, skl =>
      if s.portSealed b.line then s.homeComplete p id opCmpPoison stI false 0 false
      else
        let post := s.mayPost b.line
        let s := match skl with
          | some i => (s.sklSet p i d b.stamp).onSlice p (fun x =>
              match mfind x.skl i with
              | some e => { x with skl := mput x.skl i { e with poison := r.lostWr } }
              | none => x)
          | none => s
        let src : WSrc := match skl with
          | some i => .skillet p i
          | none => .berth r.id
        let ep := match skl with
          | some _ => epSkl p
          | none => r.ep
        let s := s.onBerth r.id (fun x => { x with writing := true, posted := post, counted := post })
        let s := if post then s.countPosted else s
        let s := (s.queueWrite b.line d m r.lostWr src b.stamp post (some r.id) (if post then none else some (p, id)) (some ep)).2
        if post then s.homeComplete p id opCmp stI false 0 true
        else s.onBarge p id (fun b => { b with phase := .memWait })

/-- The result data and completion of an executed far ATOM (07 R225, R226). -/
def Core.atomDone (p id : Nat) (wrote : Bool) (old : Nat) (s : Core) : Core :=
  match s.barge? p id with
  | none => s
  | some b =>
    match b.plan, s.bargeReq b with
    | some k, some r =>
      let n := atomBytes r.h.param
      let sc := atomOp r.h.param = atomSc
      let status : Nat := if wrote || atomOp r.h.param = atomLr then 0 else 1
      let param := BitVec.ofNat 16 (status + k.reason.toNat * 4)
      let s := if sc then s else
        let d : Beats := ⟨BitVec.ofNat 2048 old, maskAt 0 n, true⟩
        let s := s.onBarge p id (fun b => { b with gotData := true })
        s.sendData (epSkl p) b.stamp (mkDat opDatNa r.h (s.epochOf b.line) s.self (agentInst r.h.agent) 2 false false d)
      s.homeComplete p id opCmpAtom stI (!sc) param false
    | _, _ => s

/-- After a merge or execution in Skillet entry i: complete at the posted point, or write the line and complete when memory
accepts it (04 R131, R132). -/
def Core.mergeDone (p id i : Nat) (wrote : Bool) (old : Nat) (s : Core) : Core :=
  match s.barge? p id with
  | none => s
  | some b =>
    let far : Bool := match b.plan with
      | some k => decide (k.work = Work.farAtom)
      | none => false
    let post := s.postedOn (s.memPort (linePa b.line).toNat)
    let finish (s : Core) : Core := if far then s.atomDone p id wrote old else s.homeComplete p id opCmp stI false 0 false
    if !wrote then finish s
    else if post then
      let s := if s.sklHigh = 0 then s.sklWrite p i none else s
      finish s
    else
      let s := if far then s.onBarge p id (fun b => { b with
          plan := b.plan.map (fun k => { k with resv := true })
          mem := .have (BitVec.ofNat 2048 old) false 2 }) else s
      (s.sklWrite p i (some (p, id))).onBarge p id (fun b => { b with phase := .memWait })

/-- The atomic's or merge's step in a filled Skillet entry, once the request's data has reached it too (04 R134, 07 R232). Poisoned line data
completes with CMP_POISON and writes nothing (11 R378). A successful CAS clears the line's reservations here, where it is known (07 R236). -/
def Core.mergeIn (p id i : Nat) (s : Core) : Core :=
  match s.barge? p id, mfind (s.slice p).skl i with
  | some b, some e =>
    match b.plan, s.bargeReq b with
    | some k, some r =>
      if e.poison then s.homeComplete p id opCmpPoison stI false 0 false
      else
        match r.data with
        | none => s.homeComplete p id opCmpPoison stI false 0 false
        | some q =>
          if b.operand != .arrived then s
          else if k.work = .farAtom then
            let (d, wrote, old) := atomExec r.h.param e.data q.data k.resv
            let s := if atomOp r.h.param = atomLr then s.setFar r.h.agent b.line else s
            let s := if wrote && atomOp r.h.param = atomCas then s.clearFar b.line else s
            (if wrote then s.sklSet p i d b.stamp else s).mergeDone p id i wrote old
          else
            (s.sklSet p i (mergeLine e.data q.data q.mask) b.stamp).mergeDone p id i true 0
    | _, _ => s
  | _, _ => s

/-- A WB_D's data whose write has not started enters the Skillet in its place: the entry becomes DIRTY under the WB_D's stamp, and the berth
entry and slot are freed (06 R207). A WB_D that is not posted completes at that moment (DESIGN CHOICE, log entry 66: the spec does not say
when). -/
def Core.takeWb (p i : Nat) (x : LineAddr) (s : Core) : Core :=
  let own (w : MWrite) : Bool := match w.src with
    | .berth k => (match s.berth? k with
      | some r => r.op = opWbD
      | none => false)
    | _ => false
  match (s.mem.writes.filter (fun w => w.line = x && w.slot)).getLast? with
  | none => s
  | some w =>
    if !own w || w.tag.isSome || w.crossed then s
    else
      let s := s.dropWrite w.id
      let s := match w.frees with
        | some k =>
          match s.berth? k with
          | some r =>
            let s := if r.posted then s else s.completeEntry k opCmp
            let s := if r.counted then s.onHost (fun h => { h with posted := h.posted - 1 }) else s
            ((s.endEntry k).task (.wbDone x)).task .reserveFree
          | none => s
        | none => s
      s.sklSet p i w.data w.stamp

/-- Present the request's data at the Wharf for the barge's Skillet entry, once (01 R43, 07 R232). -/
def Core.operandGo (p id : Nat) (s : Core) : Core :=
  match s.barge? p id with
  | none => s
  | some b =>
    match s.bargeReq b with
    | none => s
    | some r =>
      if b.operand != .notYet || r.data.isNone then s
      else (s.onBarge p id (fun b => { b with operand := .presented })).present r.ep (epSkl p) b.stamp (.skillet p id true)

/-- The fill of a barge's reserved entry: its data crosses the Wharf from where it is held, then fills the entry (01 R43, 07 R241). Collected
data stays dirty in it, and a slot's data leaves the slot if its write has not started (06 R207). -/
def Core.fillGo (p id i : Nat) (s : Core) : Core :=
  match s.barge? p id with
  | none => s
  | some b =>
    match b.fill, s.lineData p b with
    | .presented, _ => s
    | .notYet, none | .arrived, none => s.askMemory p id
    | .notYet, some (_, _, c) =>
      (s.onBarge p id (fun b => { b with fill := .presented })).present (s.dataFrom p b c) (epSkl p) b.stamp (.skillet p id false)
    | .arrived, some (d, q, _) =>
      let s := s.sklFill p i d q
      let s := if b.dirty.isSome && !b.fromWb then (s.sklSet p i d b.stamp).task .reserveFree else s.takeWb p i b.line
      s.mergeIn p id i

/-- Take the line's Skillet entry for a head that hits it, pinned until it is collected (07 R240, R241). One that maintenance pins is waited
for (07 R248). -/
def Core.sklTake (p id i : Nat) (e : SklEnt) (s : Core) : Core :=
  if e.pinned then s
  else ((((s.sklPin p i true).sklUse p i).bump p 0x033 1).onBarge p id (fun b => { b with skl := some i })).task (.advance p id)

/-- Merge or execute a WR_PART or far ATOM in the Skillet: on a hit in the line's entry; else in an entry reserved through the
miss register and filled from a snoop's data, a tray, or memory (04 R134, 07 R240, R241). -/
def Core.skilletWork (p id : Nat) (s : Core) : Core :=
  match s.barge? p id with
  | none => s
  | some b =>
    match b.skl with
    | some i =>
      let s := s.operandGo p id
      match mfind (s.slice p).skl i with
      | none => s
      | some e => if e.filling then s.fillGo p id i else s.mergeIn p id i
    | none =>
      match (s.slice p).sklFind b.line with
      | some (i, e) => s.sklTake p id i e
      | none =>
        let tray := b.dirty.isNone && s.trayHas p b.line
        let held := match (s.slice p).miss with
          | some k => k != id
          | none => false
        if !tray && held then s
        else
          match s.sklReserve p b.line with
          | none => if tray then s else s.onSlice p (fun x => { x with miss := some id })
          | some (i, s) =>
            let s := s.onSlice p (fun x => { x with miss := if x.miss = some id then none else x.miss })
            let s := if ((s.slice p).warmFind b.line).isSome then s.bump p 0x037 1 else s
            let s := (if tray then s.fromTray p i b.line else s).bump p (if tray then 0x033 else 0x034) 1
            (s.onBarge p id (fun b => { b with skl := some i, given := true })).task (.advance p id)

/-! Collection (04 R122). -/

/-- Nothing a barge waits for is outstanding. -/
def Barge.collected (b : Barge) : Bool :=
  b.chips.all (fun n => n.rsp.isSome) && !b.awaitD && b.awaitWb.isEmpty && b.roundFor = RoundFor.none

/-- Dirty data a snoop returned is written to memory from the chamber data reserve, unless a WB_D's own slot writes it
(04 R131, 06 R190, R207). Answers whether the completion must await that write, when it may not be posted. -/
def Core.writeDirty (p id : Nat) (s : Core) : Bool × Core :=
  match s.barge? p id with
  | none => (false, s)
  | some b =>
    match b.dirty with
    | some (d, q) =>
      if b.fromWb || s.portSealed b.line then (false, s)
      else if s.mayPost b.line then
        (false, (s.countPosted.queueWrite b.line d fullMask q .reserve b.stamp true none none (some b.dirtyEp)).2)
      else (true, (s.queueWrite b.line d fullMask q .reserve b.stamp false none (some (p, id)) (some b.dirtyEp)).2)
    | none => (false, s)

/-- A collected read, RD_O, UPG or near ATOM: its record, its dirty data, and its completion. -/
def Core.finishRead (p id : Nat) (k : Plan) (s : Core) : Core :=
  match s.barge? p id with
  | none => s
  | some b =>
    let r := s.finalRec b k
    if s.dirtyBlocked p b r.1 then s
    else
      let (wait, s) := (s.commitRec p id r).writeDirty p id
      if wait then s.onBarge p id (fun b => { b with phase := .memWait })
      else
        match b.item with
        | .internal _ => s.endBarge p id
        | _ => s.homeComplete p id k.cmpOp k.grant (k.work != .upg) 0 false

/-- The plan of a write or read whose X owner answered RSP_ABSENT: the I row's (03 R103). -/
def Core.planFromI (s : Core) (b : Barge) (k : Plan) : Plan :=
  let c := s.reqChip b
  let cfg := s.planCfg
  let n := HomeRec.none
  match k.work with
  | .read => (planRead cfg c n).1
  | .own => (planOwn cfg c n k.cmpOp).1
  | .upg => (planUpg cfg c n).1
  | .na => (planNa c n).1
  | .wrFull => (planWrFull cfg n).1
  | w => { (planPart cfg n w k.cmpOp).1 with reason := k.reason, stop := k.stop, resv := k.resv }

/-- What a grant of M or E does at the decision: its data is taken from the Skillet before the line leaves it (07 R238), and
every far reservation covering the line is cleared (07 R236). -/
def Core.grantOwn (p id : Nat) (s : Core) : Core :=
  match s.barge? p id with
  | none => s
  | some b =>
    let s := if (s.slice p).sklHit b.line then
        match s.heldData p b.line with
        | some (d, q, c) => (s.onBarge p id (fun b => { b with mem := .have d q c })).bump p 0x033 1
        | none => s
      else s
    (s.sklLeave p b.line).clearFar b.line

/-- The X owner answered RSP_ABSENT: the request goes on as from I, and that response tidied the record (03 R103). -/
def Core.asFromI (p id : Nat) (k : Plan) (s : Core) : Core :=
  match s.barge? p id with
  | none => s
  | some b =>
    let k := s.planFromI b k
    let s := (s.onBarge p id (fun b => { b with plan := some k, rcd := some HomeRec.none })).bump p 0x016 1
    if k.grant = stE || k.grant = stM then s.grantOwn p id else s

/-- Memory data of an ownership request leaves as soon as the data and the decision allow, ahead of the responses (04 R127). -/
def Core.earlyData (p id : Nat) (s : Core) : Core :=
  match s.barge? p id with
  | none => s
  | some b =>
    match b.plan with
    | none => s
    | some k =>
      if b.phase != .collecting || k.work != .own || k.supply != .memory || b.sentData then s
      else match s.lineData p b with
        | some (d, q, c) => s.sendGrantData p id d q c
        | none => s.askMemory p id

/-- A collected WR_FULL: a line that the Skillet holds takes its data in its entry, after the data has crossed the Wharf to it; an engine's
needs no crossing (07 R240, 01 R43). -/
def Core.fullWork (p id : Nat) (r : HomeRec × Nat) (s : Core) : Core :=
  match s.barge? p id with
  | none => s
  | some b =>
    let d : LineData := match b.item, s.bargeReq b with
      | .internal (.engineWrite _ d), _ => d
      | _, some q => q.line
      | _, none => 0
    match b.skl, (s.slice p).sklFind b.line with
    | none, some (i, e) => s.sklTake p id i e
    | none, none => (s.commitRec p id r).writeLine p id d fullMask
    | some _, _ =>
      let s := s.operandGo p id
      if b.operand = .arrived || (s.bargeReq b).isNone then (s.commitRec p id r).writeLine p id d fullMask else s

/-- A WR_PART or far ATOM that writes no line: its operand never comes, because its agent is dead, or the line's dirty data is poisoned. What
its snoops brought goes to memory (11 R376, R378, R395). -/
def Core.noMerge (p id : Nat) (s : Core) : Core :=
  let s := s.onBarge p id (fun b => { b with plan := b.plan.map (fun k => { k with cmpOp := opCmpPoison }) })
  let (wait, s) := s.writeDirty p id
  if wait then s.onBarge p id (fun b => { b with phase := .memWait })
  else s.homeComplete p id opCmpPoison stI false 0 false

/-- A collected write or far ATOM with its data (04 R131 to R134). -/
def Core.homeWrite (p id : Nat) (k : Plan) (s : Core) : Core :=
  match s.barge? p id with
  | none => s
  | some b =>
    let (full, mask, data) : Bool × LineMask × LineData := match s.bargeReq b with
      | some q => (q.full, (match q.data with
        | some d => d.mask
        | none => 0), q.line)
      | none => (true, fullMask, 0)
    let operand : Bool := match s.bargeReq b with
      | some q => q.data.isSome
      | none => true
    let r := s.finalRec b k
    if !full || s.dirtyBlocked p b r.1 || b.phase = .memWait then s
    else if k.work = .wrFull then s.fullWork p id r
    else
      let s := s.commitRec p id r
      let poisoned : Bool := match b.dirty with
        | some (_, q) => q
        | none => false
      if !operand || poisoned then s.noMerge p id
      else if k.stop && !k.fromX && b.skl.isNone && !(s.slice p).sklHit b.line then (s.bump p 0x035 1).writeLine p id data mask
      else s.skilletWork p id

/-- A barge at the home goes on: memory data of an ownership request leaves before the responses (04 R127); an absent owner turns the flow to
the I row; a collected barge writes its record, its data and its completion. -/
def Core.homeAdvance (p id : Nat) (s : Core) : Core :=
  let s := s.earlyData p id
  match s.barge? p id with
  | none => s
  | some b =>
    match b.plan, b.rcd with
    | some k0, some r0 =>
      if !b.collected then s
      else
        let s := if ownerAbsent r0 b.chips then s.asFromI p id k0 else s
        match s.barge? p id with
        | none => s
        | some b =>
          let k := b.plan.getD k0
          if k.work = .upg then s.finishRead p id k
          else if k.work = .read || k.work = .own || k.work = .na then
            if b.sentData || (k.supply = .forward && chipSupplied b.chips) then s.finishRead p id k
            else match s.lineData p b with
              | some (d, q, c) => (s.sendGrantData p id d q c).finishRead p id k
              | none => s.askMemory p id
          else s.homeWrite p id k
    | _, _ => s

/-! The decision (03 R101, R102). -/

/-- Record a decision: its plan, its snoops, the local snoops of this chip (04 R123, R124), and go on. -/
def Core.decided (p id : Nat) (k : Plan) (snoops : List (BitVec 6 × BitVec 8 × BitVec 4)) (s : Core) : Core :=
  match s.barge? p id with
  | none => s
  | some b =>
    let me := s.reqChip b = s.self
    let s := s.onBarge p id (fun b => { b with
      plan := some k
      phase := .collecting
      chips := snoops.map (fun n => ⟨n.1, n.2.1, n.2.2, false, none⟩)
      given := true })
    let co := if me && k.grant = stM then
        match (s.lsPeek p b.line).map s.maskTomb with
        | some e => (agentsOf e.v).filter (fun l => l != s.requester b)
        | none => []
      else []
    let s := s.sendChipSnoops p id
    let s := if snoops.any (fun n => n.1 = s.self) then s.lookupEntry p id
      else if co.isEmpty then s
      else s.startRound p id .coHolders (co.map (fun l => (l, opSnpI, (0 : BitVec 4))))
    s.task (.advance p id)

/-- The POISON rows of R102, but for WR_FULL. -/
def Core.poisonRow (p id : Nat) (r : Berth) (s : Core) : Core :=
  if r.op = opRdF then s.homeComplete p id opCmpTrap stI false 0 false
  else if channelClass r.op r.h.hint then s.homeComplete p id opCmpHalt stI false 0 false
  else if r.op = opAtom || r.op = opWrPart then s.homeComplete p id opCmpPoison stI false 0 false
  else
    match s.barge? p id with
    | none => s
    | some b =>
      let me := agentInst r.h.agent = s.self
      let s := s.onBarge p id (fun b => { b with gotData := true, gotPoison := b.gotPoison || me })
      let s := s.sendData (epMem (s.memPort (linePa b.line).toNat)) b.stamp
        (mkDat opDatNa r.h (s.epochOf b.line) s.self (agentInst r.h.agent) 3 false true (Beats.line lostLine))
      s.homeComplete p id opCmpPoison stI true 0 false

/-- Whether a line's chamber holds a barge besides this one (07 R229). -/
def Core.chamberBusy (s : Core) (p : Nat) (x : LineAddr) : Bool :=
  (s.slice p).chambers.any (fun c => c.line = x && decide (1 < c.order.length))

/-- The place of an ATOM at the home: near, or far with its REASON (07 R225, R227, R229). -/
def Core.atomAtHome (p : Nat) (b : Barge) (r : Berth) (rcd : HomeRec) (s : Core) : Option (BitVec 2) × Core :=
  let x := b.line
  if b.near then (none, s)
  else if s.isIo r.h.agent || atomOp r.h.param = atomSc then (some 2, s)
  else if atomFar r.h.param then (some 1, s)
  else if s.predMode = 1 then (none, s)
  else if s.predMode = 2 then (some 3, s)
  else
    let far := s.predFar p x
    let c := agentInst r.h.agent
    let shared := match rcd.st with
      | .x => rcd.owner != c
      | .s | .sf => (rcd.chips.named s.members).any (fun d => d != c)
      | _ => false
    let s := (s.train p x (s.chamberBusy p x) shared).bump p (if far then 0x031 else 0x030) 1
    (if far then some 0 else none, s)

/-- The far ATOM's decision: an SC succeeds or fails here against the far reservation table, and an operation that always writes clears the
line's reservations (07 R236, R237). -/
def Core.decideFar (p id : Nat) (r : Berth) (rcd : HomeRec) (reason : BitVec 2) (s : Core) : Core :=
  let (k, l) := planPart s.planCfg rcd .farAtom opCmpAtom
  let op := atomOp r.h.param
  let ok := op = atomSc && s.farHolds r.h.agent r.h.line
  let s := if op = atomSc && !ok then (s.clearFarOf r.h.agent).bump p 0x038 1
    else if op = atomLr then s.clearFarOf r.h.agent
    else if op = atomCas then s
    else s.clearFar r.h.line
  s.decided p id { k with reason := reason, resv := ok } l

/-- The head of a WB_D: it waits for its data, as its write does (03 R101, 04 R119, R135). -/
def Core.decideWb (p id : Nat) (r : Berth) (rcd : HomeRec) (s : Core) : Core :=
  match s.barge? p id with
  | none => s
  | some b =>
    let wait := s.onBarge p id (fun b => { b with phase := .recordWait })
    if !r.full then wait
    else if rcd.st = .x && rcd.owner = agentInst r.h.agent then
      let dest : HomeRec := if r.lostData then HomeRec.lost else if r.keepBit then rcd else HomeRec.none
      if s.dirtyBlocked p b dest then wait
      else (((s.commitRec p id (dest, 0)).bump p 0x008 1).wbFinish r.id).endBarge p id
    else (s.wbStray p r.id).endBarge p id

/-- A read decided on a line that the Skillet or a tray holds: a hit, and a use of its entry (07 R240, R241). -/
def Core.readHit (p : Nat) (x : LineAddr) (s : Core) : Core :=
  if !(s.slice p).sklHit x then s
  else match (s.slice p).sklFind x with
    | some (i, _) => (s.sklUse p i).bump p 0x033 1
    | none => s.bump p 0x033 1

/-- The decision of a request (03 R101, R102, 04 R134, 07 R243). -/
def Core.decideReq (p id : Nat) (r : Berth) (rcd : HomeRec) (s : Core) : Core :=
  let c := agentInst r.h.agent
  let cfg := s.planCfg
  let served := r.op = opAtom || r.op = opWrPart || r.op = opRdS || r.op = opRdF || r.op = opRdNa || r.op = opRdO
  let s := if served then s else s.dropWarm p r.h.line
  if r.op = opWbD then s.decideWb p id r rcd
  else if r.op = opWrPart then
    let (stop, s) := s.detect p r.h.line
    let mask := match r.data with
      | some d => d.mask
      | none => 0
    let s := s.clearFar r.h.line
    if r.full && r.data.isSome && mask = 0 then s.homeComplete p id opCmp stI false 0 false
    else
      if r.full && mask = fullMask then
        let (k, l) := planWrFull cfg rcd
        (s.dropWarm p r.h.line).decided p id k l
      else if rcd.st = .poison then s.poisonRow p id r
      else
        let (k, l) := planPart cfg rcd .wrPart opCmp
        s.decided p id { k with stop := stop } l
  else if r.op = opWrFull then
    let (k, l) := planWrFull cfg rcd
    (s.clearFar r.h.line).decided p id k l
  else if rcd.st = .poison then s.poisonRow p id r
  else if r.op = opAtom then
    match s.barge? p id with
    | none => s
    | some b =>
      match s.atomAtHome p b r rcd with
      | (some reason, s) => s.decideFar p id r rcd reason
      | (none, s) =>
        let (k, l) := planOwn cfg c rcd opCmpNear
        let s := if atomOp r.h.param = atomLr then s.clearFarOf r.h.agent else s
        (s.grantOwn p id).decided p id k l
  else if r.op = opRdO then
    let (k, l) := planOwn cfg c rcd opCmp
    (s.grantOwn p id).decided p id k l
  else if r.op = opUpg then
    let (k, l) := planUpg cfg c rcd
    (s.grantOwn p id).decided p id k l
  else if r.op = opRdNa then
    let (k, l) := planNa c rcd
    (s.readHit p r.h.line).decided p id k l
  else
    let (k, l) := planRead cfg c rcd
    let s := if k.grant = stE then s.grantOwn p id else s.readHit p r.h.line
    s.decided p id k l

/-- Whether maintenance by entry pins the line's Skillet entry: a lookup that hits it waits (07 R248). -/
def Core.maintPinned (s : Core) (p : Nat) (x : LineAddr) : Bool :=
  match (s.slice p).sklFind x with
  | some (_, e) => e.pinned
  | none => false

/-- The decision of a head that has its record: WB_Ds that waited for the record meet it first (06 R207). -/
def Core.decideHead (p id : Nat) (s : Core) : Core :=
  match s.barge? p id with
  | none => s
  | some b =>
    let s := s.onBarge p id (fun b => { b with early := [] })
    let s := foldS (Core.wbMeet p id) b.early s
    match s.barge? p id with
    | none => s
    | some b =>
      let rcd := b.rcd.getD HomeRec.none
      if !b.early.isEmpty || (s.bargeOp b != opWbD && s.maintPinned p b.line) then
        s.onBarge p id (fun b => { b with phase := .recordWait })
      else match b.item, s.bargeReq b with
      | .internal (.engineWrite _ _), _ =>
        let (k, l) := planWrFull s.planCfg rcd
        ((s.dropWarm p b.line).clearFar b.line).decided p id k l
      | .internal (.engineRead _), _ =>
        let (k, l) := planNa (rcd.owner + 1) rcd
        (s.readHit p b.line).decided p id k l
      | _, some r => s.decideReq p id r rcd
      | _, none => s.endBarge p id

/-! SETTLE (04 R137). -/

/-- Slices whose Skillets hold lines in service. -/
def Core.servingSlices (s : Core) : List Nat :=
  (List.range 18).filter (fun p => (s.slice p).st = .serving || (s.slice p).st = .draining || (s.slice p).st = .proof)

/-- As old as a stamp, or older. -/
def Core.asOld (s : Core) (t u : Stamp) : Bool := decide (age s.host.tick u ≤ age s.host.tick t)

/-- Skillet entries a SETTLE waits for. -/
def Core.settleLines (s : Core) (p : Nat) (stamp : Stamp) : List Nat :=
  ((s.slice p).skl.filter (fun e => e.2.dirty && s.asOld e.2.oldest stamp)).map (fun e => e.1)

/-- Whether something a SETTLE covers awaits acceptance. -/
def Core.settlePending (s : Core) (r : Berth) : Bool :=
  s.host.berths.any (fun b => b.h.agent = r.h.agent && !b.own && !b.ended && carriesData b.op && (b.posted || b.writing) &&
    decide (b.seq < r.seq)) ||
  s.servingSlices.any (fun p => !(s.settleLines p r.stamp).isEmpty || (s.slice p).drip.any (fun e => s.asOld e.2.oldest r.stamp))

/-- The SETTLE head: start the writes of the lines it names, and complete when nothing is pending. -/
def Core.settleCheck (p id : Nat) (s : Core) : Core :=
  match s.barge? p id with
  | none => s
  | some b =>
    match s.bargeReq b with
    | none => s.endBarge p id
    | some r =>
      if s.settlePending r then
        let s := foldS (fun q s => foldS (fun i s =>
          if s.mem.writes.any (fun w => w.src = .skillet q i) then s else s.sklWrite q i none) (s.settleLines q r.stamp) s)
          s.servingSlices s
        s.onBarge p id (fun b => { b with phase := .settleWait, given := true })
      else s.homeComplete p id opCmpSettle stI false 0 false

/-! Internal operations (07 R244 to R247, 05 R183). -/

/-- The warming tray entry a prefetch takes (07 R245). -/
def Slice.warmSlot (x : Slice) : Option Nat :=
  match (List.range 4).find? (fun i => !mhas x.warm i) with
  | some i => some i
  | none =>
    match x.warm.filter (fun e => e.2.data.isSome) with
    | [] => none
    | e :: l => some (l.foldl (fun b f => if f.2.filled < b.2.filled then f else b) e).1

/-- A prefetch as head: a lookup of the Home Sieve that hits is a use of its way (05 R595, 07 R244). -/
def Core.prefetchHead (p id : Nat) (s : Core) : Core :=
  match s.barge? p id with
  | none => s
  | some b =>
    let found := s.hsLookup p b.line
    let s := match found, s.homeOffset (linePa b.line).toNat with
      | some (w, _), some ho => s.hsTouch p (hsIndex ho).1 w
      | _, _ => s
    let ok := match found with
      | some (_, e) => e.rcd.st = RecSt.i || e.rcd.st = RecSt.s || e.rcd.st = RecSt.sf
      | none => false
    match (if ok then (s.slice p).warmSlot else none) with
    | none => s.endBarge p id
    | some i =>
      let s := s.onSlice p (fun x => { x with warm := mput x.warm i { line := b.line, data := none, filled := 0 } })
      let s := s.onBarge p id (fun b => { b with phase := .fillWait, given := true })
      match s.heldData p b.line with
      | some (d, q, c) => s.present (s.dataFrom p b c) (epSkl p) b.stamp (.warm p i id d q)
      | none => s.readLine b.line (.warm p i id)

/-- Memory data of a prefetch crosses the Wharf to its slice's tray (01 R43, 07 R245). -/
def Core.warmCame (p i id : Nat) (d : LineData) (q : Bool) (s : Core) : Core :=
  match s.barge? p id with
  | none => s
  | some b => s.present (epMem (s.memPort (linePa b.line).toNat)) (epSkl p) b.stamp (.warm p i id d q)

/-- Prefetched data lands in its tray entry (07 R245). Poisoned data leaves the entry empty. -/
def Core.warmLand (p i id : Nat) (d : LineData) (q : Bool) (s : Core) : Core :=
  let s := s.onSlice p (fun x =>
    match mfind x.warm i with
    | some e =>
      if e.data.isSome then x
      else if q then { x with warm := merase x.warm i }
      else { x with warm := mput x.warm i { e with data := some d, filled := x.warmFills + 1 }, warmFills := x.warmFills + 1 }
    | none => x)
  s.endBarge p id

/-- Maintenance by address as head, again after each acceptance (07 R247). -/
def Core.maintStep (p id : Nat) (o : MaintOp) (cmd : Nat) (s : Core) : Core :=
  match s.barge? p id with
  | none => s
  | some b =>
    let s := if o = .clean then s else s.dropWarm p b.line
    let s := s.onBarge p id (fun b => { b with phase := .fillWait, given := true })
    if ((s.slice p).dripFind b.line).isSome then s
    else
      let done (s : Core) : Core := ({ s with up := s.up ++ [Up.maint cmd] }).endBarge p id
      match (s.slice p).sklFind b.line with
      | none => done s
      | some (i, e) =>
        if e.pinned then s
        else if e.dirty then
          if s.mem.writes.any (fun w => w.src = .skillet p i) then s else s.sklWrite p i none
        else if o = .clean then done s
        else done (s.onSlice p (fun x => { x with skl := merase x.skl i }))

/-- The tidy of an Overflow entry as head: SNP_S to every agent of V (05 R183), or its resolution for AGENT_ADMIT (15 R525). An entry that has left the Overflow Larder
needs none. -/
def Core.tidyGo (p id : Nat) (e : Option LocEnt) (s : Core) : Core :=
  match s.barge? p id, e with
  | some b, some v0 =>
    let v := s.maskTomb v0
    let sweep : Bool := match b.item with
      | .internal (.sweep _) => true
      | _ => false
    if sweep then (if (s.lsPeek p b.line).isSome then s.reapDead p b.line else s.reapOvf b.line v0).endBarge p id
    else if (s.lsPeek p b.line).isSome || !(v.st = LocSt.s || v.st = LocSt.sf) then s.endBarge p id
    else
      (s.onBarge p id (fun b => { b with phase := .fillWait, tidyEnt := some v })).startRound p id .tidy
        ((agentsOf v.v).map (fun l => (l, opSnpS, (0 : BitVec 4))))
  | _, _ => s.endBarge p id

/-- The end of a tidy: the entry is written back with only V reduced by the agents that left it, or deleted (05 R183). -/
def Core.tidyDone (p id : Nat) (s : Core) : Core :=
  match s.barge? p id with
  | none => s
  | some b =>
    match b.tidyEnt with
    | none => s.endBarge p id
    | some e =>
      let v := b.locals.foldl (fun (v : BitVec 64) n => match n.rsp with
        | some (_, r, _) => if r = stI then clearBit v n.loc.toNat else v
        | none => v) e.v
      (s.ovfAdd .tidyWrite b.line (if v = 0 then none else some { e with v := v })).endBarge p id

end Sys2Proof.Machine
end

