-- ==== Sys2Proof/Machine/Advance.lean ====
section
/-!
DEFINITION. Sys2Proof/Machine/Advance.lean: how a barge goes on: the home lookup, the grant at the proxy, the end of each local
round, and what an accepted memory write, a freed slot or a credit lets go (04 R117 to R137, 05 R150, 06 R206 to R210, 07
R242 to R246, 08 R262 to R272).
-/
namespace Sys2Proof.Machine

/-- A barge at the home looks its record up: in the Home Sieve, else through the Larder engine (05 R150, R152). -/
def Core.homeLookup (p id : Nat) (s : Core) : Core :=
  match s.barge? p id with
  | none => s
  | some b =>
    match b.item with
    | .internal .prefetch => s.prefetchHead p id
    | .internal (.maint op cmd) => s.maintStep p id op cmd
    | .internal (.sweep _) =>
      if (s.lsPeek p b.line).isNone then
        (s.onBarge p id (fun b => { b with phase := .fillWait, roundFor := .lookup })).ovfAdd (.tidyRead p id) b.line none
      else (s.reapDead p b.line).endBarge p id
    | .internal .tidy =>
      (s.onBarge p id (fun b => { b with phase := .fillWait, roundFor := .lookup })).ovfAdd (.tidyRead p id) b.line none
    | _ =>
      let op := s.bargeOp b
      if op = opSettle then s.settleCheck p id
      else if s.wbBeside p b then s.onBarge p id (fun b => { b with phase := .toForward })
      else if op = opWbD && s.wbLocked p b.line then
        match s.bargeReq b with
        | some r => if r.full then (s.wbWritten r.id).endBarge p id else s.onBarge p id (fun b => { b with phase := .toForward })
        | none => s
      else match s.homeOffset (linePa b.line).toNat with
        | none => s.endBarge p id
        | some ho =>
          match s.hsLookup p b.line with
          | some (w, e) =>
            let s := (s.hsTouch p (hsIndex ho).1 w).bump p 0x010 1
            (s.onBarge p id (fun b => { b with rcd := some e.rcd })).decideHead p id
          | none =>
            let s := (s.onBarge p id (fun b => { b with phase := .recordWait })).bump p 0x011 1
            s.larderOp (pageOf ho).1 (.fetch p id (pageOf ho).2)

/-- The record of a barge's line has come, for the first time or again after its way failed (05 R157): it fills a Home Sieve way unless one
holds the record by now, and the head decides, or goes on (05 R150, R154). -/
def Core.recordCame (p id : Nat) (r : HomeRec) (s : Core) : Core :=
  match s.barge? p id with
  | none => s
  | some b =>
    if b.reread then
      let s := if (s.hsLookup p b.line).isNone then s.hsFill p b.line r else s
      let now := match s.hsLookup p b.line with
        | some (_, e) => e.rcd
        | none => r
      let alone := (s.hsLookup p b.line).isNone
      let s := s.onBarge p id (fun b => { b with reread := false, rcd := some now, stored := if alone then some r else none, early := [] })
      let s := s.task (.advance p id)
      foldS (fun w s => s.task (.wbArrive p w)) b.early s
    else if b.phase = .recordWait && b.rcd.isNone then
      match s.hsLookup p b.line with
      | some (_, e) => (s.onBarge p id (fun b => { b with rcd := some e.rcd })).decideHead p id
      | none =>
        let s := s.hsFill p b.line r
        let alone := (s.hsLookup p b.line).isNone
        (s.onBarge p id (fun b => { b with rcd := some r, stored := if alone then some r else none })).decideHead p id
    else s

/-- Memory data for a barge (04 R116): kept until its flow uses it. -/
def Core.memCame (p id : Nat) (d : LineData) (q : Bool) (s : Core) : Core :=
  match s.barge? p id with
  | none => s
  | some b =>
    if b.mem = .asked then (s.onBarge p id (fun b => { b with mem := .have d q 0 })).task (.advance p id) else s

/-- The end of the SNP_I round to other local holders: the entry names the requester alone (03 R106). At the home the round counts
with the snoops to other chips (04 R124). -/
def Core.coHoldersDone (p id : Nat) (s : Core) : Core :=
  match s.barge? p id with
  | none => s
  | some b =>
    let a := s.requester b
    let e := (s.lsPeek p b.line).map s.maskTomb
    let e' := match e with
      | some v => if v.v.getLsbD a.toNat then some { v with v := oneHot 64 a.toNat } else none
      | none => none
    let s := if e.isSome then s.lsPut p b.line e' else s
    let s := s.onBarge p id (fun b => { b with locals := [], roundFor := .none })
    if b.phase = .granted then s.grantStep p id else s.homeAdvance p id

/-- The end of a local round, by what it was for. -/
def Core.localDone (p id : Nat) (s : Core) : Core :=
  match s.barge? p id with
  | none => s
  | some b =>
    match b.roundFor with
    | .resolve => s.resolveDone p id
    | .resolveInv => s.resolveInvDone p id
    | .row => s.rowDone p id
    | .chip => s.chipDone p id
    | .coHolders => s.coHoldersDone p id
    | .tidy => s.tidyDone p id
    | .resolveWb =>
      if s.resolveWbDone b then
        let e := (s.lsPeek p b.line).map s.maskTomb
        (s.onBarge p id (fun b => { b with roundFor := .none, wbTags := [] })).actOnEntry p id e
      else s
    | .none | .lookup => s

/-- A barge goes on as far as what it has allows. While it asks its own chip, memory data for its requester goes ahead (04 R127). -/
def Core.advance (p id : Nat) (s : Core) : Core :=
  match s.barge? p id with
  | none => s
  | some b =>
    if (s.slice p).st = .sealed_ || b.reread then s
    else if b.roundFor != .none then
      let s := s.earlyData p id
      if b.roundFor != .lookup && b.roundOver then s.localDone p id else s
    else match b.phase with
      | .toForward => s.toHome p id
      | .atHome => s.homeLookup p id
      | .collecting => s.homeAdvance p id
      | .granted => s.grantStep p id
      | .settleWait => s.settleCheck p id
      | .recordWait => if b.rcd.isSome then s.decideHead p id else s
      | .fillWait =>
        match b.item with
        | .internal (.maint op cmd) => s.maintStep p id op cmd
        | _ => s
      | _ => s

/-! What waiting barges are told. -/

/-- Every barge of every slice that meets a test, advanced. -/
def Core.advanceWhere (f : Barge → Bool) (s : Core) : Core :=
  foldS (fun p s => foldS (fun (b : Barge) s => if f b then s.advance p b.id else s) (s.slice p).barges s) (List.range 18) s

/-- A slot, an entry or a count of a slice is free: its waiting barges may go on. -/
def Core.kick (p : Nat) (s : Core) : Core :=
  let lost (b : Barge) (s : Core) : Bool := b.roundFor = .lookup && !s.eng.ovf.any (fun j => match j.op with
    | .lookup q i => q = p && i = b.id
    | .tidyRead q i => q = p && i = b.id
    | _ => false)
  foldS (fun (b : Barge) s =>
    if lost b s then s.lookupEntry p b.id
    else if b.roundFor = .none then s.advance p b.id
    else s) (s.slice p).barges s

/-- A WB_D of this chip for a line has its completion, or its place in the chamber: forwards and resolutions that wait for it go
on (05 R162, 06 R210). -/
def Core.wbDoneFor (x : LineAddr) (s : Core) : Core :=
  (s.sendOwnWbs).advanceWhere (fun b => b.line = x && (b.roundFor = .resolveWb || (b.roundFor = .none && b.phase = .toForward)))

/-- Credits towards an instance have come (06 R193, R194). -/
def Core.creditsCame (i : BitVec 6) (s : Core) : Core :=
  let s := s.sendOwnWbs.flushSnpQ
  let s := foldS (fun p s => foldS (fun (b : Barge) s =>
    if b.chips.any (fun n => n.chip = i && !n.sent) then s.sendChipSnoops p b.id else s) (s.slice p).barges s) (List.range 18) s
  s.advanceWhere (fun b => b.roundFor = .none && b.phase = .toForward)

/-- A page is locked for a rebuild: WB_Ds of its lines that wait for its record are written and completed (05 R179). -/
def Core.lockedWbs (page : Nat) (s : Core) : Core :=
  let inPage (x : LineAddr) : Bool := match s.homeOffset (linePa x).toNat with
    | some ho => (pageOf ho).1 = page
    | none => false
  foldS (fun p s => foldS (fun (b : Barge) s =>
    if ((b.phase = .recordWait && b.rcd.isNone) || b.reread) && inPage b.line then
      let s := foldS Core.wbWritten b.early (s.onBarge p b.id (fun b => { b with early := [] }))
      match s.bargeReq b with
      | some r => if r.op = opWbD && r.full then (s.wbWritten r.id).endBarge p b.id else s
      | none => s
    else s) (s.slice p).barges s) (List.range 18) s

/-! Accepted writes (08 R262, R268, R271, R272). -/

/-- The barge whose completion waited for acceptance completes (04 R131). -/
def Core.waiterDone (p id : Nat) (s : Core) : Core :=
  match s.barge? p id with
  | none => s
  | some b =>
    if b.phase != .memWait then s else
    match b.plan with
    | none => s.endBarge p id
    | some k =>
      match k.work with
      | .wrFull | .wrPart =>
        let s := match b.item with
          | .internal (.engineWrite .dump _) => { s with up := s.up ++ [Up.dumpLine false] }
          | .internal (.engineWrite .logbook _) => { s with up := s.up ++ [Up.spillLine false] }
          | _ => s
        s.homeComplete p id (if s.portSealed b.line then opCmpPoison else k.cmpOp) stI false 0 false
      | .farAtom =>
        if s.portSealed b.line || k.cmpOp = opCmpPoison then s.homeComplete p id opCmpPoison stI false 0 false
        else match b.mem with
        | .have d _ _ => s.atomDone p id k.resv d.toNat
        | _ => s.atomDone p id k.resv 0
      | w =>
        match b.item with
        | .internal _ => s.endBarge p id
        | _ => s.homeComplete p id k.cmpOp k.grant (w != .upg) 0 false

/-- A Skillet write has been accepted: the entry is clean unless it was merged into since, and a draining entry is then
invalid (07 R238, R242). -/
def sklWritten (line : LineAddr) (i : Nat) (x : Slice) : Slice :=
  match mfind x.skl i with
  | none => x
  | some e =>
    if e.line != line then x
    else match e.since with
      | some t => { x with skl := mput x.skl i { e with oldest := t } }
      | none => if e.draining then { x with skl := merase x.skl i } else { x with skl := mput x.skl i { e with dirty := false } }

/-- One posted line has been accepted (08 R268). -/
def Core.unpost (s : Core) : Core := s.onHost (fun h => { h with posted := h.posted - 1 })

/-- The berth entry whose data a write carried ends, and with a WB_D the wait for it. -/
def Core.entryWritten (r : Berth) (s : Core) : Core :=
  let s := s.endEntry r.id
  (if r.op = opWbD then s.task (.wbDone r.h.line) else s).task .reserveFree

/-- A posted line is freed at its write's acknowledgement, and the count of posted lines falls (04 R132, 08 R268, R271). -/
def Core.postedWritten (w : MWrite) (s : Core) : Core :=
  match w.frees with
  | some k =>
    match s.berth? k with
    | none => s
    | some r =>
      let s := if r.counted then (s.onBerth k (fun r => { r with counted := false })).unpost else s
      if r.posted then s.entryWritten r else s
  | none => if w.posted then s.unpost else s

/-- The berth entry whose data a write carried completes at its accepted point, unless a barge completes it, and is freed (04 R131, R132). -/
def Core.berthWritten (k : Nat) (waiting : Bool) (s : Core) : Core :=
  match s.berth? k with
  | none => s
  | some r =>
    if waiting || r.posted then s
    else (s.completeEntry k (if s.portSealed r.h.line then opCmpPoison else opCmp)).entryWritten r

/-- Whether the block's work has stopped: a power-fail hold (08 R271), or the block is SEALED (11 R400). -/
def Core.stopped (s : Core) : Bool := s.pf.hold || s.block = .sealed_

/-- What an accepted write changes where its data lay: the Skillet entry or the drip tray entry (08 R271). -/
def Core.placeWritten (w : MWrite) (s : Core) : Core :=
  match w.src with
  | .skillet p i => s.onSlice p (sklWritten w.line i)
  | .drip p i => s.onSlice p (fun x => match mfind x.drip i with
      | some d => if d.line = w.line then { x with drip := merase x.drip i } else x
      | none => x)
  | _ => s

/-- What follows the acceptance of a memory write (08 R262). -/
def Core.writtenDone (w : MWrite) (s : Core) : Core :=
  let waiting : Bool := match w.waiter with
    | some (p, id) => (match s.barge? p id with
      | some b => decide (b.phase = .memWait)
      | none => false)
    | none => false
  let s := match w.frees with
    | some k => s.berthWritten k waiting
    | none => s
  let s := match w.src with
    | .skillet p _ | .drip p _ => s.task (.kick p)
    | .larder page => s.pageWritten page
    | .overflow job => s.jobWritten job
    | .dump => { s with up := s.up ++ [Up.dumpLine false] }
    | .logbook => { s with up := s.up ++ [Up.spillLine false] }
    | .reserve => s.task .reserveFree
    | .berth _ | .drained => s
  let s := match w.waiter with
    | some (p, id) => s.waiterDone p id
    | none => s
  s.task .settles

end Sys2Proof.Machine
end

