-- ==== Sys2Proof/Machine/Intake.lean ====
section
/-!
DEFINITION. Sys2Proof/Machine/Intake.lean: messages that arrive at the host port: requests and their data, snoops, responses,
data and completions, with the checks each takes first (02 R61, R75, 03 R81 to R96, 04 R117 to R121, 06 R188 to R195, R598).
-/
namespace Sys2Proof.Machine

/-- Whether a message names a DEFINED local number on its own port (02 R75). -/
def Core.agentOk (s : Core) (f : Fin 4) (l : BitVec 6) : Bool := s.defined l && s.fport l = f.val

/-- Return the header credit of a discarded request (06 R598). -/
def Core.returnReq (src : Src) (h : Hdr) (op : BitVec 8) (s : Core) : Core :=
  match src with
  | .fabric f =>
    let l := agentLocal h.agent
    if h.credit then s.grantFab f.val 1 0 0 1
    else if s.defined l then s.grantFab (s.fport l) 0 l.toNat (classOf op) 0
    else s
  | .culvert _ => if h.credit then s.sendCredit h.srci 1 0 1 else s.sendCredit h.srci 0 h.agent (classOf op)

/-- Return the data credit of discarded request data (06 R598). -/
def Core.returnDat (src : Src) (h : Hdr) (op : BitVec 8) (s : Core) : Core :=
  if op = opDatM && !h.credit then s
  else match src with
    | .fabric f => s.grantFab f.val 2 0 0 1
    | .culvert _ => s.sendCredit h.srci 2 0 1

/-- The source unit of a port. -/
def unitSrc : Src → Nat
  | .fabric f => unitFab f.val
  | .culvert n => unitCul n.val

/-! Requests. -/

/-- Whether a request finds its entry: the mooring is empty, or the allotment or share has a free pool header entry (06 R188,
R195). -/
def Core.headerRoom (s : Core) (src : Src) (h : Hdr) (op : BitVec 8) : Bool :=
  if h.credit then
    match src with
    | .fabric f => s.headersUsed (some f) 0 < s.allot s.ownShare f.val
    | .culvert _ => s.headersUsed none (agentInst h.agent) < s.share
  else !s.host.berths.any (fun b => !b.pool && b.h.agent = h.agent && classOf b.op = classOf op &&
    !(b.own && agentInst b.h.agent = s.self))

/-- A request that the table of R61 completes at its proxy: it needs no home. Its data, which still comes, is discarded. -/
def Core.completeAlone (f : Fin 4) (op : BitVec 8) (h : Hdr) (s : Core) : Core :=
  let ep := s.epochOf h.line
  let cmp (o : BitVec 8) (data : Bool) : Msg := mkCmp o h ep s.self s.self stI data 0
  let s :=
    if op = opRdF then s.deliverCmp (cmp opCmpTrap false)
    else if (op = opRdS || op = opRdNa) && h.hint.extractLsb' 0 2 = (2 : BitVec 2) then s.deliverCmp (cmp opCmpHalt false)
    else if op = opRdS || op = opRdO || op = opUpg || op = opRdNa then
      (s.presentAgent (s.fport (agentLocal h.agent)) s.arrival
        (mkDat opDatNa h ep s.self s.self 3 false true (Beats.line lostLine))).deliverCmp (cmp opCmpPoison true)
    else if op = opAtom then s.deliverCmp (cmp opCmpPoison false)
    else if op = opSettle then s.deliverCmp (cmp opCmpSettle false)
    else s.deliverCmp (cmp opCmp false)
  if carriesData op then
    let early := s.host.early.find? (fun e => e.port = f && e.loc = agentLocal h.agent && e.tag = h.tag)
    match early with
    | some e =>
      let s := s.onHost (fun x => { x with early := x.early.filter (fun y => !(y.port = f && y.loc = e.loc && y.tag = e.tag)) })
      (s.returnReq (.fabric f) h op).returnDat (.fabric f) { h with credit := e.credit } e.op
    | none =>
      let (i, s) := s.fresh
      let b : Berth :=
        { id := i, op := op, h := h, own := false, pool := h.credit, port := some f, stamp := s.arrival, hash := sliceHash h.line,
          discard := true, seq := s.host.seq }
      s.onHost (fun x => { x with berths := x.berths ++ [b] })
  else s.returnReq (.fabric f) h op

/-- A WB_D of a local agent has come to the berth array: what waits for one that a RSP_WBX announced finds it there (03 R109, 06 R210). -/
def Core.wbCame (a : AgentId) (x : LineAddr) (s : Core) : Core :=
  let mark (b : Barge) : Barge := if b.line = x then
      { b with locals := updateWhere (fun n => agentId s.self n.loc = a && n.sent && n.rsp.isNone) (fun n => { n with wbSeen := true }) b.locals }
    else b
  let s := s.onHost (fun h => { h with wbComing := h.wbComing.filter (fun e => !(e.1 = a && e.2 = x)) })
  foldS (fun p => Core.onSlice p (fun y => { y with barges := y.barges.map mark })) (List.range 18) s

/-- Take a request into its berth, pairing data that came first (04 R119, 06 R188, R198). -/
def Core.storeRequest (src : Src) (op : BitVec 8) (h : Hdr) (own : Bool) (s : Core) : Core :=
  let (i, s) := s.fresh
  let port := match src with
    | .fabric f => some f
    | .culvert _ => none
  let early : Option EarlyData := match src with
    | .fabric f => if carriesData op then
        s.host.early.find? (fun e => e.port = f && e.loc = agentLocal h.agent && e.tag = h.tag && (e.op = opDatM) == (op = opWbD))
      else none
    | .culvert _ => none
  let ep := match src with
    | .fabric f => f.val
    | .culvert n => epCul n.val
  let b : Berth :=
    { id := i, op := op, h := h, own := own, pool := h.credit, port := port, stamp := s.arrival, hash := sliceHash h.line, ep := ep,
      data := early.map (fun e => e.beats), poison := (early.map (fun e => e.poison)).getD false,
      made := (early.map (fun e => e.made)).getD false, full := !carriesData op || early.isSome, seq := s.host.seq }
  let s := s.onHost (fun x =>
    { x with
      berths := x.berths ++ [b]
      seq := x.seq + 1
      early := match early with
        | some e => x.early.filter (fun y => !(y.port = e.port && y.loc = e.loc && y.tag = e.tag && y.op = e.op))
        | none => x.early })
  if op = opWbD && port.isSome then s.wbCame h.agent h.line else s

/-- Requests an I/O agent may not send (03 R81). -/
def ioForbidden (op : BitVec 8) : Bool := op = opRdS || op = opRdF || op = opRdO || op = opUpg || op = opWbD

/-- A request from a local agent as the host port keeps it: AGENT's instance, SRCI, and with KEEP, OWN, FAR and every reserved bit clear (03
R84, R85, R91, 07 R221). -/
def Core.ingress (s : Core) (op : BitVec 8) (h : Hdr) : Hdr :=
  { h with
    agent := agentId s.self (agentLocal h.agent)
    peer := agentId s.self (agentLocal h.agent)
    srci := s.self
    dsti := (s.homeOf h.line).getD s.self
    poison := false
    hint := if op = opWbD then 0 else cleanHint op h.hint
    param := cleanParam op (h.param &&& 0x7FFF) }

/-- A request on a fabric port. -/
def Core.fabricRequest (f : Fin 4) (op : BitVec 8) (h0 : Hdr) (s : Core) : Core :=
  let src := Src.fabric f
  let s := s.bump (unitFab f.val) 0x110 1
  if !s.agentOk f (agentLocal h0.agent) then (s.returnReq src h0 op).raise famAgentUndef (unitFab f.val)
  else
    let h := s.ingress op h0
    if s.frz.st != 0 && s.tombed h.agent then s.returnReq src h op
    else if !s.headerRoom src h op then s.raiseAt famBerthOvf (unitFab f.val) h.line h.agent
    else if op = opAtom && atomBad h.param then (s.completeAlone f op h).raiseAt famAtomForm (unitFab f.val) h.line h.agent
    else if s.isIo h.agent && ioForbidden op then (s.completeAlone f op h).raiseAt famMsgRole (unitFab f.val) h.line h.agent
    else if (s.homeOf h.line).isNone then (s.completeAlone f op h).raiseAt famAddrNohome (unitFab f.val) h.line h.agent
    else s.storeRequest src op h false

/-- A request that another instance's proxy forwarded. One that names an entry held already is that entry again (11 R387). -/
def Core.chipRequest (n : Fin 6) (op : BitVec 8) (h : Hdr) (s : Core) : Core :=
  let src := Src.culvert n
  let own := op = opWbD && h.hint.getLsbD 3
  if s.frz.st != 0 && s.tombed h.agent then s.returnReq src h op
  else if s.host.berths.any (fun b => b.h.agent = h.agent && b.h.tag = h.tag && (b.own == own) && b.op = op && b.port.isNone) then
    s.returnReq src h op
  else if !s.headerRoom src h op then s.raiseAt famBerthOvf (unitCul n.val) h.line h.agent
  else s.storeRequest src op h own

/-- A request arrives (03 R89, 06 R188). -/
def Core.takeRequest (src : Src) (op : BitVec 8) (h : Hdr) (s : Core) : Core :=
  match src with
  | .fabric f => s.fabricRequest f op h
  | .culvert n => s.chipRequest n op h

/-! Request data. -/

/-- Data has reached a berth entry: a discarded entry ends, an own remote one sends it on, a WB_D that is in its chamber takes its effect, and
a barge that waits goes on (04 R119, R120, 06 R207). -/
def Core.berthData (id : Nat) (d : Beats) (poison made : Bool) (s : Core) : Core :=
  match s.berth? id with
  | none => s
  | some r =>
    if r.discard then (s.onBerth id (fun b => { b with data := some d })).freeBerth id
    else
      let s := s.onBerth id (fun b => { b with data := some d, full := true, poison := poison, made := made })
      match r.slice with
      | none => s
      | some p =>
        match (s.slice p).barges.find? (fun b => b.item = .req id) with
        | none => if r.op = opWbD then s.task (.wbArrive p id) else s
        | some b =>
          if b.phase = .forwarded then
            match s.homeOf r.h.line with
            | none => s
            | some home =>
              let h : Hdr := { r.h with epoch := s.epochOf r.h.line, credit := r.credit, srci := s.self, dsti := home }
              s.forwardData { r with poison := poison, made := made } h d
          else s.task (.advance p b.id)

/-- Whether request data finds its slot: the WB mooring's, or a pool data slot (06 R188, R195). -/
def Core.dataRoom (s : Core) (src : Src) (op : BitVec 8) (h : Hdr) : Bool :=
  if op = opDatM && !h.credit then
    !s.host.berths.any (fun b => b.op = opWbD && !b.pool && b.h.agent = h.agent && b.h.tag != h.tag &&
      !(b.own && agentInst b.h.agent = s.self)) &&
    !s.host.early.any (fun e => agentId s.self e.loc = h.agent && e.op = opDatM && !e.credit && e.tag != h.tag)
  else match src with
    | .fabric f => s.dataUsed (some f) 0 < s.allot s.ownDataShare f.val
    | .culvert _ => s.dataUsed none (agentInst h.agent) < s.dataShare

/-- Data made up by the block for a lost line (11 R376). -/
def madeUp (h : Hdr) : Bool := h.poison && h.hint.extractLsb' 0 2 = (3 : BitVec 2)

/-- Request data arrives: it joins its request, or waits for it in the slot it names (04 R119, 03 R601). -/
def Core.requestData (src : Src) (op : BitVec 8) (h : Hdr) (d : Beats) (s : Core) : Core :=
  match s.host.berths.find? (fun b => b.h.agent = h.agent && b.h.tag = h.tag && !b.full && carriesData b.op
      && ((b.op = opWbD) == (op = opDatM))) with
  | some r =>
    if s.dataRoom src op { h with credit := r.pool } then s.berthData r.id d h.poison (madeUp h)
    else s.raiseAt famBerthOvf (unitSrc src) h.line h.agent
  | none =>
    match src with
    | .fabric f =>
      let held := s.host.early.any (fun e => e.port = f && e.loc = agentLocal h.agent && e.tag = h.tag && e.op = op)
      if held || !s.dataRoom src op h then s.raiseAt famBerthOvf (unitSrc src) h.line h.agent
      else s.onHost (fun x => { x with early := x.early ++ [⟨f, agentLocal h.agent, h.tag, h.credit, op, d, h.poison, (madeUp h)⟩] })
    | .culvert _ => s.returnDat src h op

/-! Snoops and their local responses. -/

/-- The barge with a snoop to a local agent under an AGENT, TAG and LINE that meets a test: slice and name. -/
def Core.localSnoop (s : Core) (l : BitVec 6) (h : Hdr) (f : Barge → LSnoop → Bool) : Option (Nat × Barge × LSnoop) :=
  s.slices.findSome? (fun e => e.2.barges.findSome? (fun b =>
    if b.line = h.line && (s.bargeHdr b).agent = h.agent && (s.bargeHdr b).tag = h.tag then
      (b.locals.find? (fun n => n.loc = l && n.sent && f b n)).map (fun n => (e.1, b, n))
    else none))

/-- A local snoop without its response, or whose announced data has not come. -/
def openSnoop (b : Barge) (n : LSnoop) : Bool :=
  n.rsp.isNone || (b.awaitD && (match n.rsp with
    | some (op, _, _) => op = opRspD
    | none => false))

/-- A response of an older epoch is discarded, once the failover's settle has ended (11 R385). -/
def Core.oldEpoch (s : Core) (h : Hdr) : Bool := h.epoch != s.epochOf h.line

/-- MSG_STRAY with the slice serving a line (03 R596). -/
def Core.stray (h : Hdr) (s : Core) : Core := s.raiseAt famMsgStray (s.physOfLine h.line) h.line h.agent

/-- Whether a slice's outputs are off: it is SEALED, and only its failover's settle uses the response (11 R379, R383). -/
def Core.sliceSealed (s : Core) (p : Nat) : Bool := (s.slice p).st = .sealed_

/-- A response from a local agent (03 R88, 04 R121). A RSP_WBX announces a WB_D, which may still be on its way (03 R109, 06 R210). -/
def Core.agentResponse (f : Fin 4) (op : BitVec 8) (h : Hdr) (s : Core) : Core :=
  let l := agentLocal h.peer
  if !s.agentOk f l then s.raise famAgentUndef (unitFab f.val)
  else if s.frz.st = 2 && s.tombed (agentId s.self l) then s
  else
    match s.localSnoop l h (fun _ n => n.rsp.isNone) with
    | none => if s.oldEpoch h then s else s.stray h
    | some (p, b, n) =>
      let res := readState (h.hint.extractLsb' 0 3)
      let fwded := h.hint.getLsbD 3
      let s := { s with frz := { s.frz with agentPings := s.frz.agentPings.filter (fun e => e.1 != l) } }
      let s := s.onBarge p b.id (fun b => { b with
        locals := updateWhere (fun m => m.loc = n.loc && m.op = n.op && m.rsp.isNone) (fun m => { m with rsp := some (op, res, fwded) }) b.locals
        awaitD := b.awaitD || (op = opRspD && b.dirty.isNone) })
      let s := if op = opRspWbx && !n.wbSeen then
          s.onHost (fun x => { x with wbComing := x.wbComing ++ [(agentId s.self l, h.line)] }) else s
      if s.sliceSealed p then s else s.task (.advance p b.id)

/-- Whether a barge itself still holds its collected data: neither a WB_D's slot, a write of it nor its Skillet entry does (06 R190, 04 R134). -/
def Core.dirtyHeld (s : Core) (p : Nat) (b : Barge) : Bool :=
  let merges : Bool := match b.plan with
    | some k => k.work = .wrPart || k.work = .farAtom
    | none => false
  let filled : Bool := match b.skl with
    | some i => (match mfind (s.slice p).skl i with
      | some e => !e.filling
      | none => false)
    | none => false
  b.dirty.isSome && !b.fromWb && !(b.committed && (!merges || filled || b.phase = .memWait))

/-- Chamber data reserve slots in use (06 R190): collected data of barges without a slot of their own until its write or its fill, its writes
until memory accepts them, and data of own-account WB_Ds until it has been sent, or at a local home written (03 R597). -/
def Core.reserveUsed (s : Core) : Nat :=
  (s.slices.map (fun e => (e.2.barges.filter (fun b => s.dirtyHeld e.1 b &&
    (match s.bargeReq b with
     | some r => !carriesData r.op
     | none => true))).length)).foldl (· + ·) 0 +
  (s.mem.writes.filter (fun w => w.src = .reserve)).length +
  (s.host.berths.filter (fun b => b.own && agentInst b.h.agent = s.self && (!b.writing || s.homesHere b.h.line))).length

/-- Whether the chamber data reserve has no free slot (06 R190). -/
def Core.reserveFull (s : Core) : Bool := decide (s.dataReserve ≤ s.reserveUsed)

/-- TO_HOME data waits for a reserve slot (06 R190). -/
def Core.waitSlot (ep : Nat) (h : Hdr) (d : Beats) (s : Core) : Core :=
  s.onHost (fun x => { x with waitData := x.waitData ++ [(ep, ⟨opDatM, h, some d⟩)] })

/-- Dirty data for a barge reaches its data slot over a Wharf endpoint (04 R122, 06 R190). -/
def Core.dirtyData (p id : Nat) (ep : Nat) (d : LineData) (q made : Bool) (s : Core) : Core :=
  let s := s.onBarge p id (fun b => { b with dirty := some (d, q), dirtyEp := ep, lost := b.lost || (q && made), awaitD := false })
  if s.sliceSealed p then s else s.task (.advance p id)

/-- Whether a barge's request has a data slot of its own (06 R190). -/
def Core.ownSlot (s : Core) (b : Barge) : Bool :=
  match s.bargeReq b with
  | some r => carriesData r.op
  | none => false

/-- A local snoop whose response may send dirty data to the home (03 R96). -/
def LSnoop.mayDirty (n : LSnoop) : Bool := n.op = opSnpS || n.op = opSnpFs || (n.op = opSnpI && !n.hint.getLsbD 2)

/-- The snoop outstanding to a local agent that a data message of it answers (03 R94, R601): DAT_M with TO_HOME, or data sent to the requester
under a forwarding snoop. DAT_NA under the agent's own AGENT is its request's data unless the snoop is SNP_NA. -/
def Core.snoopFor (s : Core) (l : BitVec 6) (op : BitVec 8) (h : Hdr) : Option (Nat × Barge × LSnoop) :=
  if h.hint.getLsbD 2 then
    (if op = opDatM then s.localSnoop l h (fun b n => n.mayDirty && openSnoop b n && b.dirty.isNone) else none)
  else s.localSnoop l h (fun _ n => !n.fwd && (n.rsp.isNone || n.forwards) &&
    (n.op = opSnpNa || ((n.op = opSnpFs || n.op = opSnpFo) && !(op = opDatNa && agentLocal h.agent = l))))

/-- TO_HOME data from a local agent for a snoop (03 R601, 06 R190). Answers whether a barge waits for it. -/
def Core.agentDirty (h : Hdr) (d : Beats) (s : Core) : Bool × Core :=
  match s.snoopFor (agentLocal h.peer) opDatM h with
  | none => (false, s)
  | some (p, b, _) =>
    let ep := s.fport (agentLocal h.peer)
    if !s.ownSlot b && s.reserveFull then (true, s.waitSlot ep { h with srci := s.self } d)
    else (true, s.dirtyData p b.id ep d.data h.poison (madeUp h))

/-! Data towards a requester (04 R117, R118, 11 R375, R377, R395). -/

/-- The barge that serves a local agent's request: slice and barge. -/
def Core.bargeFor (s : Core) (agent : AgentId) (tag : Tag) : Option (Nat × Barge) :=
  s.slices.findSome? (fun e => (e.2.barges.find? (fun b => match s.bargeReq b with
    | some r => r.h.agent = agent && r.h.tag = tag && !r.own
    | none => false)).map (fun b => (e.1, b)))

/-- Deliver a data message for a local agent: over the Wharf to its port, stamped with the epoch this chip has for the line, as every
other message of its flow is (11 R385). It is held while its request waits for its replay (11 R387). A DAT_E becomes DAT_S while other
agents of the chip hold the line, or when the completion's grant became S for it (03 R106). -/
def Core.deliverDat (src : Nat) (stamp : Stamp) (m0 : Msg) (s : Core) : Core :=
  let m : Msg := { m0 with h := { m0.h with epoch := s.epochOf m0.h.line } }
  match s.bargeFor m.h.agent m.h.tag with
  | none =>
    match s.host.berths.find? (fun r => r.fwd && !r.own && r.h.agent = m.h.agent && r.h.tag = m.h.tag) with
    | some r => s.putBerth { r with held := some (src, m) }
    | none => s.presentAgent src stamp m
  | some (p, b) =>
    let others := match (s.lsPeek p b.line).map s.maskTomb with
      | some e => clearBit e.v (agentLocal m.h.agent).toNat != 0
      | none => false
    let shared := m.op = opDatE && (match b.applied with
      | some g => g = stS
      | none => others)
    let s := s.onBarge p b.id (fun b => { b with gotData := true, gotPoison := b.gotPoison || m.h.poison, asS := b.asS || shared })
    let s := match s.bargeReq b with
      | some r => s.onBerth r.id (fun r => { r with got := true, gotBad := r.gotBad || m.h.poison })
      | none => s
    (s.presentAgent src stamp (if shared then { m with op := opDatS } else m)).task (.advance p b.id)

/-- A message's data, or zeros. -/
def msgLine (m : Msg) : LineData := match m.beats with
  | some b => b.data
  | none => 0

/-- Data addressed to a tombstoned agent: DAT_M goes to the home as a WB_D with KEEP 0 under its ID, anything else is discarded (11
R395). -/
def Core.deadData (ep : Nat) (m : Msg) (s : Core) : Core :=
  let made := (madeUp m.h)
  if m.op != opDatM then s
  else if agentInst m.h.agent = s.self then (s.makeOwnWb m.h.line m.h.agent false (msgLine m) m.h.poison made ep).2
  else
    match s.homeOf m.h.line with
    | none => s
    | some home =>
      let h : Hdr := { Hdr.zero with agent := m.h.agent, tag := m.h.tag, line := m.h.line, hint := 8, epoch := s.epochOf m.h.line }
      if home = s.self then
        let (i, s) := s.fresh
        let b : Berth :=
          { id := i, op := opWbD, h := h, own := true, pool := true, port := none, stamp := s.arrival, hash := sliceHash m.h.line,
            data := m.beats, ep := ep, poison := m.h.poison, made := made, full := true, seq := s.host.seq }
        (s.onHost (fun x => { x with berths := x.berths ++ [b] })).task (.wbArrive (s.physOfLine m.h.line) i)
      else
        s.sendSnpQ home ⟨opWbD, { h with credit := true }, none⟩
          (some ⟨opDatM, { h with credit := true, poison := m.h.poison, hint := datHint (if made then 3 else 1) true }, m.beats⟩)

/-- Data forwarded by a local agent under a snoop of this block goes to the requester under the snoop's FWD_AS (03 R94, R96); poisoned
ownership data is also kept for the home (11 R377). -/
def Core.forwardDat (f : Fin 4) (p : Nat) (b : Barge) (n : LSnoop) (h : Hdr) (d : Beats) (s : Core) : Core :=
  let op := if n.op = opSnpFs then (if n.hint.extractLsb' 0 2 = (1 : BitVec 2) then opDatF else opDatS)
    else if n.op = opSnpFo then opDatM
    else opDatNa
  let s := s.onBarge p b.id (fun b => { b with
    locals := updateWhere (fun m => m.loc = n.loc && m.op = n.op && !m.fwd) (fun m => { m with fwd := true }) b.locals })
  let s := if h.poison && n.op = opSnpFo then
      s.onBarge p b.id (fun b => { b with gotPoison := true, dirty := some (d.data, true), dirtyEp := f.val, lost := b.lost || (madeUp h) })
    else s
  let dest := agentInst h.agent
  let m := mkDat op h (s.epochOf h.line) s.self dest (if h.hint.extractLsb' 0 2 = (3 : BitVec 2) then 3 else 1) false h.poison d
  let m : Msg := { m with h := { m.h with peer := h.peer } }
  let s := if s.tombed h.agent then s.deadData f.val m
    else if dest = s.self then s.deliverDat f.val b.stamp m
    else s.sendChipData f.val b.stamp m []
  if s.sliceSealed p then s else s.task (.advance p b.id)

/-- A data message on a fabric port (03 R84, R601): data that answers an outstanding snoop, else request data. TO_HOME data under another
agent's AGENT can only answer a snoop, and is stray without one (03 R596). -/
def Core.fabricData (f : Fin 4) (op : BitVec 8) (h0 : Hdr) (d : Beats) (s : Core) : Core :=
  let s := s.bump (unitFab f.val) 0x112 (if d.one then 1 else 2)
  let l := agentLocal h0.peer
  let p := agentId s.self l
  let hs : Hdr := { h0 with peer := p, srci := s.self }
  let found := s.snoopFor l op hs
  let drop (s : Core) : Core := if found.isSome then s else s.returnDat (.fabric f) h0 op
  if !s.agentOk f l then (drop s).raise famAgentUndef (unitFab f.val)
  else if s.frz.st = 2 && s.tombed p then drop s
  else match found with
    | some (q, b, n) => if h0.hint.getLsbD 2 then (s.agentDirty hs d).2 else s.forwardDat f q b n hs d
    | none =>
      if h0.hint.getLsbD 2 && agentLocal h0.agent != l then s.stray hs
      else s.requestData (.fabric f) op { hs with agent := p } d

/-! Messages of other instances. -/

/-- A home snoop, a settle snoop or an SNP_Q enters the snoop intake (06 R194, R195). -/
def Core.takeSnoop (src : Option (Fin 6)) (op : BitVec 8) (h : Hdr) (s : Core) : Core :=
  let full : Bool := decide (16 ≤ (s.host.intake.filter (fun i => i.h.srci = h.srci)).length)
  match (if full then src else none) with
  | some n => s.raiseAt famBerthOvf (unitCul n.val) h.line h.agent
  | none =>
    let (i, s) := s.fresh
    s.onHost (fun x => { x with intake := x.intake ++ [{ id := i, op := op, h := h, stamp := s.arrival, hash := sliceHash h.line, slice := none }] })

/-- The barge of this home with a snoop to a chip under an AGENT, TAG and LINE. -/
def Core.chipSnoop (s : Core) (c : BitVec 6) (h : Hdr) (f : Barge → CSnoop → Bool) : Option (Nat × Barge) :=
  s.slices.findSome? (fun e => (e.2.barges.find? (fun b =>
    b.line = h.line && (s.bargeHdr b).agent = h.agent && (s.bargeHdr b).tag = h.tag &&
      b.chips.any (fun n => n.chip = c && n.sent && f b n))).map (fun b => (e.1, b)))

/-- A settle snoop outstanding to a chip for a line: its page and index (05 R178). -/
def Core.settleFor (s : Core) (c : BitVec 6) (h : Hdr) (f : Settle → Bool) : Option (Nat × BitVec 7) :=
  s.eng.larder.findSome? (fun j => (j.settles.find? (fun e => e.chip = c && e.sent && f e &&
    s.recLine j.page e.idx.toNat = h.line)).map (fun e => (j.page, e.idx)))

/-- An aggregated response of another chip's proxy, or of this one's for a settle (03 R103, 04 R122, 05 R178). -/
def Core.chipResponse (op : BitVec 8) (h : Hdr) (s : Core) : Core :=
  let c := h.srci
  let res := readState (h.hint.extractLsb' 0 3)
  let fwded := h.hint.getLsbD 3
  match s.chipSnoop c h (fun _ n => n.rsp.isNone) with
  | some (p, b) =>
    let s := s.onBarge p b.id (fun b => { b with
      chips := updateWhere (fun m => m.chip = c && m.rsp.isNone) (fun m => { m with rsp := some (op, res, fwded) }) b.chips
      awaitD := b.awaitD || (op = opRspD && b.dirty.isNone)
      awaitWb := if op = opRspWbx && !b.wbFrom.contains c then b.awaitWb ++ [c] else b.awaitWb })
    if s.sliceSealed p then s else s.task (.advance p b.id)
  | none =>
    match s.settleFor c h (fun e => e.rsp.isNone) with
    | some (page, i) =>
      (s.onPage page (fun j => { j with
        settles := updateWhere (fun e => e.idx = i && e.chip = c && e.rsp.isNone) (fun e => { e with rsp := some (op, res) }) j.settles })).settleCheckPage page
    | none => if s.oldEpoch h then s else s.stray h

/-- TO_HOME data that no barge takes goes to the line's memory from a reserve slot, and is its current data (05 R178, 06 R190, R207, 11 R385). -/
def Core.homeData (ep : Nat) (h : Hdr) (d : Beats) (s : Core) : Core :=
  ((s.lineNow (s.physOfLine h.line) h.line d.data h.poison).queueWrite h.line d.data fullMask h.poison .reserve s.arrival false none none
    (some ep)).2

/-- TO_HOME data of another chip: a WB_D's data, which follows its request directly, dirty data of a snooped chip, or of a settle (04 R120,
R122, 05 R178, 11 R385). -/
def Core.chipDirty (src : Option (Fin 6)) (ep : Nat) (h : Hdr) (d : Beats) (s : Core) : Core :=
  let wb := (s.host.berths.filter (fun b => b.op = opWbD && b.port.isNone && b.h.agent = h.agent && b.h.tag = h.tag && b.h.line = h.line &&
    !b.full)).getLast?
  match wb, src with
  | some r, some n =>
    if s.dataRoom (.culvert n) opDatM { h with credit := r.pool } then s.berthData r.id d h.poison (madeUp h)
    else s.raiseAt famBerthOvf (unitCul n.val) h.line h.agent
  | _, _ =>
    let open_ (b : Barge) (n : CSnoop) : Bool := b.dirty.isNone && (match n.rsp with
      | none => true
      | some (op, _, _) => op = opRspD && b.awaitD)
    match s.chipSnoop h.srci h open_ with
    | some (p, b) =>
      if !s.ownSlot b && s.reserveFull then s.waitSlot ep h d else s.dirtyData p b.id ep d.data h.poison (madeUp h)
    | none =>
      let settle := s.settleFor h.srci h (fun e => !e.data && (match e.rsp with
        | none => true
        | some (op, _) => op = opRspD))
      if settle.isNone && !s.oldEpoch h then s.stray h
      else if s.reserveFull then s.waitSlot ep h d
      else
        let s := s.homeData ep h d
        if settle.isSome then s.pageData h.srci h.line (madeUp h) false else s

/-- Waiting TO_HOME data takes the reserve slots that have come free (06 R190). -/
def Core.reserveFreed (s : Core) : Core :=
  let l := s.host.waitData
  if l.isEmpty then s else
  let s := s.onHost (fun x => { x with waitData := [] })
  foldS (fun (e : Nat × Msg) s =>
    match e.2.beats with
    | none => s
    | some d =>
      if e.2.h.srci = s.self then
        match s.agentDirty e.2.h d with
        | (true, s) => s
        | (false, s) => s.stray e.2.h
      else s.chipDirty none e.1 e.2.h d) l s

/-- Whether a completion can be an own-account WB_D's: it grants nothing and announces no data (03 R597). -/
def wbCmp (op : BitVec 8) (h : Hdr) : Bool := (op = opCmp || op = opCmpPoison) && h.hint = 0

/-- A home's completion reaches its proxy, and is stored in its berth entry (04 R118, 11 R381): it is matched to the forwarded request by
AGENT, TAG and line, and else to an own-account WB_D, for which it can only be a CMP or CMP_POISON without a grant (03 R597). -/
def Core.chipCompletion (op : BitVec 8) (h : Hdr) (s : Core) : Core :=
  let mine (r : Berth) : Bool := !r.own && r.h.agent = h.agent && r.h.tag = h.tag && r.h.line = h.line
  let fits (r : Berth) : Bool := mine r && ((r.op = opSettle) == (op = opCmpSettle))
  let hit := s.slices.findSome? (fun e => (e.2.barges.find? (fun b => b.phase = .forwarded &&
    (match s.bargeReq b with
     | some r => fits r && (!wbCmp op h || r.op = opWrFull || r.op = opWrPart || r.op = opWbD || r.op = opAtom || op = opCmpPoison)
     | none => false))).map (fun b => (e.1, b)))
  match hit with
  | some (p, b) =>
    let s := match b.item with
      | .req id => s.onBerth id (fun r => { r with cmp := some ⟨op, h, none⟩ })
      | _ => s
    (s.onBarge p b.id (fun b => { b with cmp := some ⟨op, h, none⟩, phase := .granted })).task (.advance p b.id)
  | none =>
    match s.host.berths.find? (fun b => b.own && b.writing && wbCmp op h && agentInst b.h.agent = s.self && b.h.agent = h.agent &&
        b.h.tag = h.tag && b.h.line = h.line) with
    | some r => (s.onHost (fun x => { x with berths := x.berths.filter (fun b => b.id != r.id) })).task (.wbDone r.h.line)
    | none =>
      match s.host.berths.find? (fun r => r.fwd && r.cmp.isNone && fits r) with
      | some r => s.putBerth { r with cmp := some ⟨op, h, none⟩ }
      | none => s

end Sys2Proof.Machine
end

