-- ==== Sys2Proof/Machine/Query.lean ====
section
/-!
DEFINITION. Sys2Proof/Machine/Query.lean: interrogation and census at the proxy (05 R171, R172, R175), their answers and the census
walk at the home (05 R171, R176, R177), credits from other instances (09 R299), and the dispatch of a message from an instance.
-/
namespace Sys2Proof.Machine

/-- The line of record i of the page whose record 0 has line x, at home h (05 R174). -/
def Core.recLineAt (s : Core) (h : BitVec 6) (x : LineAddr) (i : Nat) : LineAddr :=
  match homeOffsetAux h (linePa x).toNat s.ranges 0 with
  | some ho => match homeInvAux h s.ranges (ho + i * 256) with
    | some pa => BitVec.ofNat 48 (pa / 256)
    | none => 0
  | none => 0

/-- The answer of an entry (05 R175). -/
def entState (e : LocEnt) : Nat :=
  if e.rights = .excl then 2 else if e.st = .unknown then 3 else if e.rights = .fwd then 1 else 0

/-- What the proxy answers for a line without reading the Overflow Larder, or none when that must be read (05 R175): the outer option
tells that an answer is known, the inner one HELD with its CHIPSTATE. DESIGN CHOICE (log entry 67): a line whose logical slice no physical
slice serves is answered HELD 1 with UNKNOWN, as on a tainted line; the table has no such row. -/
def Core.qKnown (s : Core) (x : LineAddr) : Option (Option Nat) :=
  let p := s.physOfLine x
  if s.wbOutstanding x then some (some 2)
  else if 18 ≤ p then some (some 3)
  else match (s.lsPeek p x).map s.maskTomb with
    | some e => if e.v = 0 then some none else some (some (entState e))
    | none => if s.needsOvf p x then none else some none

/-- Record one answer in a query. -/
def QJob.put (q : QJob) (i : Nat) (a : Option Nat) : QJob :=
  match a with
  | some st => { q with held := setBit q.held i, chst := q.chst ||| BitVec.ofNat 256 (st <<< (2 * i)), left := q.left.filter (fun k => k != i) }
  | none => { q with left := q.left.filter (fun k => k != i) }

/-- Send the one RSP_Q of a query, its payload directly behind it, return its snoop credit, free its intake entry and end its barge (05 R176, 06
R194, 09 R288). -/
def Core.answerQ (iid : Nat) (h : Hdr) (held : BitVec 128) (chst : BitVec 256) (s : Core) : Core :=
  let home := h.srci
  let k : Hdr := { Hdr.zero with agent := h.agent, tag := h.tag, line := h.line }
  let pay : Beats := ⟨BitVec.ofNat 2048 (held.toNat + (chst.toNat <<< 128)), maskAt 0 48, true⟩
  let s := s.sendInst home ⟨opRspQ, k, none⟩
  let s := s.sendInst home ⟨opDatNa, { k with hint := datHint 3 true, param := 1 }, some pay⟩
  let s := if home = s.self then s else s.sendCredit home 3 0 1
  let s := s.onHost (fun x => { x with intake := x.intake.filter (fun i => i.id != iid) })
  foldS (fun p s => foldS (fun (b : Barge) s => if b.item = .snoop iid then s.endBarge p b.id else s) (s.slice p).barges s) (List.range 18) s

/-- Update a query. -/
def Core.onQuery (i : Nat) (f : QJob → QJob) (s : Core) : Core :=
  s.onEng (fun g => { g with queries := updateWhere (fun q => q.id = i) f g.queries })

/-- A query whose lookups have all ended is answered. -/
def Core.queryCheck (i : Nat) (s : Core) : Core :=
  match s.eng.queries.find? (fun q => q.id = i) with
  | none => s
  | some q =>
    if q.left.isEmpty then
      (s.onEng (fun g => { g with queries := g.queries.filter (fun r => r.id != i) })).answerQ i q.h q.held q.chst
    else s

/-- Start a query of a page for an intake entry, or start it again: the lines are read without recall (05 R175). -/
def Core.queryStart (iid : Nat) (h : Hdr) (s : Core) : Core :=
  let s := s.onEng (fun g => { g with queries := g.queries.filter (fun q => q.id != iid) ++ [⟨iid, h, List.range 128, 0, 0⟩] })
  let s := foldS (fun i s =>
    let x := s.recLineAt h.srci h.line i
    match s.qKnown x with
    | some a => s.onQuery iid (fun q => q.put i a)
    | none => s.ovfAdd (.query iid i) x none) (List.range 128) s
  s.queryCheck iid

/-- An Overflow lookup of a query has ended (05 R175). -/
def Core.queryAns (iid i : Nat) (e : Option LocEnt) (s : Core) : Core :=
  match s.eng.queries.find? (fun q => q.id = iid) with
  | none => s
  | some q =>
    let x := s.recLineAt q.h.srci q.h.line i
    let a : Option Nat := match e.map s.maskTomb with
      | some v => if v.v = 0 then none else some (entState v)
      | none => if s.openMode x || s.tainted x then some 3 else none
    (s.onQuery iid (fun q => q.put i a)).queryCheck iid

/-- The lines a census page marks that have no entry here get an UNKNOWN entry in the Overflow Larder (05 R172). -/
def Core.censusInsert (h : Hdr) (marks : BitVec 128) (s : Core) : Core :=
  foldS (fun i s =>
    let x := s.recLineAt h.srci h.line i
    let p := s.physOfLine x
    if (s.lsPeek p x).isSome then s
    else (s.onEng (fun g => { g with censusInserts := g.censusInserts + 1 })).ovfAdd .census x none) (setBits marks 128) s

/-- KIND of an SNP_Q. -/
def qKind (h : Hdr) : Nat := (h.hint.extractLsb' 0 2).toNat

/-- A barge works on its SNP_Q: an interrogation at once, a census page once its map is there, a census-end is counted (05 R172, R175). -/
def Core.queryGo (i : SnoopItem) (s : Core) : Core :=
  let h := i.h
  if qKind h = 2 then
    let s := if h.param.extractLsb' 0 8 = s.eng.censusSeq && !s.eng.censusEnds.contains h.srci then
        s.onEng (fun g => { g with censusEnds := g.censusEnds ++ [h.srci] }) else s
    (s.answerQ i.id h 0 0).task .censusCheck
  else if qKind h = 1 then
    match i.map with
    | some marks => ((s.censusInsert h marks).queryStart i.id h).task .censusCheck
    | none => s
  else s.queryStart i.id h

/-- An SNP_Q arrives: it enters the snoop intake, to be admitted as a snoop (06 R194, R196). A KIND of 0b11 is ignored (05 R175). -/
def Core.takeQuery (src : Option (Fin 6)) (h : Hdr) (s : Core) : Core :=
  if qKind h = 3 then s else s.takeSnoop src opSnpQ h

/-- Whether a barge already works on a snoop intake entry. -/
def Core.working (s : Core) (iid : Nat) : Bool :=
  s.slices.any (fun e => e.2.barges.any (fun b => decide (b.item = .snoop iid) && b.phase != .waiting))

/-- The map of a census page arrives (05 R171). -/
def Core.censusMap (i : SnoopItem) (d : Beats) (s : Core) : Core :=
  let i : SnoopItem := { i with map := some (d.data.extractLsb' 0 128) }
  let s := s.onHost (fun x => { x with intake := updateWhere (fun k => k.id = i.id) (fun _ => i) x.intake })
  if s.working i.id then s.queryGo i else s

/-! At the home. -/

/-- An answer is complete: an interrogation's page counts it (05 R177), a census walk's is only counted off; one that answers nothing
outstanding is stray (05 R176, 03 R596). -/
def Core.answerCame (h : Hdr) (d : Beats) (s : Core) : Core :=
  if 256 ≤ h.tag.toNat then
    if s.eng.censusOut.contains (h.srci, h.tag, h.line) then
      s.onEng (fun g => { g with censusOut := g.censusOut.erase (h.srci, h.tag, h.line) })
    else s.stray h
  else
    match s.eng.larder.find? (fun j => j.phase = .asking && j.slot = h.tag.toNat && s.recLine j.page 0 = h.line &&
        j.asked.contains h.srci && !j.answers.any (fun a => a.chip = h.srci)) with
    | none => s.stray h
    | some j =>
      (s.onPage j.page (fun j => { j with
        answers := j.answers ++ [⟨h.srci, d.data.extractLsb' 0 128, d.data.extractLsb' 128 256⟩] })).answersCheck j.page

/-- Whether two messages are an RSP_Q and its payload. -/
def qPair (h k : Hdr) : Bool := h.line = k.line && h.tag = k.tag && h.srci = k.srci

/-- An RSP_Q arrives (05 R176): it takes effect with its payload. -/
def Core.takeRspQ (h : Hdr) (s : Core) : Core :=
  match s.eng.qData.find? (fun m => qPair m.h h) with
  | some m =>
    let s := s.onEng (fun g => { g with qData := g.qData.erase m })
    match m.beats with
    | some d => s.answerCame h d
    | none => s
  | none => s.onEng (fun g => { g with qRsp := g.qRsp ++ [⟨opRspQ, h, none⟩] })

/-- The payload of an RSP_Q arrives. -/
def Core.takeQData (h : Hdr) (d : Beats) (s : Core) : Core :=
  match s.eng.qRsp.find? (fun m => qPair m.h h) with
  | some m => (s.onEng (fun g => { g with qRsp := g.qRsp.erase m })).answerCame m.h d
  | none => s.onEng (fun g => { g with qData := g.qData ++ [⟨opDatNa, h, some d⟩] })

/-- A census request arrives: the walk starts at the first page, or starts again with the union of the masks (05 R171, 09 R301). Before
the first generation advance every record reads I, and the home answers with a census-end at once (15 R513). -/
def Core.takeCensus (h : Hdr) (s : Core) : Core :=
  let n : BitVec 8 := h.tag.extractLsb' 0 8
  if s.eng.generation = 0 || s.pageCount = 0 then
    let k := snpqHdr (s.recLine 0 0) 2 n.toNat n.toNat
    (s.censusSent h.srci k).sendSnpQ h.srci ⟨opSnpQ, k, none⟩ none
  else
    let old : BitVec 16 := match s.eng.censuses.find? (fun c => c.chip = h.srci) with
      | some c => c.mask
      | none => 0
    s.onEng (fun g => { g with
      censuses := g.censuses.filter (fun c => c.chip != h.srci) ++ [⟨h.srci, n, h.param ||| old, 0⟩] })

/-- The census walk of a requesting chip takes its next page (05 R171). -/
def Core.censusStep (c : BitVec 6) (s : Core) : Core :=
  if s.larderHeld then s
  else match s.eng.censuses.find? (fun x => x.chip = c) with
    | none => s
    | some x =>
      let busy := s.eng.larder.any (fun j => j.ops.any (fun o => match o with
        | .census d _ => d = c
        | _ => false))
      if busy || s.pageCount ≤ x.page then s
      else
        (s.onEng (fun g => { g with
          censuses := updateWhere (fun y => y.chip = c) (fun y => { y with page := y.page + 1 }) g.censuses })).larderOp x.page (.census c x.seq)

/-- A CREDIT of another instance arrives (06 R193, R194, 09 R299). -/
def Core.takeCredit (h : Hdr) (s : Core) : Core :=
  let kind := (h.hint.extractLsb' 0 2).toNat
  let n := h.param.toNat
  let s := s.onCredits h.srci (fun c =>
    if kind = 0 then { c with moorings := setBit c.moorings (4 * (agentLocal h.agent).toNat + n % 4) }
    else if kind = 1 then { c with header := c.header + n }
    else if kind = 2 then { c with data := c.data + n }
    else { c with snoop := c.snoop + n })
  s.task (.credits h.srci)

/-- Data from another instance (03 R90), over the Wharf endpoint of its Culvert port; by the internal path, of the slice that sent it. -/
def Core.chipData (src : Option (Fin 6)) (m : Msg) (d : Beats) (s : Core) : Core :=
  let h := m.h
  let ep := match src with
    | some n => epCul n.val
    | none => epSkl (s.physOfLine h.line)
  let census := s.host.intake.find? (fun i => i.op = opSnpQ && qKind i.h = 1 && i.h.srci = h.srci && i.h.tag = h.tag &&
    i.h.line = h.line && i.map.isNone)
  if h.hint.getLsbD 2 then
    (if m.op = opDatM then s.chipDirty src ep h d else if m.op = opDatNa then s.takeQData h d else s.stray h)
  else match census with
    | some i => if m.op = opDatNa then s.censusMap i d else s.stray h
    | none =>
      if s.tombed h.agent && agentInst h.agent = s.self then s.deadData ep m
      else if agentInst h.agent = s.self then s.deliverDat ep s.arrival m
      else match src with
        | some n => if m.op = opDatNa then s.requestData (.culvert n) m.op h d else s.stray h
        | none => s

end Sys2Proof.Machine
end

