-- ==== Sys2Proof/Machine/Admission.lean ====
section
/-!
DEFINITION. Sys2Proof/Machine/Admission.lean: the admission arbiter of a slice (06 R196 to R203, R205, R209), the head of a chamber
(06 R206), the stamp sweep (06 R199), simmer timers (06 R213), the Wharf's grants (06 R204) and a slice's background work.
-/
namespace Sys2Proof.Machine

/-- Whether a slice serves: SERVING, or in PROOF entered from SERVING (10 R351, 12 R419). -/
def Core.serves (s : Core) (p : Nat) : Bool :=
  let x := s.slice p
  x.st = .serving || (x.st = .proof && x.proofServing)

/-- Whether the items of a slice hash leave a slice by a partial drain (15 R520). -/
def Core.leavesHash (s : Core) (p : Nat) (h : BitVec 4) : Bool :=
  match (s.slice p).leaving, (s.slice p).logical with
  | some t, some l => logicalOf t h != l
  | _, _ => false

/-- Barges of a group (06 R196): request 0, writeback 1, internal 2, snoop 3. -/
def groupSize (g : Nat) : Nat := if g = 0 then 704 else if g = 1 then 48 else if g = 2 then 16 else 256

/-- The group an item takes its barge from. -/
def groupOf (op : BitVec 8) : Nat := if op = opWbD then 1 else 0

/-- The barge of a group that can be unloaded for an item of a stamp: the youngest that heads no chamber, has sent nothing and been
given nothing, and is younger (06 R197). -/
def Core.unloadable (s : Core) (p g : Nat) (stamp : Stamp) : Option Barge :=
  let x := s.slice p
  let ok (b : Barge) : Bool := b.grp = g && b.phase = .waiting && !b.sent && !b.given &&
    !x.chambers.any (fun c => c.order.head? = some b.id) && decide (age s.host.tick b.stamp < age s.host.tick stamp)
  (x.barges.filter ok).foldl (fun (m : Option Barge) b => match m with
    | some c => if age s.host.tick b.stamp < age s.host.tick c.stamp then some b else some c
    | none => some b) none

/-- Whether a group has a barge for an item: free, or to be unloaded. -/
def Core.groupOk (s : Core) (p g : Nat) (stamp : Stamp) : Bool :=
  ((s.slice p).barges.filter (fun b => b.grp = g)).length < groupSize g || (s.unloadable p g stamp).isSome

/-- Unload a barge: its item goes back with its stamp (06 R197). -/
def Core.unload (p : Nat) (b : Barge) (s : Core) : Core :=
  let s := (s.onSlice p (fun x => { x with
    barges := x.barges.filter (fun c => c.id != b.id)
    chambers := (updateWhere (fun c => c.line = b.line) (fun c => { c with order := c.order.filter (fun i => i != b.id) })
      x.chambers).filter (fun c => !c.order.isEmpty) })).bump p 0x005 1
  match b.item with
  | .req id => s.onBerth id (fun r => { r with slice := none })
  | .snoop id => s.onHost (fun h => { h with intake := updateWhere (fun i => i.id = id) (fun i => { i with slice := none }) h.intake })
  | .internal k => s.onSlice p (fun x => { x with internals := x.internals ++ [⟨b.id, k, b.line, b.stamp⟩] })

/-- Make room in a group. -/
def Core.makeRoom (p g : Nat) (stamp : Stamp) (s : Core) : Core :=
  if ((s.slice p).barges.filter (fun b => b.grp = g)).length < groupSize g then s
  else match s.unloadable p g stamp with
    | some b => s.unload p b
    | none => s

/-! Eligibility (06 R201). -/

/-- What a SETTLE waits for at its proxy: a covered write or an ATOM of the agent to the same home, earlier and without its completion
(04 R136). -/
def Core.settleHeld (s : Core) (r : Berth) : Bool :=
  s.host.berths.any (fun b => b.h.agent = r.h.agent && !b.own && !b.discard && carriesData b.op && decide (b.seq < r.seq) && !b.posted &&
    !b.cmpWait && s.homeOf b.h.line = s.homeOf r.h.line)

/-- An earlier entry of the same berth for the same logical slice still waits (06 R201). -/
def Core.berthBehind (s : Core) (r : Berth) : Bool :=
  s.host.berths.any (fun b => b.h.agent = r.h.agent && classOf b.op = classOf r.op && b.slice.isNone && !b.discard && b.id != r.id &&
    !(b.own && agentInst b.h.agent = s.self) && logicalOf s.host.trim b.hash = logicalOf s.host.trim r.hash && decide (b.seq < r.seq))

/-- A FORWARDED entry of a line that is still to be replayed: later requests for the line do not pass it, and no snoop does once its
completion is stored (06 R205, R209, 11 R387). -/
def Core.replayFirst (s : Core) (x : LineAddr) (withCmp : Bool) : Bool :=
  s.host.berths.any (fun b => b.fwd && b.h.line = x && b.slice.isNone && !b.discard && (b.cmp.isSome || !withCmp))

/-- A berth entry is eligible in a slice. -/
def Core.berthEligible (s : Core) (p : Nat) (r : Berth) : Bool :=
  s.block = .service && s.frz.st = 0 && !s.stopped && s.serves p && !s.leavesHash p r.hash &&
  r.slice.isNone && !r.discard && !(r.own && agentInst r.h.agent = s.self) && s.physOf r.hash = p &&
  (s.isPresent r.h.agent || (s.tombed r.h.agent && ((r.op = opWbD && r.full) || r.fwd))) && !s.berthBehind r &&
  (r.fwd || !s.replayFirst r.h.line false) &&
  !(r.op = opSettle && agentInst r.h.agent = s.self && s.settleHeld r) && s.groupOk p (groupOf r.op) r.stamp

/-- A snoop intake entry is eligible in a slice. -/
def Core.snoopEligible (s : Core) (p : Nat) (i : SnoopItem) : Bool :=
  !s.stopped && s.serves p && !s.leavesHash p i.hash && i.slice.isNone && s.physOf i.hash = p &&
  !s.replayFirst i.h.line true && s.groupOk p 3 i.stamp

/-- An internal operation is eligible in a slice. -/
def Core.internalEligible (s : Core) (p : Nat) (i : Internal) : Bool :=
  s.frz.st = 0 && !s.stopped && s.serves p && !s.leavesHash p (sliceHash i.line) && s.groupOk p 2 i.stamp

/-! The choice (06 R202). -/

/-- Distance from a pointer, counting upwards and wrapping. -/
def fromPtr {w : Nat} (ptr v : BitVec w) : Nat := (v - ptr).toNat
/-- Rank of a class among entries of one agent: WB, ATOM, OWN, READ. -/
def classRank (op : BitVec 8) : Nat := 3 - classOf op

/-- The best of a list by a strict order. -/
def pickBy {α : Type} (lt : α → α → Bool) : List α → Option α
  | [] => none
  | a :: l => some (l.foldl (fun m b => if lt b m then b else m) a)

/-- What an admission takes. -/
inductive Pick where
  | snoop (i : SnoopItem)
  | berth (r : Berth)
  | internal (i : Internal)
  deriving DecidableEq, Repr

/-- The item as the arbiter holds it between its selection and its admission (06 R203). -/
def Pick.sel : Pick → Selected
  | .snoop i => .snoop i.id
  | .berth r => .berth r.id
  | .internal i => .internal i.id

/-- The snoop a slice would take, other than one that is being admitted. -/
def Core.bestSnoop (s : Core) (p : Nat) (but : Option Selected := none) : Option SnoopItem :=
  let k := s.host.tick
  let ptr := (s.slice p).snoopPtr
  pickBy (fun a b => decide (age k b.stamp < age k a.stamp) ||
    (age k a.stamp = age k b.stamp && decide (fromPtr ptr a.h.srci < fromPtr ptr b.h.srci)))
    (s.host.intake.filter (fun i => s.snoopEligible p i && but != some (.snoop i.id)))

/-- The berth entry a slice would take, other than one that is being admitted. -/
def Core.bestBerth (s : Core) (p : Nat) (but : Option Selected := none) : Option Berth :=
  let k := s.host.tick
  let ptr := (s.slice p).agentPtr
  pickBy (fun a b => decide (age k b.stamp < age k a.stamp) ||
    (age k a.stamp = age k b.stamp && (decide (fromPtr ptr a.h.agent < fromPtr ptr b.h.agent) ||
      (a.h.agent = b.h.agent && decide (classRank a.op < classRank b.op)))))
    (s.host.berths.filter (fun r => s.berthEligible p r && but != some (.berth r.id)))

/-- The internal operation a slice would take, other than one that is being admitted. DESIGN CHOICE (log entry 72): of internal operations of
equal age the one that was created first. -/
def Core.bestInternal (s : Core) (p : Nat) (but : Option Selected := none) : Option Internal :=
  let k := s.host.tick
  pickBy (fun a b => decide (age k b.stamp < age k a.stamp))
    ((s.slice p).internals.filter (fun i => s.internalEligible p i && but != some (.internal i.id)))

/-- The oldest eligible item other than a snoop: an internal operation first in a tie (06 R202). -/
def Core.bestOther (s : Core) (p : Nat) (but : Option Selected := none) : Option Pick :=
  match s.bestInternal p but, s.bestBerth p but with
  | some i, some r => if age s.host.tick r.stamp ≤ age s.host.tick i.stamp then some (.internal i) else some (.berth r)
  | some i, none => some (.internal i)
  | none, some r => some (.berth r)
  | none, none => none

/-- Whether a held selection is a snoop's. -/
def snoopSel : Option Selected → Bool
  | some (.snoop _) => true
  | _ => false

/-- The item a slice selects: snoops first, but for the fourth in a row, the one that is being admitted counted (06 R202). -/
def Core.choice (s : Core) (p : Nat) (but : Option Selected := none) : Option Pick :=
  match s.bestSnoop p but, s.bestOther p but with
  | some i, some o => if 3 ≤ (s.slice p).snoopRun + (if snoopSel but then 1 else 0) then some o else some (.snoop i)
  | some i, none => some (.snoop i)
  | none, o => o

/-- The selected item in the cycle of its admission, if it is still eligible (06 R203, R216). -/
def Core.picked (s : Core) (p : Nat) (k : Selected) : Option Pick :=
  match k with
  | .snoop n => (s.host.intake.find? (fun i => i.id = n && s.snoopEligible p i)).map Pick.snoop
  | .berth n => (s.host.berths.find? (fun r => r.id = n && s.berthEligible p r)).map Pick.berth
  | .internal n => ((s.slice p).internals.find? (fun i => i.id = n && s.internalEligible p i)).map Pick.internal

/-! Joining a chamber (06 R205, R209). -/

/-- A barge of a group for an item and a line. -/
def newBarge (id grp : Nat) (item : Item) (line : LineAddr) (stamp : Stamp) : Barge :=
  { id := id, grp := grp, item := item, line := line, stamp := stamp }

/-- Whether a barge is a forwarded one, or one that waits to be. -/
def Barge.away (b : Barge) : Bool := b.phase = .forwarded || b.phase = .toForward

/-- Whether a barge is a home snoop's. -/
def Barge.isSnoop (b : Barge) : Bool := match b.item with
  | .snoop _ => true
  | _ => false

/-- Place a barge in a chamber's order: behind every barge at work, for a snoop but the forwarded ones, and before the first waiting
barge that is younger. -/
def Core.insertAt (s : Core) (p : Nat) (b : Barge) (order : List Nat) : List Nat :=
  let k := s.host.tick
  let x := s.slice p
  let busy (i : Nat) : Bool := match x.barge? i with
    | some c => c.phase != .waiting && !(b.isSnoop && c.away)
    | none => false
  let fixed := ((List.range order.length).filter (fun j => match order[j]? with
    | some i => busy i
    | none => false)).foldl (fun _ j => j + 1) (if order.isEmpty then 0 else 1)
  let rest := order.drop fixed
  let older (i : Nat) : Bool := match x.barge? i with
    | some c => decide (age k b.stamp ≤ age k c.stamp) || c.phase != .waiting
    | none => true
  order.take fixed ++ rest.takeWhile older ++ [b.id] ++ rest.dropWhile older

/-- Join a chamber, or make it. -/
def Core.joinChamber (p : Nat) (b : Barge) (s : Core) : Core :=
  let there := (s.slice p).hasChamber b.line
  let s' := s.onSlice p (fun x =>
    { x with
      barges := x.barges ++ [b]
      chambers := if there then updateWhere (fun c => c.line = b.line) (fun c => { c with order := s.insertAt p b c.order }) x.chambers
        else x.chambers ++ [⟨b.line, [b.id]⟩] })
  if there then s'.bump p 0x022 1 else s'

/-- Offset of FO_STAT (11 R389). -/
def offFoStat : Nat := 0x20808

/-- The last item held at a failover has been admitted: the spare goes to SERVICE mode and FAILOVER is raised (11 R383). -/
def Core.replayed (item : Nat) (s : Core) : Core :=
  foldS (fun (f : Failover) s =>
    if f.step = 4 && f.held.contains item then
      let held := f.held.filter (fun i => i != item)
      let s := if f.timed then s else
        s.setReg offFoStat (withBits (s.reg offFoStat) 31 16 (Nat.min 0xFFFF ((s.tb - f.began) / 100)))
      let s := { s with failovers := updateWhere (fun g => g.logical = f.logical) (fun g => { g with held := held, timed := true }) s.failovers }
      let s := match f.cmd with
        | some c => if f.timed then s else { s with up := s.up ++ [Up.failover c f.spare] }
        | none => s
      if held.isEmpty then s.task (.replayEnd f.logical) else s
    else s) s.failovers s

/-- A WB_D of a local agent that meets an occupied chamber goes to its home at once, ahead of any resolution of the entry (06 R207; DEDUCED, log
entry 78); at a local home its agent leaves the entry first, at another the entry waits for the completion (03 R106, 04 R118). -/
def Core.localWb (p id : Nat) (r : Berth) (s : Core) : Core :=
  if s.homesHere r.h.line then
    let s := s.dropWriter p r.h.line (agentLocal r.h.agent)
    let s := s.onSlice p (fun x => { x with
      barges := x.barges.filter (fun c => c.id != id)
      chambers := (updateWhere (fun c => c.line = r.h.line) (fun c => { c with order := c.order.filter (fun i => i != id) })
        x.chambers).filter (fun c => !c.order.isEmpty) })
    (s.wbArrive p r.id).task (.wbDone r.h.line)
  else s.forward p id

/-- Admit a berth entry (06 R202, R205, R207): a WB_D that meets an occupied chamber goes on at once. An item whose slice failed is
replayed by what its entry holds (11 R387). -/
def Core.admitBerth (p : Nat) (r : Berth) (s : Core) : Core :=
  let s := (s.makeRoom p (groupOf r.op) r.stamp).onBerth r.id (fun b => { b with slice := some p })
  let s := s.onSlice p (fun x => { x with agentPtr := r.h.agent + 1, snoopRun := 0 })
  let s := s.bump p 0x002 1
  let s := { s with up := s.up ++ [Up.admitted p ⟨r.op, r.h, none⟩] }
  let s := s.replayed r.id
  if r.posted then s
  else
    let (i, s) := s.fresh
    let b := newBarge i (groupOf r.op) (.req r.id) r.h.line r.stamp
    if r.fwd then
      let b := { b with phase := if r.cmp.isSome then .granted else .forwarded, sent := true, given := true, cmp := r.cmp, gotData := r.got,
                          gotPoison := r.gotBad, replay := true }
      let s := (s.joinChamber p b).task (.advance p i)
      match r.held with
      | some (ep, m) => (s.onBerth r.id (fun r => { r with held := none })).deliverDat ep r.stamp m
      | none => s
    else
      let occupied := (s.slice p).hasChamber r.h.line
      if r.op = opWbD && occupied then
        if agentInst r.h.agent = s.self && !r.own then (s.joinChamber p b).localWb p i r
        else s.wbArrive p r.id
      else s.joinChamber p b

/-- Admit a snoop intake entry. -/
def Core.admitSnoop (p : Nat) (it : SnoopItem) (other : Bool) (s : Core) : Core :=
  let s := (s.makeRoom p 3 it.stamp).onHost (fun h =>
    { h with intake := updateWhere (fun i => i.id = it.id) (fun i => { i with slice := some p }) h.intake })
  let s := s.onSlice p (fun x => { x with snoopPtr := it.h.srci + 1, snoopRun := if other then x.snoopRun + 1 else 0 })
  let s := (s.bump p 0x002 1).bump p 0x003 1
  let s := { s with up := s.up ++ [Up.admitted p ⟨it.op, it.h, none⟩] }
  let s := s.replayed it.id
  let (i, s) := s.fresh
  s.joinChamber p (newBarge i 3 (.snoop it.id) it.h.line it.stamp)

/-- Admit an internal operation. -/
def Core.admitInternal (p : Nat) (it : Internal) (s : Core) : Core :=
  let s := s.makeRoom p 2 it.stamp
  let s := (s.onSlice p (fun x => { x with internals := x.internals.filter (fun i => i.id != it.id), snoopRun := 0 })).bump p 0x002 1
  s.joinChamber p (newBarge it.id 2 (.internal it.kind) it.line it.stamp)

/-- One admission of a slice (06 R202, R203). -/
def Core.admitPick (p : Nat) (k : Pick) (s : Core) : Core :=
  match k with
  | .snoop i => s.admitSnoop p i (s.bestOther p).isSome
  | .berth r => s.admitBerth p r
  | .internal i => s.admitInternal p i

/-! The head of a chamber (06 R206). -/

/-- The barge of a chamber that may act next: the first waiting one with none before it, but a home snoop passes forwarded barges and
requests that wait behind them (06 R206, R209), and the settle snoop of a home's own proxy passes a head that waits for the record
that the settle is to rebuild (05 R178, R179). -/
def Core.nextHead (s : Core) (p : Nat) (l : LineAddr) : Option Barge :=
  let x := s.slice p
  match x.chambers.find? (fun c => c.line = l) with
  | none => none
  | some c =>
    let bs := c.order.filterMap (fun i => x.barge? i)
    let step (acc : Bool × Bool × Option Barge) (b : Barge) : Bool × Bool × Option Barge :=
      -- (clear for a request, a forwarded barge stands before, found)
      match acc with
      | (_, _, some _) => acc
      | (free, away, none) =>
        if b.phase = .waiting then
          if b.isSnoop then (if free || away then (free, away, some b) else (false, false, none))
          else if free then (free, away, some b)
          else (false, away, none)
        else if b.away || b.phase = .recordWait then (false, free || away, none)
        else (false, false, none)
    (bs.foldl step (true, false, none)).2.2

/-- A double-bit error in a Sieve way (05 R157, R163): the way is invalid; a Home Sieve error flags every suspect page of the slice, and a barge
that had pinned the way reads its record again; a Local Sieve error opens its logical slice. -/
def Core.sieveUe (p : Nat) (local? : Bool) (set way : Nat) (s : Core) : Core :=
  let k := wayKey set way
  if local? then
    let s := (s.onSlice p (fun x => { x with ls := merase x.ls k })).raise famLsieveUe p
    match s.logicalServed p with
    | some l => s.openStart (oneHot 16 l)
    | none => s
  else
    let was := mfind (s.slice p).hs k
    let s := ((s.onSlice p (fun x => { x with hs := merase x.hs k })).raise famHsieveUe p).onSuspects p
      (fun l => l.map (fun e => { e with flag := true }))
    match was with
    | none => s
    | some e =>
      let x := s.lineAtOffset (hsLineIndex set e.tag * 256)
      match s.homeOffset (linePa x).toNat with
      | none => s
      | some ho => foldS (fun (b : Barge) s =>
          if b.line = x && b.rcd.isSome && !b.reread then
            (s.onBarge p b.id (fun b => { b with reread := true })).larderOp (pageOf ho).1 (.fetch p b.id (pageOf ho).2)
          else s) (s.slice p).barges s

/-- A bit error that a head's lookup meets (05 R157, R163, 07 R250). An error in a Skillet tag is one in control state. -/
def Core.lookErr (p : Nat) (l : LineAddr) (e : LookErr) (s : Core) : Core :=
  match e with
  | .sieve e =>
    let set := if e.local? then some (lsSet l) else (s.homeOffset (linePa l).toNat).map (fun ho => (hsIndex ho).1)
    match set with
    | none => s
    | some k => if e.double then s.sieveUe p e.local? k e.way.val else s.raise (if e.local? then famLsieveCe else famHsieveCe) p
  | .skilletData double =>
    if double then
      (s.onSlice p (fun x => { x with
        skl := x.skl.map (fun (e : Nat × SklEnt) => if e.2.line = l then (e.1, { e.2 with poison := true }) else e) })).raise famSkilletUe p
    else s.raise famSkilletCe p
  | .skilletTag | .control => s.raise famCtrlUe p
  | .predictor => (s.onSlice p (fun x => { x with pred := merase x.pred (predIndex l) })).bump p 0x032 1
  | .tray double =>
    if double then
      (s.onSlice p (fun x => { x with
        warm := x.warm.map (fun (e : Nat × Warm) => if e.2.line = l then (e.1, { e.2 with poison := true }) else e)
        drip := x.drip.map (fun (e : Nat × Drip) => if e.2.line = l then (e.1, { e.2 with poison := true }) else e) })).raise famSkilletUe p
    else s.raise famSkilletCe p

/-- A barge becomes head and begins its work (06 R206, 04 R116), with the bit errors that its lookups meet. An SNP_Q is worked on by the host port
for every slice of its page (05 R175). An error in control state stops the head with its slice, which commits nothing (07 R250, 11 R379). -/
def Core.headStart (p : Nat) (l : LineAddr) (errs : List LookErr) (s : Core) : Core :=
  match s.nextHead p l with
  | none => s
  | some b =>
    let s := foldS (Core.lookErr p l) errs s
    if errs.contains .skilletTag || errs.contains .control then s
    else match b.item with
    | .snoop iid =>
      let s := s.onBarge p b.id (fun b => { b with phase := .atProxy })
      match s.host.intake.find? (fun i => i.id = iid) with
      | some i => if i.op = opSnpQ then s.queryGo i else s.lookupEntry p b.id
      | none => s.endBarge p b.id
    | .internal _ => (s.onBarge p b.id (fun b => { b with phase := .atHome })).homeLookup p b.id
    | .req id =>
      match s.berth? id with
      | none => s.endBarge p b.id
      | some r =>
        let s := if s.homesHere l then s.earlyRead p b.id else s
        if agentInst r.h.agent = s.self && !r.own then
          (s.onBarge p b.id (fun b => { b with phase := .atProxy })).lookupEntry p b.id
        else (s.onBarge p b.id (fun b => { b with phase := .atHome })).homeLookup p b.id

/-! Simmer, sweep, Wharf and background work. -/

/-- A simmer timer ends: the next snoop to its target may go (06 R213). -/
def Core.simmerEnd (p : Nat) (l : LineAddr) (t : Target) (s : Core) : Core :=
  if (s.slice p).simmering l t then
    let s := s.onSlice p (fun x => { x with simmer := x.simmer.filter (fun e => !(e.line = l && e.target = t)) })
    if s.sliceSealed p || s.stopped then s else
    foldS (fun (b : Barge) s =>
      if b.line = l then (if b.locals.isEmpty then s.sendChipSnoops p b.id else (s.sendChipSnoops p b.id).sendLocals p b.id) else s)
      (s.slice p).barges s
  else s

/-- A stamp whose age has reached 0xF0_0000 ticks is rewritten to that age (06 R199). -/
def clampStamp (tick stamp : Stamp) : Stamp := if 0xF00000 ≤ age tick stamp then tick - 0xF00000#24 else stamp

/-- The sweep of every berth and snoop intake entry (06 R199). -/
def Core.sweep (s : Core) : Core :=
  let k := s.host.tick
  s.onHost (fun h => { h with
    berths := h.berths.map (fun b => { b with stamp := clampStamp k b.stamp })
    intake := h.intake.map (fun i => { i with stamp := clampStamp k i.stamp }) })

/-- Whether a transfer may cross now. In a power-fail hold the Wharf carries the drain's lines and the messages that are passed on, in a block
seal the drain's lines alone (08 R271, 09 R296, 11 R400). -/
def Core.mayCross (s : Core) (x : Xfer) : Bool :=
  if !s.stopped then true
  else match x.act with
    | .memory i => s.pf.left.contains i || s.pf.rest.contains i || s.mem.writes.any (fun w => w.id = i && w.drain)
    | .culvert m _ => m.came && s.pf.hold && s.block != .sealed_
    | _ => false

/-- The older of two transfers, by their stamps. -/
def Core.olderXfer (s : Core) (a b : Xfer) : Bool := decide (age s.host.tick b.stamp < age s.host.tick a.stamp)

/-- The transfers presented to a destination: each source's oldest, once those that its last grant left before it are through (06 R204). -/
def Core.presented (s : Core) (dst : Nat) : List Xfer :=
  let l := s.wharf.xfers.filter (fun x => x.dst = dst && s.mayCross x)
  (List.range 32).filterMap (fun src =>
    let blocked : Bool := s.wharf.owes.any (fun o => o.dst = dst && o.src = src && o.first.any (fun i => l.any (fun y => y.id = i)))
    if blocked then none else pickBy s.olderXfer (l.filter (fun x => x.src = src)))

/-- The transfer a Wharf destination grants: the oldest presented one, then the first source at or after the pointer (06 R204). -/
def Core.wharfPick (s : Core) (dst : Nat) : Option Xfer :=
  let ptr := mget 0 s.wharf.ptrs dst
  pickBy (fun a b => s.olderXfer a b ||
    (age s.host.tick a.stamp = age s.host.tick b.stamp && decide ((a.src + 32 - ptr) % 32 < (b.src + 32 - ptr) % 32))) (s.presented dst)

/-- Beats of a transfer's line. -/
def XferTo.beats (a : XferTo) : Nat :=
  let of (m : Msg) : Nat := match m.beats with
    | some b => if b.one then 1 else 2
    | none => 0
  match a with
  | .fabric _ m => of m
  | .culvert c _ => of c.m
  | _ => 2

/-- A line has crossed the Wharf: it reaches its fabric port, the Culvert, its memory port, or its slice's Skillet port. -/
def Core.crossed (a : XferTo) (s : Core) : Core :=
  match a with
  | .fabric f m => (s.onFab f (fun q => { q with datQ := q.datQ ++ [m] })).flushFab f
  | .culvert c behind => { s with toSend := s.toSend ++ (c :: behind.map culOwn) }
  | .memory i => s.writeCrossed i
  | .skillet p id operand =>
    (s.onBarge p id (fun b => if operand then { b with operand := .arrived } else { b with fill := .arrived })).task (.advance p id)
  | .warm p i id d q => s.warmLand p i id d q

/-- One grant of a Wharf destination (06 R204). -/
def Core.wharfGrant (dst : Nat) (s : Core) : Core :=
  match s.wharfPick dst with
  | none => s
  | some x =>
    let shown := ((s.presented dst).filter (fun y => y.id != x.id)).map (fun y => y.id)
    let owes : List Owes := s.wharf.owes.filter (fun o => !(o.dst = dst && o.src = x.src))
    let s := { s with wharf := {
      xfers := s.wharf.xfers.filter (fun y => y.id != x.id)
      ptrs := mset 0 s.wharf.ptrs dst ((x.src + 1) % 32)
      owes := owes ++ (if shown.isEmpty then [] else [Owes.mk dst x.src shown]) } }
    let s := (s.bump 32 0x201 1).bump 32 0x202 x.act.beats
    let s := if shown.isEmpty then s else s.bump 32 0x203 1
    s.crossed x.act

/-- A credit of a fabric channel returns: 0 SNP, 1 DAT, 2 CMP, at most 255 each (18 R579). -/
def Core.fabricCredit (f kind : Nat) (s : Core) : Core :=
  (s.onFab f (fun q =>
    if kind = 0 then { q with snpCrd := Nat.min 255 (q.snpCrd + 1) }
    else if kind = 1 then { q with datCrd := Nat.min 255 (q.datCrd + 1) }
    else { q with cmpCrd := Nat.min 255 (q.cmpCrd + 1) })).flushFab f

/-- Above DIRTY_HIGH, with no Skillet write outstanding, a slice writes its least recently used dirty, unpinned entry (07 R242). -/
def Core.sklBackground (p : Nat) (s : Core) : Core :=
  let x := s.slice p
  let out := s.mem.writes.any (fun w => match w.src with
    | .skillet q _ => q = p
    | _ => false)
  if decide (s.sklHigh < x.sklDirty) && !out then
    match lruOf (x.skl.filter (fun e => e.2.dirty && !e.2.pinned)) with
    | some i => s.sklWrite p i none
    | none => s
  else s

/-- Above DIRTY_HIGH a slice passes one dirty, unpinned record to write-back: the one its patrol reaches next (05 R155). -/
def Core.hsBackground (p : Nat) (s : Core) : Core :=
  let x := s.slice p
  let high := Nat.min 1024 (bits (s.reg offHsCtl) 10 0)
  let far (k : Nat) : Nat := (k / 16 + 2048 - x.patrol % 2048) % 2048 * 16 + k % 16
  if high < x.heldDirty then
    match pickBy (fun (a b : Nat × HsWay) => decide (far a.1 < far b.1))
        (x.hs.filter (fun e => e.2.dirty && !s.hsPinned p (e.1 / 16) e.2)) with
    | some (k, e) =>
      (s.onSlice p (fun y => { y with hs := mput y.hs k { e with dirty := false } })).writeBack p (hsLineIndex (k / 16) e.tag * 256) e.rcd
    | none => s
  else s

end Sys2Proof.Machine
end

