-- ==== Sys2Proof/Machine/Patrol.lean ====
section
/-!
DEFINITION. Sys2Proof/Machine/Patrol.lean: a slice's Sieve patrol, remapping of ways, and the bursts of the Scrub engine (05 R157,
R163, R181 to R185).
-/
namespace Sys2Proof.Machine

/-- Offset of SIEVE_REMAP(k) of a slice (05 R184). -/
def offRemap (p k : Nat) : Nat := 0x100000 + p * 0x10000 + 0x800 + k * 8

/-- A way is taken out of use: its entry is written back or spilled (05 R185). A barge that holds the record keeps it alone. -/
def Core.vacate (p : Nat) (local? : Bool) (set way : Nat) (s : Core) : Core :=
  let x := s.slice p
  let k := wayKey set way
  if local? then
    match mfind x.ls k with
    | some e => (s.onSlice p (fun y => { y with ls := merase y.ls k })).spillOut p e
    | none => s
  else
    match mfind x.hs k with
    | some e =>
      let x := s.lineAtOffset (hsLineIndex set e.tag * 256)
      let s := s.onSlice p (fun y => { y with
        hs := merase y.hs k
        barges := y.barges.map (fun b => if b.line = x && b.rcd.isSome && b.stored.isNone then { b with stored := some e.rcd } else b) })
      if e.dirty then s.writeBack p (hsLineIndex set e.tag * 256) e.rcd else s
    | none => s

/-- Whether a remap register names a way that exists: an array, a way and a set. -/
def remapWay (w : Word) : Option (Bool × Nat × Nat) :=
  let l := bit w 1
  let set := bits w 18 6
  if bit w 0 && set < (if l then 2 ^ Config.lsLog2Sets else 2048) then some (l, set, bits w 5 2) else none

/-- Whether a way that is to be disabled holds an entry that no free spill buffer slot can take (05 R185). -/
def Core.vacateWaits (s : Core) (p : Nat) (w : Word) : Bool :=
  match remapWay w with
  | some (l, set, way) => l && mhas (s.slice p).ls (wayKey set way) && s.spillFull p
  | none => false

/-- A write of SIEVE_REMAP(k): a way newly disabled is vacated first, and the write waits for a spill buffer slot when that needs one (05
R184, R185). A later write of the register takes the place of a waiting one. -/
def Core.remapWrite (p k : Nat) (w : Word) (s : Core) : Core :=
  let w : Word := w &&& 0x7FFFF
  let s := s.onSlice p (fun x => { x with remapWait := x.remapWait.filter (fun e => e.1 != k) })
  if s.vacateWaits p w then s.onSlice p (fun x => { x with remapWait := x.remapWait ++ [(k, w)] })
  else
    let s := match remapWay w with
      | some (l, set, way) => s.vacate p l set way
      | none => s
    s.setReg (offRemap p k) w

/-- A spill buffer slot has come free: waiting writes of SIEVE_REMAP registers take effect (05 R185). -/
def Core.remapAgain (p : Nat) (s : Core) : Core :=
  foldS (fun (e : Nat × Word) s => s.remapWrite p e.1 e.2) (s.slice p).remapWait s

/-- Add a remap entry for a way with a corrected error on two passes in a row, unless one names it already (05 R185). DESIGN CHOICE (log entry
70): of several invalid registers it takes the lowest-numbered one. -/
def Core.autoRemap (p : Nat) (local? : Bool) (set way : Nat) (s : Core) : Core :=
  if s.wayOff p local? set way || (s.slice p).remapWait.any (fun e => remapWay e.2 = some (local?, set, way)) then s
  else match (List.range 16).find? (fun k => !bit (s.reg (offRemap p k)) 0) with
  | some k => s.remapWrite p k (at' 1 0 ||| at' (if local? then 1 else 0) 1 ||| at' way 2 ||| at' set 6)
  | none => s.raise famRemapFull p

/-- A single-bit error found by a patrol: corrected, and remapped on its second pass in a row (05 R157, R163, R185). -/
def Core.patrolCe (p : Nat) (e : PatrolErr) (set : Nat) (before : List (Bool × Nat × Nat)) (s : Core) : Core :=
  let s := s.raise (if e.local? then famLsieveCe else famHsieveCe) p
  let s := s.onSlice p (fun x => { x with ceWays := x.ceWays ++ [(e.local?, set, e.way.val)] })
  if bit (s.reg offScrubCtl) 3 && before.contains (e.local?, set, e.way.val) then s.autoRemap p e.local? set e.way.val else s

/-- One patrol of a slice: a set of each Sieve (05 R181). -/
def Core.patrol (p : Nat) (errs : List PatrolErr) (s : Core) : Core :=
  if !s.serves p || s.stopped then s else
  let x := s.slice p
  let hset := x.patrol % 2048
  let lset := x.patrol % 2 ^ Config.lsLog2Sets
  let here (c : Bool × Nat × Nat) : Bool := if c.1 then c.2.1 = lset else c.2.1 = hset
  let s := s.onSlice p (fun y => { y with ceWays := y.ceWays.filter (fun c => !here c) })
  let s := foldS (fun (e : PatrolErr) s =>
    let set := if e.local? then lset else hset
    if e.double then s.sieveUe p e.local? set e.way.val else s.patrolCe p e set x.ceWays) errs s
  let high := Nat.min 1024 (bits (s.reg offHsCtl) 10 0)
  let s := foldS (fun w s =>
    match mfind (s.slice p).hs (wayKey hset w) with
    | some e =>
      if e.dirty && decide (high < (s.slice p).heldDirty) && !s.hsPinned p hset e then
        (s.onSlice p (fun y => { y with hs := mput y.hs (wayKey hset w) { e with dirty := false } })).writeBack p
          (hsLineIndex hset e.tag * 256) e.rcd
      else s
    | none => s) (List.range 16) s
  s.onSlice p (fun y => { y with patrol := (y.patrol + 1) % 4096 })

/-- Take n values from a start, wrapping at m. -/
def wrapRange (start n m : Nat) : List Nat := if m = 0 then [] else (List.range (Nat.min n m)).map (fun i => (start + i) % m)

/-- One burst of the Scrub engine (05 R181 to R183): flagged suspect pages, Larder pages and Overflow buckets. None runs before the
first generation (15 R513), in a power-fail hold (08 R271), or while the Scrub Gate is paused (16 R556). DESIGN CHOICE (log entry 71): the
suspect maps of several slices are taken in ascending order of their physical slices. -/
def Core.scrubBurst (s : Core) : Core :=
  if s.eng.generation = 0 || s.stopped || s.gatePaused gateScrub then s else
  let c := s.reg offScrubCtl
  let n := Nat.max 1 (bits c 15 8)
  let flagged := ((List.range 18).flatMap (fun p => ((s.suspects p).filter (fun e => e.flag)).map (fun e => (p, e.page)))).take n
  let s := foldS (fun (e : Nat × Nat) s => s.larderOp e.2 (.suspect e.1)) flagged s
  let s := if bit c 0 then
      let m := s.pageCount
      let s' := foldS (fun g s => s.larderOp g .scrub) (wrapRange s.eng.scrubPage n m) s
      s'.onEng (fun g => { g with scrubPage := if m = 0 then 0 else (g.scrubPage + Nat.min n m) % m })
    else s
  if bit c 1 then
    let m := 2 * 2 ^ s.ovfLog
    let s' := foldS (fun b s => s.ovfAdd (.scrub b) 0 none) (wrapRange s.eng.scrubBucket n m) s
    s'.onEng (fun g => { g with scrubBucket := (g.scrubBucket + Nat.min n m) % m })
  else s

end Sys2Proof.Machine
end

