-- ==== Sys2Proof/Machine/PowerFail.lean ====
section
/-!
DEFINITION. Sys2Proof/Machine/PowerFail.lean: the power-fail drain and the drain of a block seal (08 R270 to R275, 11 R400).
-/
namespace Sys2Proof.Machine

/-- Whether a write carries a guaranteed line (08 R271): a posted line, a drip tray line or the line of a Skillet entry of a SERVING or DRAINING
slice, whose latest write it then is. -/
def Core.guaranteed (s : Core) (w : MWrite) : Bool :=
  w.posted || (match w.src with
    | .drip _ _ => true
    | .skillet p _ => (s.serves p || (s.slice p).st = .draining) && !s.mem.writes.any (fun v => v.src = w.src && decide (w.id < v.id))
    | .berth id => (match s.berth? id with
      | some b => b.posted
      | none => false)
    | _ => false)

/-- Mark writes as the drain's: each counts as written at its write acknowledgement (08 R262). -/
def Core.drainMark (ids : List Nat) (s : Core) : Core :=
  { s with mem := { s.mem with writes := updateWhere (fun (w : MWrite) => ids.contains w.id) (fun w => { w with drain := true }) s.mem.writes } }

/-- Update the drain's status. -/
def Core.onPf (f : PowerFail → PowerFail) (s : Core) : Core := { s with pf := f s.pf }

/-- Queue the other lines of a port: the data of requests not yet completed, collected data in the chamber data reserve, and lines of a
failed slice not yet salvaged (11 R389), in stamp order (08 R271). -/
def Core.restStart (m : Nat) (s : Core) : Core :=
  let here (x : LineAddr) : Bool := s.memPort (linePa x).toNat = m && s.homesHere x
  let old := s.mem.writes.filter (fun w => w.port = m && !w.wack && !s.pf.left.contains w.id && !s.pf.rest.contains w.id)
  let reqs := (s.host.berths.filter (fun b => here b.h.line && b.full && !b.posted && !b.writing && !b.discard &&
      (b.op = opWbD || b.op = opWrFull || b.op = opWrPart))).filterMap (fun b => b.data.map (fun d =>
        (b.stamp, b.h.line, d.data, (if b.op = opWrPart then d.mask else fullMask), b.poison, b.ep)))
  let coll := s.slices.flatMap (fun e => (e.2.barges.filter (fun b => here b.line && !b.fromWb)).filterMap (fun b =>
      b.dirty.map (fun d => (b.stamp, b.line, d.1, fullMask, d.2, b.dirtyEp))))
  let sal := (s.failovers.filter (fun f => f.step < 3)).flatMap (fun f => ((s.slice f.failed).skl.filter (fun e => e.2.dirty && here e.2.line)).map
    (fun e => (e.2.oldest, e.2.line, e.2.data, fullMask, e.2.poison, epSkl f.failed)))
  let all := sortBy (fun a b => decide (age s.host.tick b.1 ≤ age s.host.tick a.1)) (reqs ++ coll ++ sal)
  let (ids, s) := all.foldl (fun (a : List Nat × Core) (r : Stamp × LineAddr × LineData × LineMask × Bool × Nat) =>
    let (i, s) := a.2.queueWrite r.2.1 r.2.2.1 r.2.2.2.1 r.2.2.2.2.1 .drained r.1 false none none (some r.2.2.2.2.2)
    (a.1 ++ [i], s)) (old.map (fun w => w.id), s)
  (s.drainMark ids).onPf (fun f => { f with rest := f.rest ++ ids })

/-- The end of the guaranteed lines (08 R272, 11 R400). -/
def Core.drainEnd (s : Core) : Core :=
  if s.pf.forSeal then
    { s with
      pf := { s.pf with forSeal := false }
      flt := { s.flt with sealDrain := true } }
  else
    let s := if s.block = .sealed_ then { s with flt := { s.flt with sealDrain := true } } else s
    { s with pf := { s.pf with drainDone := true, drainTb := Nat.min 0xFFFF (s.tb - s.pf.began), restDone := s.pf.restDone || s.pf.rest.isEmpty } }

/-- A write of the drain has been acknowledged: with its port's last guaranteed line the other lines follow, and with the last one of
all the drain ends (08 R271, R272). -/
def Core.drained (w : MWrite) (s : Core) : Core :=
  if s.pf.left.contains w.id then
    let s := { s with pf := { s.pf with left := s.pf.left.filter (fun i => i != w.id) } }
    let more := s.mem.writes.any (fun v => v.port = w.port && v.id != w.id && s.pf.left.contains v.id)
    let s := if more || s.pf.forSeal then s else (s.restStart w.port).issueWrites
    if s.pf.left.isEmpty then s.drainEnd else s
  else if s.pf.rest.contains w.id then
    let rest := s.pf.rest.filter (fun i => i != w.id)
    { s with pf := { s.pf with rest := rest, restDone := s.pf.restDone || (rest.isEmpty && s.pf.left.isEmpty) } }
  else s

/-- What an acknowledged write changes at once: where its data lay, its posted line, and the drain's count. -/
def Core.placed (w : MWrite) (s : Core) : Core := ((s.placeWritten w).postedWritten w).drained w

/-- Whether a Skillet entry needs a write of the drain: it is dirty, and no write that is queued or was issued since its last merge carries its
line (07 R242, 08 R271). -/
def Core.needsDrain (s : Core) (p : Nat) (e : Nat × SklEnt) : Bool :=
  e.2.dirty && !s.mem.writes.any (fun w => decide (w.src = .skillet p e.1) && w.line = e.2.line && (w.tag.isNone || e.2.since.isNone))

/-- Writes that were acknowledged before the drain and only await their persistence acknowledgement are written already (08 R262). -/
def Core.drainAcked (ids : List Nat) (s : Core) : Core :=
  foldS (fun (w : MWrite) s =>
    let ws := updateWhere (fun (v : MWrite) => v.id = w.id)
      (fun v => { v with src := .drained, posted := false, frees := none, waiter := none }) s.mem.writes
    (({ s with mem := { s.mem with writes := ws } }).task (.place w)).task (.written w))
    (s.mem.writes.filter (fun w => ids.contains w.id && w.wack)) s

/-- Fix the drain set and start the drain (08 R271): the DIRTY Skillet entries of SERVING and DRAINING slices are written, and every
guaranteed line is marked. -/
def Core.drainStart (forSeal : Bool) (s : Core) : Core :=
  let s := foldS (fun p s =>
    if s.serves p || (s.slice p).st = .draining then
      foldS (fun (e : Nat × SklEnt) s => if s.needsDrain p e then s.sklWrite p e.1 none else s) (s.slice p).skl s
    else s) (List.range 18) s
  let mine := s.mem.writes.filter s.guaranteed
  let ids := mine.map (fun w => w.id)
  let left := (mine.filter (fun w => !w.wack)).map (fun w => w.id)
  let s := (s.drainMark ids).onPf (fun f => { f with left := left, rest := [], lines := ids.length, began := s.tb, forSeal := forSeal })
  let s := s.drainAcked ids
  let s := if forSeal then s else
    foldS (fun m s => if s.mem.writes.any (fun w => w.port = m && left.contains w.id) then s else s.restStart m) (List.range 4) s
  let s := s.issueWrites
  if left.isEmpty then s.drainEnd else s

/-- A power failure is recognised (08 R270, R271): in every block state except OFF and PILOT; not again while HOLD is 1 (R273). -/
def Core.pfRecognise (s : Core) : Core :=
  if s.block = .off || s.block = .pilot || s.pf.hold then { s with pf := { s.pf with failHigh := false } }
  else
    let sealedNow : Bool := s.block = .sealed_
    let s := { s with pf := { s.pf with seen := true, hold := true, failHigh := false } }
    if sealedNow then s.drainEnd else s.drainStart false

/-- The guaranteed drain is late (08 R272, R275). -/
def Core.pfLate (s : Core) : Core :=
  if s.pf.hold && !s.pf.left.isEmpty then { s with pf := { s.pf with drainLate := true } } else s

end Sys2Proof.Machine
end

