-- ==== Sys2Proof/Machine/Failover.lean ====
section
/-!
DEFINITION. Sys2Proof/Machine/Failover.lean: the seal of a slice and the failover of its logical slice, step by step (11 R379 to R389,
R398).
-/
namespace Sys2Proof.Machine

/-- Domains of a slice: 3p, 3p + 1 with the Sieves, 3p + 2 (01 R49). -/
def Core.sliceDoms (s : Core) (p : Nat) : Bool × Bool × Bool :=
  (s.doms.getLsbD (3 * p), s.doms.getLsbD (3 * p + 1), s.doms.getLsbD (3 * p + 2))

/-- Spares that another failover has taken and not yet put to work. -/
def Core.sparesTaken (s : Core) : List Nat := s.failovers.filterMap (fun f => if f.step < 4 then f.spare else none)

/-- The spare of a failover: the lowest hot one, else the lowest warm one (11 R384). -/
def Core.pickSpare (s : Core) : Option (Nat × Bool) :=
  let free (p : Nat) : Bool := (s.slice p).st = .spare && !s.sparesTaken.contains p
  match (List.range 18).find? (fun p => free p && s.sliceDoms p = (true, true, true)) with
  | some p => some (p, true)
  | none => ((List.range 18).find? (fun p => free p && s.sliceDoms p = (true, false, true))).map (fun p => (p, false))

/-- Whether an item of the berth array or the snoop intake belongs to a logical slice. -/
def Core.ofLogical (s : Core) (l : Nat) (h : BitVec 4) : Bool := logicalOf s.host.trim h = l

/-- Items of a logical slice that wait in the host port for admission by the spare: own-account WB_Ds of this instance, entries whose data is
on its way to memory, and entries whose completion has been released are not admitted again. -/
def Core.itemsOf (s : Core) (l : Nat) : List Nat :=
  ((s.host.berths.filter (fun b => s.ofLogical l b.hash && !b.discard && !b.writing && !b.cmpWait &&
      !(b.own && agentInst b.h.agent = s.self))).map (fun b => b.id)) ++
  ((s.host.intake.filter (fun i => s.ofLogical l i.hash)).map (fun i => i.id))

/-- FO_STAT at the start of a failover (11 R389). -/
def Core.foBegin (l p : Nat) (spare : Option (Nat × Bool)) (s : Core) : Core :=
  let w := s.reg offFoStat
  let n := Nat.min 255 (bits w 39 32 + 1)
  let sp := match spare with
    | some (q, _) => q
    | none => 0x1F
  let hot := match spare with
    | some (_, true) => 1
    | _ => 0
  s.setReg offFoStat (at' 1 0 ||| at' l 1 ||| at' p 5 ||| at' sp 10 ||| at' hot 15 ||| at' n 32)

/-- FO_STAT.SPARE and HOT. -/
def Core.foSpare (q : Nat) (hot : Bool) (s : Core) : Core :=
  s.setReg offFoStat (withBits (withBits (s.reg offFoStat) 14 10 q) 15 15 (if hot then 1 else 0))

/-- A berth entry of a failed slice with its FORWARDED flag and what it keeps of its completion and data (11 R381, R387). -/
def Core.keepEntry (s : Core) (p : Nat) (r : Berth) : Berth :=
  if r.slice != some p || r.posted || r.cmpWait then r
  else match (s.slice p).barges.find? (fun b => b.item = .req r.id) with
    | none => r
    | some b =>
      let gone := b.phase = .forwarded || (b.phase = .granted && s.homeOf b.line != some s.self)
      { r with fwd := gone, cmp := if gone then b.cmp else none, got := gone && b.gotData, gotBad := gone && b.gotPoison }

/-- A berth entry of a failed slice as the spare will replay it: it waits for admission again (11 R387). -/
def Core.replayEntry (s : Core) (p : Nat) (r : Berth) : Berth :=
  if r.slice != some p || r.posted || r.cmpWait then r else { s.keepEntry p r with slice := none }

/-- Internal operations of a failed slice that the spare takes: maintenance by address and the lines of an engine; tidies and prefetches are
dropped. -/
def Slice.keptInternals (x : Slice) : List Internal :=
  let keep (k : InternalKind) : Bool := match k with
    | .tidy | .prefetch => false
    | .maint _ _ | .engineWrite _ _ | .engineRead _ | .sweep _ => true
  (x.barges.filterMap (fun b => match b.item with
    | .internal k => if keep k then some ⟨b.id, k, b.line, b.stamp⟩ else none
    | _ => none)) ++ x.internals.filter (fun i => keep i.kind)

/-- Step 1 of a failover: the items of L stop, its epoch advances, and a spare is chosen (11 R383, R384). What the failed slice's items need
lies in the host port from here on (01 R41, 11 R381). A failover of L that was replaying starts over (11 R389). -/
def Core.failoverStart (l p : Nat) (cmd : Option Nat) (s : Core) : Core :=
  let old := s.failovers.find? (fun f => f.logical = l)
  let cmd := match cmd, old with
    | some c, _ => some c
    | none, some f => f.cmd
    | none, none => none
  let s := { s with failovers := s.failovers.filter (fun f => f.logical != l) }
  let berths := s.host.berths.map (s.keepEntry p)
  let s := s.onHost (fun h => { h with epochs := mset 0 h.epochs l (mget 0 h.epochs l + 1), berths := berths })
  let spare := s.pickSpare
  let f : Failover :=
    { logical := l, failed := p, spare := spare.map (fun q => q.1), hot := (match spare with | some (_, b) => b | none => false), step := 1,
      began := s.tb, held := s.itemsOf l, lost := [],
      kept := (s.slice p).keptInternals, timed := false, cmd := if spare.isSome then cmd else none }
  let s := ({ s with failovers := s.failovers ++ [f] }).foBegin l p spare
  match spare with
  | none =>
    let s := match cmd with
      | some c => { s with up := s.up ++ [Up.failover c none] }
      | none => s
    s.raiseEv ⟨32 * famNoSpare + p, 0, 0, 0, BitVec.ofNat 64 (l + 0x1F * 16), none⟩
  | some (q, false) => { s with up := s.up ++ [Up.wakeSpare q] }
  | some (_, true) => s

/-- SEAL_SLICE: the slice enters SEALED, and the logical slice it serves fails over (11 R379, R380, 12 R419). -/
def Core.sealSlice (p : Nat) (cmd : Option Nat) (s : Core) : Core :=
  let x := s.slice p
  if x.st = .dark || x.st = .sealed_ then s
  else
    let serving := s.serves p || x.st = .draining
    let l := s.logicalServed p
    let s := s.onSlice p (fun x => { x with st := .sealed_, proofServing := false, forFailover := false, tested := false })
    match serving, l with
    | true, some l => s.failoverStart l p cmd
    | _, _ => s

/-- Whether a memory write came from a slice. -/
def Core.writeOf (s : Core) (p : Nat) (w : MWrite) : Bool :=
  match w.src with
  | .skillet q _ | .drip q _ => q = p
  | .berth _ | .reserve => s.physOfLine w.line = p
  | _ => false

/-- Step 2 has ended: every snoop the failed slice released has been answered, with its data, and every memory write it issued has been
acknowledged (11 R383). -/
def Core.settled (s : Core) (p : Nat) : Bool :=
  (s.slice p).barges.all (fun b => b.locals.all (fun n => !n.sent || (n.rsp.isSome && (!n.forwards || n.fwd))) && b.chips.all (fun n => !n.sent || n.rsp.isSome) && !b.awaitD) &&
  !s.mem.writes.any (s.writeOf p)

/-- One line of the dirty-line list is written to memory; a line that fails its check is lost (11 R383). -/
def Core.salvageLine (p : Nat) (bad : List LineAddr) (x : LineAddr) (d : LineData) (q : Bool) (stamp : Stamp) (s : Core) : Core :=
  if bad.contains x then
    let s := (s.queueWrite x lostLine fullMask true .reserve stamp false none none (some (epSkl p))).2
    { s with failovers := updateWhere (fun f => f.failed = p && f.step < 3) (fun f => { f with lost := f.lost ++ [x] }) s.failovers }
  else (s.queueWrite x d fullMask q .reserve stamp false none none (some (epSkl p))).2

/-- Dirty data that a barge of the failed slice holds is written as a WB_D with KEEP 0 would be: to memory at its home, else by a WB_D
to the home (11 R383). -/
def Core.salvageData (p : Nat) (b : Barge) (s : Core) : Core :=
  match b.dirty with
  | some (d, q) =>
    if !s.dirtyHeld p b then s
    else if !s.homesHere b.line then
      let a := match b.locals.find? (fun n => match n.rsp with
          | some (op, _, _) => op = opRspD
          | none => false) with
        | some n => n.loc
        | none => 0
      (s.makeOwnWb b.line (agentId s.self a) false d q b.lost b.dirtyEp).2
    else
      let s := (s.queueWrite b.line d fullMask q .reserve b.stamp false none none (some b.dirtyEp)).2
      if b.lost && q then
        { s with failovers := updateWhere (fun f => f.failed = p && f.step < 3) (fun f => { f with lost := f.lost ++ [b.line] }) s.failovers }
      else s
  | none => s

/-- Steps 2 and 3 end: the failed slice's lines are salvaged, and its warming tray is dropped (11 R383). -/
def Core.settleDone (l : Nat) (bad : List LineAddr) (s : Core) : Core :=
  match s.failovers.find? (fun f => f.logical = l && f.step = 1) with
  | none => s
  | some f =>
    let p := f.failed
    if !s.settled p || s.stopped then s
    else
      let x := s.slice p
      let s := foldS (fun (e : Nat × SklEnt) s => s.salvageLine p bad e.2.line e.2.data e.2.poison e.2.oldest)
        (x.skl.filter (fun e => e.2.dirty)) s
      let s := foldS (fun (e : Nat × Drip) s => s.salvageLine p bad e.2.line e.2.data e.2.poison e.2.oldest) x.drip s
      let s := foldS (Core.salvageData p) x.barges s
      let s := s.onSlice p (fun x => { x with warm := [], drip := [], skl := x.skl.map (fun e => (e.1, { e.2 with dirty := false })) })
      { s with failovers := updateWhere (fun f => f.logical = l) (fun f => { f with step := 3 }) s.failovers }

/-- A slice's own state at a take-over by it: nothing but what its stores and its way remaps hold, with every spill count at 255 (05 R170, 14
R488). -/
def Slice.takenOver (x : Slice) (l : Nat) : Slice :=
  { x with st := .serving, logical := some l, proofServing := false, spillAll := true, forFailover := false, tested := false }

/-- What a failed slice holds after its take-over: its arrays stand, its barges and their order are gone. -/
def Slice.abandoned (x : Slice) : Slice :=
  { x with barges := [], chambers := [], internals := [], simmer := [], miss := none, spill := [] }

/-- Whether a spare may take over now: SPARE with every domain on, or awake for the failover with its tests passed (12 R419). -/
def Core.spareReady (s : Core) (q : Nat) : Bool :=
  let x := s.slice q
  s.sliceDoms q = (true, true, true) && (x.st = .spare || (x.st = .waking && x.forFailover && x.tested))

/-- The spare of a failover as it stands: the one chosen, or the first that service firmware has brought to SPARE since (11 R384). -/
def Core.spareOf (s : Core) (f : Failover) : Option (Nat × Bool) :=
  match f.spare with
  | some q => some (q, f.hot)
  | none => s.pickSpare

/-- The SLICE_FAILOVER command of a failover completes (12 R436). -/
def Core.foDone (f : Failover) (s : Core) : Core :=
  match f.cmd with
  | some c => { s with up := s.up ++ [Up.failover c f.spare] }
  | none => s

/-- A replay has ended: the spare goes to SERVICE mode and FAILOVER is raised (11 R383). -/
def Core.replayEnd (l : Nat) (s : Core) : Core :=
  match s.failovers.find? (fun f => f.logical = l && f.step = 4) with
  | none => s
  | some f =>
    let q := f.spare.getD 0x1F
    let s := { s with failovers := s.failovers.filter (fun g => g.logical != l) }
    let s := { s with up := s.up ++ [Up.mode q 0] }
    let w := s.reg offFoStat
    let w := if f.timed then w else withBits w 31 16 (Nat.min 0xFFFF ((s.tb - f.began) / 100))
    let s := s.setReg offFoStat (withBits w 0 0 (if s.failovers.isEmpty then 0 else 1))
    let s := if f.timed then s else s.foDone f
    s.raiseEv ⟨32 * famFailover + f.failed, 0, 0, 0, BitVec.ofNat 64 (l + q * 16), none⟩

/-- Step 4: the spare is mapped, suspect pages are flagged, open mode and the census start, and replay begins (11 R383). -/
def Core.takeover (l : Nat) (s : Core) : Core :=
  match s.failovers.find? (fun f => f.logical = l && f.step = 3) with
  | none => s
  | some f =>
    match s.spareOf f with
    | none => s
    | some (q, hot) =>
      if !s.spareReady q || s.stopped then s
      else
        let p := f.failed
        let berths := s.host.berths.map (s.replayEntry p)
        let s := s.onEng (fun g => { g with queries := g.queries.filter (fun j => !f.held.contains j.id) })
        let s := s.onHost (fun h => { h with
          remap := mput h.remap l q
          berths := berths
          intake := updateWhere (fun i => i.slice = some p) (fun i => { i with slice := none }) h.intake })
        let flagged := (s.suspects p).map (fun e => { e with flag := true })
        let s := (s.onSuspects p (fun _ => [])).onSuspects q (fun l => l ++ flagged)
        let s := (s.onSlice p Slice.abandoned).onSlice q (fun x => (fun (y : Slice) => { y with internals := f.kept }) (x.takenOver l))
        let s := foldS (fun x s => (s.hsFill q x HomeRec.none).putRecord q x ⟨.poison, 0, .ptrs []⟩) f.lost s
        let s := { s with up := s.up ++ [Up.mode q 3] }
        let s := s.openStart (oneHot 16 l)
        let wbs := s.host.berths.filter (fun b => b.own && agentInst b.h.agent = s.self && !b.writing && s.homesHere b.h.line && s.ofLogical l b.hash)
        let s := foldS (fun (b : Berth) s => s.task (.wbArrive q b.id)) wbs s
        let left := s.itemsOf l
        let held := f.held.filter (fun i => left.contains i)
        let put (g : Failover) : Failover := { g with step := 4, spare := some q, hot := hot, held := held, timed := false }
        let s := { s with failovers := updateWhere (fun g => g.logical = l) put s.failovers }
        let s := s.foSpare q hot
        if held.isEmpty then s.task (.replayEnd l) else s

/-- The seal of a slice has ended its outputs: whether its clocks have stopped (11 R398): once step 3 has ended. -/
def Core.sealedStopped (s : Core) (p : Nat) : Bool := (s.slice p).st = .sealed_ && !s.failovers.any (fun f => f.failed = p && f.step < 3)

end Sys2Proof.Machine
end

