-- ==== Sys2Proof/Machine/Freeze.lean ====
section
/-!
DEFINITION. Sys2Proof/Machine/Freeze.lean: dead agents and the domain freeze: declaration, the freeze messages, the resolution of work
that involves a dead agent, and the thaw (06 R200, 11 R390 to R397).
-/
namespace Sys2Proof.Machine

/-- Tombstones of an instance (11 R397). -/
def Core.tombs (s : Core) (i : BitVec 6) : BitVec 64 := mget 0 s.host.tomb i.toNat

/-- Whether a freeze is in progress here. -/
def Core.freezing (s : Core) : Bool := s.frz.st != 0

/-- Whether the block takes part in freezes: its charter is locked and it is not SEALED (11 R394). -/
def Core.takesPart (s : Core) : Bool := s.block = .chartered || s.block = .service || s.block = .frozen

/-- Members that are not silent. -/
def Core.liveMembers (s : Core) : List (BitVec 6) := s.members.filter (fun i => !s.silent i)

/-! Resolution (11 R395). -/

/-- Whether a dead local agent counts as the owner of its line's entry: the owner of an X entry, or an agent of an UNKNOWN one. -/
def Core.deadOwner (s : Core) (p : Nat) (x : LineAddr) (l : BitVec 6) : Bool :=
  match s.lsPeek p x with
  | some e => (e.st = LocSt.x && e.owner = l) || (e.st = LocSt.unknown && e.v.getLsbD l.toNat)
  | none => false

/-- Answer for a local snoop of a barge whose agent is dead, and for one that announced data that has not come (11 R395). An agent that answered
that it forwards data counts as unanswered until the data is there (DEDUCED, log entry 79). -/
def Core.resolveLocal (p id : Nat) (n : LSnoop) (s : Core) : Core :=
  match s.barge? p id with
  | none => s
  | some b =>
    if !n.sent || !s.tombed (agentId s.self n.loc) then s
    else
      let put (r : BitVec 8 × BitVec 3 × Bool) (b : Barge) : Barge :=
        { b with locals := updateWhere (fun m => m.loc = n.loc && m.op = n.op) (fun m => { m with rsp := some r }) b.locals }
      let lostData (b : Barge) : Barge := { b with dirty := some (lostLine, true), lost := true, awaitD := false }
      let silent (s : Core) : Core :=
        if s.deadOwner p b.line n.loc then s.onBarge p id (fun b => lostData (put (opRspD, stI, false) b))
        else s.onBarge p id (put (opRspAbsent, stI, false))
      match n.rsp with
      | none => silent s
      | some (op, _, _) =>
        if n.forwards && !n.fwd then
          (if op = opRspD && !b.awaitD then s.onBarge p id (put (opRspD, stI, false)) else silent s)
        else if op = opRspD && b.awaitD then s.onBarge p id lostData else s

/-- Answer for a snoop of the home to an instance that is silent. -/
def Core.resolveChip (p id : Nat) (n : CSnoop) (s : Core) : Core :=
  match s.barge? p id with
  | none => s
  | some b =>
    if !n.sent || !s.silent n.chip || n.chip = s.self then s
    else
      let x : Bool := match b.rcd with
        | some r => decide (r.st = .x) && decide (r.owner = n.chip)
        | none => false
      let put (r : BitVec 8 × BitVec 3 × Bool) (b : Barge) : Barge :=
        { b with chips := updateWhere (fun m => m.chip = n.chip) (fun m => { m with rsp := some r }) b.chips }
      let lostData (b : Barge) : Barge := { b with dirty := some (lostLine, true), lost := true, awaitD := false }
      match n.rsp with
      | none =>
        if x then s.onBarge p id (fun b => lostData (put (opRspD, stI, false) b)) else s.onBarge p id (put (opRspAbsent, stI, false))
      | some (op, _, _) => if op = opRspD && b.awaitD then s.onBarge p id lostData else s

/-- A WB_D that a silent instance announced and that has not come: its data is lost-line data. -/
def Core.resolveWbx (p id : Nat) (s : Core) : Core :=
  match s.barge? p id with
  | none => s
  | some b =>
    if b.awaitWb.any s.silent then
      s.onBarge p id (fun b => { b with
        awaitWb := b.awaitWb.filter (fun c => !s.silent c)
        dirty := some (lostLine, true)
        lost := true })
    else s

/-- Resolve one barge. -/
def Core.resolveBarge (p : Nat) (b : Barge) (s : Core) : Core :=
  let s := foldS (Core.resolveLocal p b.id) b.locals s
  let s := foldS (Core.resolveChip p b.id) b.chips s
  (s.resolveWbx p b.id).task (.advance p b.id)

/-- The barge of an entry goes on. -/
def Core.advanceOf (p id : Nat) (s : Core) : Core :=
  match (s.slice p).barges.find? (fun b => b.item = .req id) with
  | some b => s.task (.advance p b.id)
  | none => s

/-- A berth entry of a dead agent: a WB_D or WR_FULL without all its data takes lost-line data, a WR_PART or ATOM without its data
none, and an entry not yet admitted is removed, but for a WB_D. -/
def Core.resolveBerth (r : Berth) (s : Core) : Core :=
  if !s.tombed r.h.agent || r.posted || r.cmpWait then s
  else if r.discard then s.freeBerth r.id
  else if r.op = opWbD then
    if r.full then s else s.berthData r.id (Beats.line lostLine) true true
  else match r.slice with
    | none => if r.fwd then s else s.freeBerth r.id
    | some p =>
      if r.full then s
      else if r.op = opWrFull then
        (s.onBerth r.id (fun b => { b with lostWr := true })).berthData r.id (Beats.line lostLine) true true
      else (s.onBerth r.id (fun b => { b with full := true })).advanceOf p r.id

/-- Messages that wait for a dead agent: DAT_M goes to the home as a WB_D, the others are discarded; an entry that only waits for its
completion's delivery ends (01 R45). -/
def Core.resolveQueues (s : Core) : Core :=
  let dead (m : Msg) : Bool := s.tombed m.h.agent
  let wait := s.wharf.xfers.filterMap (fun x => match x.act with
    | .fabric _ m => if dead m then some (x.src, m) else none
    | _ => none)
  let datq := s.fab.flatMap (fun e => (e.2.datQ.filter dead).map (fun m => (e.1, m)))
  let cmpq := s.fab.flatMap (fun e => e.2.cmpQ.filter dead)
  let s := { s with wharf := { s.wharf with xfers := s.wharf.xfers.filter (fun x => match x.act with
    | .fabric _ m => !dead m
    | _ => true) } }
  let s := foldS (fun f s => s.onFab f (fun q => { q with
      datQ := q.datQ.filter (fun m => !dead m)
      cmpQ := q.cmpQ.filter (fun m => !dead m) })) (List.range 4) s
  foldS (fun (e : Nat × Msg) => Core.deadData e.1 e.2) (wait ++ datq) (foldS Core.cmpLeft cmpq s)

/-- WB_Ds that a dead local agent announced and that have not come: lost-line data goes to the home in their place (11 R395). -/
def Core.resolveComing (s : Core) : Core :=
  let gone := s.host.wbComing.filter (fun e => s.tombed e.1)
  let s := s.onHost (fun h => { h with wbComing := h.wbComing.filter (fun e => !s.tombed e.1) })
  foldS (fun (e : AgentId × LineAddr) s => (s.makeOwnWb e.2 e.1 false lostLine true true (epSkl (s.physOfLine e.2))).2) gone s

/-- Early request data of a dead local agent is discarded and its credit returned. -/
def Core.resolveEarly (s : Core) : Core :=
  let gone := s.host.early.filter (fun e => s.tombed (agentId s.self e.loc))
  let s := s.onHost (fun h => { h with early := h.early.filter (fun e => !s.tombed (agentId s.self e.loc)) })
  foldS (fun (e : EarlyData) s => s.returnDat (.fabric e.port) { Hdr.zero with agent := agentId s.self e.loc, credit := e.credit } e.op) gone s

/-- Interrogations, settles and censuses that wait for a silent instance are answered for, and data that it announced for a settle is lost-line
data; its own censuses end. -/
def Core.resolveEngines (s : Core) : Core :=
  let s := s.onEng (fun g => { g with
    snpqOut := g.snpqOut.filter (fun e => !s.silent e.1)
    censuses := g.censuses.filter (fun c => !s.silent c.chip)
    censusEnds := if g.censusRun then g.censusEnds ++ (s.members.filter (fun i => s.silent i && !g.censusEnds.contains i)) else g.censusEnds })
  let s := foldS (fun (j : LJob) s =>
    let miss := j.asked.filter (fun i => s.silent i && !j.answers.any (fun a => a.chip = i))
    let s := s.onPage j.page (fun j => { j with
      answers := if j.phase = .asking then j.answers ++ miss.map (fun i => ⟨i, 0, 0⟩) else j.answers
      settles := updateWhere (fun e => e.sent && e.rsp.isNone && s.silent e.chip) (fun e => { e with rsp := some (opRspAbsent, stI) }) j.settles })
    let s := foldS (fun (e : Settle) s =>
      let x := s.recLine j.page e.idx.toNat
      let owed : Bool := match e.rsp with
        | some (op, _) => (op = opRspD && !e.data) || (op = opRspWbx && !j.wbs.contains (e.idx, e.chip))
        | none => false
      if s.silent e.chip && owed then
        let wbx : Bool := match e.rsp with
          | some (op, _) => op = opRspWbx
          | none => false
        ((s.queueWrite x lostLine fullMask true .reserve s.arrival false none none (some (epSkl (s.physOfLine x)))).2).pageData e.chip x true wbx
      else s) j.settles s
    (s.answersCheck j.page).settleCheckPage j.page) s.eng.larder s
  s.task .censusCheck

/-- Items of failovers that have gone. -/
def Core.heldRefresh (s : Core) : Core :=
  foldS (fun (f : Failover) s =>
    let here (i : Nat) : Bool := s.host.berths.any (fun b => b.id = i) || s.host.intake.any (fun k => k.id = i)
    let held := f.held.filter here
    let s := { s with failovers := updateWhere (fun g => g.logical = f.logical) (fun g => { g with held := held }) s.failovers }
    if f.step = 4 && held.isEmpty then s.task (.replayEnd f.logical) else s) s.failovers s

/-- Resolve every barge, snoop, entry and message that involves a dead agent (11 R395). -/
def Core.resolve (s : Core) : Core :=
  let s := foldS (fun p s => foldS (Core.resolveBarge p) (s.slice p).barges s) (List.range 18) s
  let s := foldS Core.resolveBerth s.host.berths s
  let s := ((s.resolveQueues).resolveComing.resolveEarly).resolveEngines
  let far := s.host.far.filter (fun e => !s.tombed (BitVec.ofNat 12 e.1))
  (s.onHost (fun h => { h with far := far })).heldRefresh

/-! The freeze messages (11 R392). -/

def opFrzPing : BitVec 8 := 0xD0
def opFrzPong : BitVec 8 := 0xD1
def opFrzStart : BitVec 8 := 0xD2
def opFrzDead : BitVec 8 := 0xD3
def opFrzReady : BitVec 8 := 0xD4
def opFrzThaw : BitVec 8 := 0xD5

/-- A freeze message to another instance. -/
def Core.sendFrz (op : BitVec 8) (i : BitVec 6) (h : Hdr) (s : Core) : Core :=
  s.sendChip ⟨op, { h with srci := s.self, dsti := i }, none⟩

/-- Header of FRZ_START and FRZ_DEAD. -/
def frzHdr (number : BitVec 8) (inst : BitVec 6) (mask : BitVec 64) (cause : Nat) : Hdr :=
  { Hdr.zero with
    tag := number.setWidth 10
    peer := agentId inst 0
    param := mask.extractLsb' 48 16
    line := mask.extractLsb' 0 48
    hint := BitVec.ofNat 4 cause }

/-- The 64-bit mask {PARAM, LINE}. -/
def frzMask (h : Hdr) : BitVec 64 := h.param ++ h.line

/-- The view: the CRC-64 over the 4,096 tombstone bits, bit 0 first (11 R394). -/
def Core.view (s : Core) : BitVec 64 :=
  crc64 ((List.range 64).flatMap (fun i => bitsUp (mget 0 s.host.tomb i).toNat 64)) 0

/-- The coordinator: the lowest initiator that is not silent, else the lowest live instance (11 R393, R394). -/
def Core.coordNow (s : Core) : BitVec 6 :=
  match s.frz.initiators.filter (fun i => !s.silent i) with
  | i :: l => l.foldl (fun a c => if c < a then c else a) i
  | [] => match s.liveMembers with
    | i :: l => l.foldl (fun a c => if c < a then c else a) i
    | [] => s.self

/-- Record a view at the coordinator. -/
def Core.putView (i : BitVec 6) (v : BitVec 64) (outside : Bool) (s : Core) : Core :=
  { s with frz := { s.frz with views := s.frz.views.filter (fun r => r.inst != i) ++ [⟨i, v, outside⟩] } }

/-- Send FRZ_READY with this instance's view to the coordinator, itself included (11 R394). -/
def Core.sendReady (s : Core) : Core :=
  let c := s.frz.coord
  let v := s.view
  let s := { s with frz := { s.frz with ready := true } }
  if c = s.self then s.putView c v false
  else s.sendFrz opFrzReady c { (frzHdr s.frz.number 0 v 0) with peer := 0 }

/-- Stamps advanced by the frozen interval (06 R200). -/
def Core.rebase (s : Core) : Core :=
  match s.host.freezeTick with
  | none => s
  | some t0 =>
    let d : Stamp := s.host.tick - t0
    let s := s.onHost (fun h => { h with
      freezeTick := none
      berths := h.berths.map (fun b => { b with stamp := b.stamp + d })
      intake := h.intake.map (fun i => { i with stamp := i.stamp + d }) })
    let slice (x : Slice) : Slice := { x with
      barges := x.barges.map (fun b => { b with stamp := b.stamp + d })
      internals := x.internals.map (fun i => { i with stamp := i.stamp + d })
      skl := x.skl.map (fun e => (e.1, { e.2 with oldest := e.2.oldest + d, since := e.2.since.map (fun t => t + d) }))
      drip := x.drip.map (fun e => (e.1, { e.2 with oldest := e.2.oldest + d })) }
    let s := foldS (fun p s => s.onSlice p slice) (List.range 18) s
    { s with
      wharf := { s.wharf with xfers := s.wharf.xfers.map (fun x => { x with stamp := x.stamp + d }) }
      mem := { s.mem with writes := s.mem.writes.map (fun w => { w with stamp := w.stamp + d }) } }

/-- The thaw: the stamps are rebased and a FROZEN block returns to SERVICE (11 R394). -/
def Core.thaw (s : Core) : Core :=
  let s := s.rebase
  let us := Nat.min 0xFFFF ((s.tb - s.frz.began) / 100)
  { s with
    block := if s.block = .frozen then .service else s.block
    frz := { s.frz with
      st := 0
      lastUs := us
      count := Nat.min 255 (s.frz.count + 1)
      initiators := []
      views := []
      ready := false } }

/-- The coordinator compares the views it holds: it sends FRZ_THAW once an equal view has come from every live instance that takes part,
and FRZ_DEAD with its dead sets when two differ (11 R394). Answers whether the freeze must be resolved again here. -/
def Core.compareViews (s : Core) : Core :=
  if !s.freezing || s.frz.coord != s.self || !s.frz.ready then s
  else
    let outside := (s.frz.views.filter (fun r => r.outside)).map (fun r => r.inst)
    let want := s.liveMembers.filter (fun i => !outside.contains i)
    let got := s.frz.views.filter (fun r => !r.outside && want.contains r.inst)
    match got with
    | [] => s
    | r :: l =>
      if l.any (fun q => q.view != r.view) then
        let s := { s with frz := { s.frz with views := s.frz.views.filter (fun r => r.outside), ready := false } }
        Core.resolve <| foldS (fun k s =>
          let m := mget 0 s.host.tomb k
          if m = 0 then s
          else foldS (fun i s => if i = s.self then s
            else s.sendFrz opFrzDead i (frzHdr s.frz.number (BitVec.ofNat 6 k) m 0)) want s) (List.range 64) s
      else if want.all (fun i => got.any (fun q => q.inst = i)) then
        let h := frzHdr s.frz.number 0 0 0
        (foldS (fun i s => if i = s.self then s else s.sendFrz opFrzThaw i h) want s).thaw
      else s

/-- Set tombstones of an instance; presence of local agents clears (11 R394). -/
def Core.tombSet (i : BitVec 6) (mask : BitVec 64) (s : Core) : Core :=
  s.onHost (fun h => { h with
    tomb := mset 0 h.tomb i.toNat (mget 0 h.tomb i.toNat ||| mask)
    present := if i = s.self then h.present &&& ~~~mask else h.present })

/-- FRZ_START or FRZ_DEAD arrives, or is this instance's own (11 R393, R394). -/
def Core.takeFrzStart (start : Bool) (from_ : BitVec 6) (h : Hdr) (s : Core) : Core :=
  let n : BitVec 8 := h.tag.extractLsb' 0 8
  if s.block = .standby then
    if from_ = s.self then s else s.sendFrz opFrzReady from_ { (frzHdr n 0 0 0) with hint := 1, peer := 0 }
  else if !s.takesPart then s
  else
    let fresh := !s.freezing
    let s := if fresh then
        { s with
          frz := { s.frz with
            st := 1, number := n, began := s.tb, initiators := [from_], views := [], ready := false, late := false,
            coord := from_ }
          block := if s.block = .service then .frozen else s.block
          host := { s.host with freezeTick := some s.host.tick } }
      else if start && !s.frz.initiators.contains from_ then
        { s with frz := { s.frz with initiators := s.frz.initiators ++ [from_] } }
      else s
    let i := agentInst h.peer
    let mask := frzMask h
    let s := s.tombSet i mask
    let was := s.frz.coord
    let c := if start || s.silent was then s.coordNow else was
    let s := { s with frz := { s.frz with coord := c } }
    let again := fresh || !start || mask &&& ~~~(s.tombs i) != 0
    let s := if again || !s.frz.ready then
        { s with
          frz := { s.frz with st := 2, ready := false, views := s.frz.views.filter (fun r => r.outside) }
          up := s.up ++ ((List.range 18).filter (fun p => s.serves p)).flatMap (fun p => [Up.mode p 3, Up.mode p 0]) }
      else if c != was then s.sendReady
      else s
    s.resolve

/-- Start a freeze for agents of some instances, or add them to the one in progress (11 R393): agents already tombstoned are left out
(11 R365). -/
def Core.freezeStart (cause : Nat) (l : List (BitVec 6 × BitVec 64)) (s : Core) : Core :=
  if !s.takesPart then s
  else
    let l := (l.map (fun e => (e.1, e.2 &&& ~~~(s.tombs e.1)))).filter (fun e => e.2 != 0)
    if l.isEmpty then s
    else
      let start := !s.freezing
      let n := if start then s.frz.number + 1 else s.frz.number
      foldS (fun (e : BitVec 6 × BitVec 64) s =>
        let h := frzHdr n e.1 e.2 cause
        let s := foldS (fun i s => if i = s.self then s else s.sendFrz (if start then opFrzStart else opFrzDead) i h) s.members s
        s.takeFrzStart start s.self h) l s

/-- Declare agents of an instance dead (11 R390): AGENT_DEAD by the fabric port of a local agent, INST_SILENT for the cause SILENT. What
follows is the event's severity (11 R364). -/
def Core.declare (cause : Nat) (i : BitVec 6) (mask : BitVec 64) (s : Core) : Core :=
  let mask := mask &&& ~~~(s.tombs i)
  if mask = 0 then s
  else
    let ev (src : Nat) (m : BitVec 64) : FltEvent :=
      ⟨src, 0, (match agentsOf m with
        | [l] => agentId i l
        | _ => 0), BitVec.ofNat 24 (cause + i.toNat * 16), m, some (i, m)⟩
    if cause = 5 then s.raiseEv (ev (32 * famInstSilent) mask)
    else if i = s.self then
      foldS (fun f s =>
        let m := (agentsOf mask).foldl (fun (v : BitVec 64) l => if s.fport l = f then setBit v l.toNat else v) 0
        if m = 0 then s else s.raiseEv (ev (32 * famAgentDead + unitFab f) m)) (List.range 4) s
    else s.raiseEv (ev (32 * famAgentDead) mask)

/-! Timers and answers (11 R390, R392, R394). -/

/-- Whether a snoop to a local agent is unanswered. -/
def Core.agentOwes (s : Core) (l : BitVec 6) : Bool :=
  s.slices.any (fun e => e.2.barges.any (fun b => b.locals.any (fun n => n.loc = l && n.sent &&
    (openSnoop b n || (n.forwards && !n.fwd)))))

/-- Whether a snoop, a query or a freeze message to an instance is unanswered. -/
def Core.instOwes (s : Core) (i : BitVec 6) : Bool :=
  s.slices.any (fun e => e.2.barges.any (fun b => b.chips.any (fun n => n.chip = i && n.sent &&
    (n.rsp.isNone || (b.awaitD && (match n.rsp with
      | some (op, _, _) => op = opRspD
      | none => false)))))) ||
  s.eng.larder.any (fun j => (j.phase = .asking && j.asked.contains i && !j.answers.any (fun a => a.chip = i)) ||
    j.settles.any (fun e => e.chip = i && e.sent && (match e.rsp with
      | none => true
      | some (op, _) => op = opRspD && !e.data))) ||
  (s.freezing && s.frz.coord = s.self && s.frz.ready && s.members.contains i && !s.frz.views.any (fun r => r.inst = i))

/-- Drive a ping to a local agent: its level toggles (18 R581). -/
def Core.pingAgent (l : BitVec 6) (s : Core) : Core :=
  let v := !s.host.ping.getLsbD l.toNat
  ({ (s.onHost (fun h => { h with ping := putBit h.ping l.toNat v })) with
      frz := { s.frz with agentPings := s.frz.agentPings ++ [(l, false)] } }).emit (.ping l v)

/-- Send FRZ_PING to an instance. -/
def Core.pingInst (i : BitVec 6) (s : Core) : Core :=
  let n := s.frz.pingNo + 1
  let s := { s with frz := { s.frz with pingNo := n, instPings := s.frz.instPings.filter (fun k => k != i) ++ [i] } }
  s.sendFrz opFrzPing i { Hdr.zero with tag := n.setWidth 10 }

/-- A snoop is unanswered for SNOOP_TO_US: the responder is pinged, or is STUCK when it answered a ping before (11 R390). -/
def Core.snoopTimeout (t : Target) (s : Core) : Core :=
  match t with
  | .agent l =>
    if !s.agentOwes l then s
    else match s.frz.agentPings.find? (fun e => e.1 = l) with
      | none => s.pingAgent l
      | some (_, true) => s.declare 3 s.self (oneHot 64 l.toNat)
      | some (_, false) => s
  | .chip i => if s.instOwes i && !s.frz.instPings.contains i && !s.silent i then s.pingInst i else s

/-- A ping is unanswered for PING_US (11 R390). -/
def Core.pingTimeout (t : Target) (s : Core) : Core :=
  match t with
  | .agent l =>
    if s.frz.agentPings.contains (l, false) then
      ({ s with frz := { s.frz with agentPings := s.frz.agentPings.filter (fun e => e.1 != l) } }).declare 2 s.self (oneHot 64 l.toNat)
    else s
  | .chip i =>
    if s.frz.instPings.contains i then
      ({ s with frz := { s.frz with instPings := s.frz.instPings.filter (fun k => k != i) } }).declare 5 i (BitVec.allOnes 64)
    else s

/-- A sideband answer to a ping. -/
def Core.pingAnswer (l : BitVec 6) (s : Core) : Core :=
  { s with frz := { s.frz with agentPings := updateWhere (fun e => e.1 = l) (fun e => (e.1, true)) s.frz.agentPings } }

/-- A present local agent's heartbeat has stopped (11 R390); with HB_TO_US 0 it is not checked. -/
def Core.heartbeatLost (l : BitVec 6) (s : Core) : Core :=
  if bits (s.reg 0x20600) 23 16 != 0 && s.host.present.getLsbD l.toNat && s.defined l then s.declare 1 s.self (oneHot 64 l.toNat) else s

/-- A presence bit changes (01 R31, 11 R391, R390). -/
def Core.presenceChange (l : BitVec 6) (up : Bool) (s : Core) : Core :=
  let a := agentId s.self l
  let busy := s.agentOwes l || s.host.berths.any (fun b => b.h.agent = a && !b.own && !b.posted)
  let s' := s.onHost (fun h => { h with present := putBit h.present l.toNat up })
  if !up && s.host.present.getLsbD l.toNat && busy then s'.declare 4 s.self (oneHot 64 l.toNat) else s'

/-- FRZ_PING is answered, in every block state but OFF, PILOT and SEALED (11 R392). -/
def Core.takeFrzPing (from_ : BitVec 6) (h : Hdr) (s : Core) : Core :=
  if s.block = .off || s.block = .pilot || s.stopped then s else s.sendFrz opFrzPong from_ { Hdr.zero with tag := h.tag }

/-- FRZ_PONG answers this instance's ping. -/
def Core.takeFrzPong (from_ : BitVec 6) (s : Core) : Core :=
  { s with frz := { s.frz with instPings := s.frz.instPings.filter (fun k => k != from_) } }

/-- The quiet period has ended: FRZ_READY goes to the coordinator (11 R394). -/
def Core.quietEnd (s : Core) : Core :=
  if s.frz.st = 2 && !s.frz.ready && !s.stopped then s.sendReady.compareViews else s

/-- FRZ_READY reaches this instance. -/
def Core.takeFrzReady (from_ : BitVec 6) (h : Hdr) (s : Core) : Core :=
  if s.freezing && h.tag.extractLsb' 0 8 = s.frz.number then (s.putView from_ (frzMask h) (h.hint.getLsbD 0)).compareViews else s

/-- FRZ_THAW with the present number (11 R394). -/
def Core.takeFrzThaw (h : Hdr) (s : Core) : Core :=
  if s.freezing && h.tag.extractLsb' 0 8 = s.frz.number then s.thaw else s

/-- No FRZ_THAW 400 µs after FRZ_READY: the coordinator is pinged (11 R394). -/
def Core.thawWait (s : Core) : Core :=
  if s.frz.st = 2 && s.frz.ready && s.frz.coord != s.self && !s.frz.instPings.contains s.frz.coord && !s.stopped then s.pingInst s.frz.coord else s

/-- A freeze has lasted longer than 1 ms (11 R397). -/
def Core.freezeLate (s : Core) : Core :=
  if s.freezing && !s.frz.late then ({ s with frz := { s.frz with late := true } }).raise famFreezeLate 0 else s

end Sys2Proof.Machine
end

