-- ==== Sys2Proof/Machine/Faults.lean ====
section
/-!
DEFINITION. Sys2Proof/Machine/Faults.lean: what an error event's severity does: interrupt sources, pins, escalation slots and actions;
escalation, the error log ring, the pins, and the seals of ports and of the block (11 R358, R363 to R373, R399, R400).
-/
namespace Sys2Proof.Machine

/-- IRQ_FLT: the interrupt sources FLT_NOTIFY and FLT_URGENT as service firmware has not yet cleared them (11 R363, 13 R455). -/
def offIrqFlt : Nat := 0x10E00

/-! Seals (11 R399, R400). -/

/-- Seal a Culvert port: the port itself goes down with REASON LOST. -/
def Core.sealCul (n : Nat) (s : Core) : Core :=
  if s.flt.sealCul.getLsbD n then s
  else { s with flt := { s.flt with sealCul := setBit s.flt.sealCul n }, up := s.up ++ [Up.culSeal n] }

/-- Seal a fabric port: its agents are dead with cause PORT. -/
def Core.sealFab (f : Nat) (s : Core) : Core :=
  if s.flt.sealFab.getLsbD f then s
  else
    let s := { s with flt := { s.flt with sealFab := setBit s.flt.sealFab f } }
    let m := (List.range 64).foldl (fun (v : BitVec 64) l =>
      if s.defined (BitVec.ofNat 6 l) && s.fport (BitVec.ofNat 6 l) = f then setBit v l else v) 0
    s.declare 6 s.self m

/-- Seal a memory port: outstanding reads end as poisoned zeros, and writes are discarded. -/
def Core.sealMem (m : Nat) (s : Core) : Core :=
  if s.flt.sealMem.getLsbD m then s
  else
    let s := { s with flt := { s.flt with sealMem := setBit s.flt.sealMem m } }
    let rs := s.mem.reads.filter (fun r => r.port = m)
    let ws := s.mem.writes.filter (fun w => w.port = m)
    let s := { s with mem := { reads := s.mem.reads.filter (fun r => r.port != m), writes := s.mem.writes.filter (fun w => w.port != m) } }
    let s := foldS (fun (r : MRead) s => s.giveRead r.use 0 true 0xFF) rs s
    foldS (fun (w : MWrite) s => if w.wack && w.src = .drained then s else (s.task (.place w)).task (.written w)) ws s

/-- SEAL_BLOCK: the block enters SEALED, its guaranteed drain runs, its Culvert ports say PORT_DOWN, and both error pins stay asserted (11
R373, R400). -/
def Core.sealBlock (s : Core) : Core :=
  if s.block = .sealed_ || s.block = .off || s.block = .pilot then s
  else
    let pin (p : ErrPin) : ErrPin := { p with asserted := true }
    let s := { s with
      block := .sealed_
      up := s.up ++ [Up.blockSealed]
      flt := { s.flt with pin0 := pin s.flt.pin0, pin1 := pin s.flt.pin1 } }
    if s.pf.hold then (if s.pf.left.isEmpty then { s with flt := { s.flt with sealDrain := true } } else s)
    else s.drainStart true

/-! Pins (11 R373). -/

/-- An event reaches a pin: its pulse starts, or starts again; a RELEASE written before still waits for the pulse's end. -/
def ErrPin.fire (p : ErrPin) : ErrPin := ⟨true, true, p.release⟩

/-- The pins of a severity. -/
def Core.firePins (sev : Nat) (s : Core) : Core :=
  { s with flt := { s.flt with
    pin0 := if 3 ≤ sev then s.flt.pin0.fire else s.flt.pin0
    pin1 := if 4 ≤ sev then s.flt.pin1.fire else s.flt.pin1 } }

/-- The end of a pulse: the pin is released unless it is held, or at once by a RELEASE written during it; a SEALED block holds both. -/
def Core.pulseEnd (k : Fin 2) (s : Core) : Core :=
  let p := if k = 0 then s.flt.pin0 else s.flt.pin1
  if !p.pulse then s
  else
    let hold := bit (s.reg 0x20440) (16 + k.val)
    let q : ErrPin := ⟨s.block = .sealed_ || (hold && !p.release), false, false⟩
    if k = 0 then { s with flt := { s.flt with pin0 := q } } else { s with flt := { s.flt with pin1 := q } }

/-- RELEASE written for a pin: at once, or at the end of a running pulse. -/
def Core.pinRelease (k : Fin 2) (s : Core) : Core :=
  let rel (p : ErrPin) : ErrPin :=
    if p.pulse then { p with release := true } else { p with asserted := s.block = .sealed_, release := false }
  if k = 0 then { s with flt := { s.flt with pin0 := rel s.flt.pin0 } } else { s with flt := { s.flt with pin1 := rel s.flt.pin1 } }

/-! Actions and escalation (11 R363 to R368). -/

/-- FLT_CTL.ESC_US as it acts, in tb. -/
def Core.escTb (s : Core) : Nat := Nat.min 100000 (Nat.max 1 (bits (s.reg 0x20400) 16 0)) * 100

/-- The action of a severity on the unit of a source. -/
def Core.act (sev src : Nat) (cause : Nat) (agents : List (BitVec 6 × BitVec 64)) (s : Core) : Core :=
  let i := src % 32
  if sev = 4 then s.sealSlice i none
  else if sev = 5 then
    (if i < 24 then s.sealCul (i - 18) else if i < 28 then s.sealFab (i - 24) else s.sealMem (i - 28))
  else if sev = 6 then s.freezeStart cause agents
  else if sev = 7 then s.sealBlock
  else s

/-- The agents of a slot with those of one more event. -/
def addAgents (l : List (BitVec 6 × BitVec 64)) (i : BitVec 6) (m : BitVec 64) : List (BitVec 6 × BitVec 64) :=
  if l.any (fun e => e.1 = i) then updateWhere (fun e => e.1 = i) (fun e => (e.1, e.2 ||| m)) l else l ++ [(i, m)]

/-- An escalation slot of an event at URGENT or above (11 R366, R368). -/
def Core.escalate (e : FltEvent) (sev : Nat) (s : Core) : Core :=
  let cause := e.xdata.toNat % 16
  let add (l : List (BitVec 6 × BitVec 64)) : List (BitVec 6 × BitVec 64) := match e.agents with
    | some (i, m) => addAgents l i m
    | none => l
  let held := (List.range 16).find? (fun k => match mget none s.flt.slots k with
    | some x => x.src = e.src
    | none => false)
  let put (k : Nat) (x : EscSlot) (s : Core) : Core := { s with flt := { s.flt with slots := mset none s.flt.slots k (some x) } }
  match held with
  | some k =>
    match mget none s.flt.slots k with
    | some x =>
      let x := { x with agents := add x.agents, cause := cause }
      put k (if x.sev < sev then { x with sev := sev, stopped := false, expiry := s.tb + s.escTb } else x) s
    | none => s
  | none =>
    match (List.range 16).find? (fun k => (mget none s.flt.slots k).isNone) with
    | some k => put k ⟨e.src, sev, false, s.tb + s.escTb, add [], cause⟩ s
    | none => { s with flt := { s.flt with escFull := true } }

/-- Everything an event does beyond its log entry, in the cycle of its report (11 R363, R365, R372). -/
def Core.handle (e : FltEvent) (s : Core) : Core :=
  let sev := s.severityOf e.src
  let s := if sev ≤ 1 then s
    else s.setReg offIrqFlt (s.reg offIrqFlt ||| (if sev = 2 then 1 else 3))
  if sev ≤ 2 then s
  else
    let s := (s.firePins sev).escalate e sev
    s.act sev e.src (e.xdata.toNat % 16) (match e.agents with
      | some a => [a]
      | none => [])

/-- The severities that escalation passes for a unit (11 R367). -/
def escPath (u : UnitKind) : List Nat :=
  match u with
  | .slice => [3, 4, 7]
  | .culvert | .fabric | .memory => [3, 5, 7]
  | .agent => [3, 6, 7]
  | .none => [3, 7]

/-- Log an entry that the collector makes itself: it takes its number now (11 R370, R371). -/
def Core.makeEntry (src sev kind repeats : Nat) (xdata : BitVec 24) (data : BitVec 64) (s : Core) : Core :=
  let e := mkEntry s.flt.seq s.tb src sev kind repeats xdata 0 0 data
  { s with flt := { s.flt with seq := s.flt.seq + 1, made := s.flt.made ++ [e] } }

/-- The timer of an escalation slot ends (11 R367, R368). -/
def Core.escExpiry (k : Nat) (s : Core) : Core :=
  match mget none s.flt.slots k with
  | none => s
  | some x =>
    if x.stopped then s
    else
      let unit := unitOf (x.src / 32) (x.src % 32)
      let put (y : EscSlot) (s : Core) : Core := { s with flt := { s.flt with slots := mset none s.flt.slots k (some y) } }
      match (escPath unit).find? (fun v => decide (x.sev < v)) with
      | none => put { x with stopped := true } s
      | some v =>
        if bits (s.reg 0x20400) 19 17 < v then put { x with stopped := true } s
        else
          let s := put { x with sev := v, expiry := s.tb + s.escTb } s
          let s := if unit = .agent && !x.agents.isEmpty then
              foldS (fun i s => match x.agents.find? (fun e => e.1.toNat = i) with
                | some (_, m) => s.makeEntry x.src v kindEscalation 0 (BitVec.ofNat 24 (x.sev + i * 16)) m
                | none => s) (List.range 64) s
            else s.makeEntry x.src v kindEscalation 0 (BitVec.ofNat 24 x.sev) 0
          (s.firePins v).act v x.src x.cause x.agents

/-- FLT_ACK: the slot of a source is freed (11 R366). -/
def Core.fltAck (src : Nat) (s : Core) : Core :=
  { s with flt := { s.flt with slots := s.flt.slots.filter (fun e => match e.2 with
      | some x => x.src != src
      | none => false) } }

/-- A coalescing window closes, with a repeat summary when it counted events (11 R371). -/
def Core.coalClose (src : Nat) (s : Core) : Core :=
  match s.flt.windows.find? (fun w => w.src = src) with
  | none => s
  | some w =>
    let s := { s with flt := { s.flt with windows := s.flt.windows.filter (fun v => v.src != src) } }
    if w.count = 0 then s
    else
      let (d, s) := s.freeData
      s.makeEntry src w.sev kindRepeat (Nat.min 255 w.count) 0 d

/-- Whether the error log ring is full (11 R370). -/
def Faults.ringFull (x : Faults) : Bool := x.wr - x.rd = 1024

/-- Write one entry into the ring, and into FLT_FIRST when that is free (11 R370). -/
def Core.ringWrite (e : BitVec 256) (s : Core) : Core :=
  { s with flt := { s.flt with
    ring := mset 0 s.flt.ring (s.flt.wr.toNat % 1024) e
    wr := s.flt.wr + 1
    first := if s.flt.firstValid then s.flt.first else e
    firstValid := true } }

/-- An entry that a full ring does not write (11 R370). -/
def Core.ringLost (e : BitVec 256) (s : Core) : Core :=
  let sev := (e.extractLsb' 91 3).toNat
  { s with flt := { s.flt with
    lost := Nat.min 0xFFFFFFFF (s.flt.lost + 1)
    lostSev := Nat.max s.flt.lostSev sev
    lossDue := s.flt.lossDue + 1
    lossSev := Nat.max s.flt.lossSev sev } }

/-- The collector writes one entry: a loss summary first once a full ring has space again, then its own entries, then the report queue's
(11 R370 to R372). -/
def Core.logWrite (s : Core) : Core :=
  if s.flt.made.isEmpty && s.flt.queue.isEmpty then s
  else if s.flt.lossDue != 0 && !s.flt.ringFull then
    let d : BitVec 64 := BitVec.ofNat 64 (Nat.min 0xFFFFFFFF s.flt.lossDue + s.flt.lossSev * 2 ^ 32)
    let e := mkEntry s.flt.seq s.tb 0 s.flt.lossSev kindLoss 0 0 0 0 d
    ({ s with flt := { s.flt with seq := s.flt.seq + 1, lossDue := 0, lossSev := 0 } }).ringWrite e
  else
    match s.flt.made, s.flt.queue with
    | e :: l, _ =>
      let s := { s with flt := { s.flt with made := l } }
      if s.flt.ringFull then s.ringLost e else s.ringWrite e
    | [], e :: l =>
      let s := { s with flt := { s.flt with queue := l } }
      if s.flt.ringFull then s.ringLost e else s.ringWrite e
    | [], [] => s

/-- A write of FLT_PTR.RD: ignored when it would leave more than 1,024 entries (11 R370). -/
def Core.fltRd (rd : BitVec 11) (s : Core) : Core :=
  if (s.flt.wr - rd).toNat ≤ 1024 then { s with flt := { s.flt with rd := rd } } else s

/-- Whether a half of the berth array (element 0) or of the Wharf (element 1) is in service (01 R44, R54). -/
def Core.halfOn (s : Core) (element half : Nat) : Bool := s.doms.getLsbD (74 + 2 * element + half) && !s.flt.halves.getLsbD (2 * element + half)
/-- A half fails: it is out of service and the other serves; with the other out, failed or off, the block seals (01 R44, R54). -/
def Core.halfFails (element half : Nat) (s : Core) : Core :=
  if !s.halfOn element half then s
  else
    let s := { s with flt := { s.flt with halves := setBit s.flt.halves (2 * element + half) } }
    let s := s.raise (if element = 0 then famBerthUe else famWharfUe) half
    if s.halfOn element (1 - half) then s else s.sealBlock
/-- What a use of an element finds in one of its halves: an error that is corrected, or one that fails the half (01 R44, 11 R361). -/
def Core.halfErr (element : Nat) (e : Option HalfErr) (s : Core) : Core :=
  match e with
  | none => s
  | some e =>
    if !s.halfOn element e.half.val then s
    else if e.ue then s.halfFails element e.half.val
    else s.raise (if element = 0 then famBerthCe else famWharfCe) e.half.val

/-- A Lockkeeper copy disagrees with the other two: it is masked, and a second disagreement seals the block (11 R358). -/
def Core.lkMismatch (k : Fin 3) (s : Core) : Core :=
  if s.flt.masked.getLsbD k.val then s
  else if s.flt.masked = 0 then ({ s with flt := { s.flt with masked := setBit s.flt.masked k.val } }).raise famLkVote k.val
  else s.sealBlock

end Sys2Proof.Machine
end

