-- ==== Sys2Proof/Machine/Drive.lean ====
section
/-!
DEFINITION. Sys2Proof/Machine/Drive.lean: messages of other instances by opcode (03 R89, 09 R298), and the work that one command sets off
in the engine, run to its end.
-/
namespace Sys2Proof.Machine

/-- A message of another instance, or of this one by the internal path, taken by its opcode. An opcode that no table lists is ignored. -/
def Core.recvChip (src : Option (Fin 6)) (m : Msg) (s : Core) : Core :=
  let o := m.op.toNat
  let h := m.h
  if [0x00, 0x01, 0x02, 0x03, 0x04, 0x10, 0x11, 0x18, 0x20, 0x28].contains o then
    match src with
    | some n => s.takeRequest (.culvert n) m.op h
    | none => s
  else if 0x40 ≤ o ∧ o ≤ 0x44 then s.takeSnoop src m.op h
  else if o = 0x48 then s.takeQuery src h
  else if 0x60 ≤ o ∧ o ≤ 0x65 then s.chipResponse m.op h
  else if o = 0x68 then s.takeRspQ h
  else if 0x80 ≤ o ∧ o ≤ 0x84 then
    match m.beats with
    | some d => s.chipData src m d
    | none => s
  else if (0xA0 ≤ o ∧ o ≤ 0xA3) ∨ (0xA8 ≤ o ∧ o ≤ 0xAA) then s.chipCompletion m.op h
  else if o = 0xC0 then s.takeCredit h
  else if o = 0xC2 then s.takeCensus h
  else if o = 0xD0 then s.takeFrzPing h.srci h
  else if o = 0xD1 then s.takeFrzPong h.srci
  else if o = 0xD2 then s.takeFrzStart true h.srci h
  else if o = 0xD3 then s.takeFrzStart false h.srci h
  else if o = 0xD4 then s.takeFrzReady h.srci h
  else if o = 0xD5 then s.takeFrzThaw h
  else s

/-- Run one piece of work. A SEALED slice takes none (11 R379). -/
def Core.runTask (t : Task) (s : Core) : Core :=
  match t with
  | .record p id r => if s.sliceSealed p then s else s.recordCame p id r
  | .entry p id e => if s.sliceSealed p then s else s.entryFound p id e
  | .memData p id d q => if s.sliceSealed p then s else s.memCame p id d q
  | .warmData p i id d q => if s.sliceSealed p then s else s.warmCame p i id d q
  | .pagePart page part d q => s.pagePart page part d q
  | .bucket job b d bad => s.bucketRead job b d bad
  | .queryAns job r e => s.queryAns job r e
  | .censusCheck => s.censusCheck
  | .ovfWritten job => s.jobWritten job
  | .ovfPump => s.ovfPump
  | .place w => s.placed w
  | .written w => s.writtenDone w
  | .credits i => s.creditsCame i
  | .tidied p id e => if s.sliceSealed p then s else s.tidyGo p id e
  | .advance p id => s.advance p id
  | .settles => s.advanceWhere (fun b => b.phase = .settleWait)
  | .wbDone x => s.wbDoneFor x
  | .wbArrive p b => if s.sliceSealed p then s else s.wbArrive p b
  | .internal m => s.recvChip none m
  | .pageLocked page => s.lockedWbs page
  | .larderPump => s.larderPump
  | .kick p => if s.sliceSealed p then s else (s.kick p).remapAgain p
  | .reserveFree => s.reserveFreed
  | .replayEnd l => s.replayEnd l

/-- Whether a piece of work is done even while the block's work has stopped: what an acknowledged write changes at once (08 R268, R271). -/
def Task.always (t : Task) : Bool :=
  match t with
  | .place _ => true
  | _ => false

/-- Take the next piece of work off the list. -/
def Core.nextTask (s : Core) : Option (Task × Core) :=
  if s.stopped then
    match s.todo.find? Task.always with
    | some t => some (t, { s with todo := s.todo.erase t })
    | none => none
  else match s.todo with
    | t :: l => some (t, { s with todo := l })
    | [] => none

/-- Run the reported events and the work of the list, in order, until nothing is left that may run. -/
def Core.drain : Nat → Core → Core
  | 0, s => s
  | n + 1, s =>
    match s.flt.raised with
    | e :: l => (({ s with flt := { s.flt with raised := l } }).handle e).drain n
    | [] =>
      match s.nextTask with
      | some (t, s) => (s.runTask t).drain n
      | none => s

/-- Most pieces of work that one command may run; what is left goes on with the next command. -/
def drainFuel : Nat := 65536

/-- The engine after a command's own effect. -/
def Core.settle (s : Core) : Core := s.drain drainFuel

/-- PF_RELEASE takes effect: what was deferred by the hold goes on (08 R274). -/
def Core.pfResume (s : Core) : Core :=
  ({ s with pf := { s.pf with hold := false } }).advanceWhere (fun _ => true)

/-- A message is taken only while the block's work has not stopped. -/
def Core.takes (f : Core → Core) (s : Core) : Core := if s.stopped then s else f s

end Sys2Proof.Machine
end

