-- ==== Sys2Proof/Machine/IrqTypes.lean ====
section
/-!
DEFINITION. Sys2Proof/Machine/IrqTypes.lean: the plain data of the interrupt controller (13) and of counters, dumps and the Logbook (16), each
with its value at reset.
-/
namespace Sys2Proof.Machine

/-- An interrupt message that waits on a fabric port's channel (13 R458). -/
structure IMsg where
  port : Nat
  addr : Word
  data : BitVec 32
  deriving DecidableEq, Repr

/-- A target of the interrupt controller (13 R458 to R463). -/
structure IrqTarget where
  /-- PRIO and ID of each stack entry, top first. -/
  stack : List (Nat × Nat)
  overflow : Nat
  sent : Bool
  under : Bool
  wait : Option IMsg
  deriving DecidableEq, Repr

/-- A target at reset. -/
def IrqTarget.none : IrqTarget := ⟨[], 0, false, false, .none⟩

/-- The interrupt controller (13 R450 to R467). -/
structure Irq where
  pend : BitVec 256
  /-- The latest sample of each condition. -/
  level : BitVec 256
  count : Map Nat
  targets : Map IrqTarget
  /-- Running hold-off timers: the timebase count at which each ends, by group. -/
  hold : Map Nat
  /-- Targets with a deliverable source in the last cycle, and IRQ_OUT (13 R457). -/
  deliv : BitVec 8
  out : BitVec 8
  /-- PL_IRQ_IN as synchronised. -/
  ext : BitVec 16
  /-- What the toggling sources last saw, and the level each stands at (13 R450). -/
  seenBlk : Nat
  tgBlk : Bool
  seenSlice : Map Nat
  tgSlice : BitVec 18
  seenPres : BitVec 64
  tgFab : BitVec 4
  /-- Sources claimed, and pending bits written from 0 to 1, in the cycle that runs: empty between cycles (13 R467). -/
  claimed : BitVec 256
  wset : BitVec 256
  deriving DecidableEq, Repr

/-- The controller at reset: BLK_STAT.STATE reads INIT. -/
def Irq.reset : Irq :=
  { pend := 0, level := 0, count := [], targets := [], hold := [], deliv := 0, out := 0, ext := 0, seenBlk := 2, tgBlk := false,
    seenSlice := [], tgSlice := 0, seenPres := 0, tgFab := 0, claimed := 0, wset := 0 }

/-- A dump in progress (16 R538, R539). -/
structure Dump where
  seq : BitVec 32
  base : Nat
  /-- Lines not yet issued, by index, in the order of issue: the line with SEQ last. -/
  todo : List Nat
  /-- Lines issued and not yet accepted. -/
  left : Nat
  lines : List LineData
  /-- DUMP_NOW commands that wait for it. -/
  cmds : List Nat
  deriving DecidableEq, Repr

/-- A record that waits for the trace SRAM (16 R544, R547), in the order in which it was offered. -/
structure Trace where
  order : Nat
  rec' : BitVec 256
  deriving DecidableEq, Repr

/-- Counters, dumps and the Logbook (16). -/
structure Watch where
  val : Map Nat
  wrap : Map Word
  dump : Option Dump
  dumpSeq : BitVec 32
  skipped : Nat
  done : Bool
  dumpFault : Bool
  /-- The slices' queues of 16 records, and the markers. -/
  queues : Map (List Trace)
  marks : List Trace
  order : Nat
  robin : Nat
  sram : Map (BitVec 256)
  wr : BitVec 12
  rd : BitVec 12
  lost : Nat
  lossDue : Nat
  memWr : BitVec 32
  memRd : BitVec 32
  spillFault : Bool
  deriving DecidableEq, Repr

/-- Counters, dumps and the Logbook at reset. -/
def Watch.reset : Watch :=
  { val := [], wrap := [], dump := none, dumpSeq := 0, skipped := 0, done := false, dumpFault := false, queues := [], marks := [], order := 0,
    robin := 0, sram := [], wr := 0, rd := 0, lost := 0, lossDue := 0, memWr := 0, memRd := 0, spillFault := false }

end Sys2Proof.Machine
end

