-- ==== Sys2Proof/Machine/TowTypes.lean ====
section
/-!
DEFINITION. Sys2Proof/Machine/TowTypes.lean: the plain data of Towpath's transports (12 R402 to R413), with its value at reset.
-/
namespace Sys2Proof.Machine

/-- Number of the transport (12 R421). -/
def viaCode : Via → Nat
  | .stream => 0 | .window _ => 1 | .wire => 2

/-- A reply (12 R404). -/
structure Reply where
  op : BitVec 8
  tag : BitVec 8
  status : BitVec 8
  kind : BitVec 8
  result : Word
  payload : List Word
  deriving DecidableEq, Repr

/-- Words of a reply (12 R404). -/
def Reply.words (r : Reply) : List Word :=
  ((0 : BitVec 16) ++ BitVec.ofNat 16 r.payload.length ++ r.kind ++ r.status ++ r.tag ++ r.op) :: r.result :: r.payload

/-- A command between its first reply and its end (12 R407 to R409). -/
structure Running where
  /-- The model's name of the command. -/
  id : Nat
  via : Via
  op : BitVec 8
  tag : BitVec 8
  /-- The units it names or changes, by target code. -/
  units : List Nat
  /-- It belongs to the charter group. -/
  charter : Bool
  /-- A long command; false for a short one whose reply is still to come. -/
  long : Bool
  /-- Its tag is in use: a TRANSPORT_RESET has not freed it. -/
  live : Bool
  deriving DecidableEq, Repr

/-- A completion held until TAG_QUERY reads it (12 R412, R413). -/
structure Held where
  via : Via
  tag : BitVec 8
  status : BitVec 8
  result : Word
  payload : List Word
  deriving DecidableEq, Repr

/-- How the latest command of a transport ended, for the chain condition (12 R403). -/
inductive Prev where
  | none | ok | bad
  | run (id : Nat)
  deriving DecidableEq, Repr

/-- A doorbell window (12 R412). -/
structure Window where
  cmd0 : Word
  cmd1 : Word
  rpl0 : Word
  rpl1 : Word
  data : Map Word
  busy : Bool
  reply : Bool
  /-- DB_WSTAT.DONE. -/
  done : Bool
  deriving DecidableEq, Repr

/-- A window at reset. -/
def Window.none : Window := ⟨0, 0, 0, 0, [], false, false, false⟩

/-- Towpath's transports. -/
structure Tow where
  running : List Running
  /-- Commands taken in while an earlier one of their transport still has its only reply to come, oldest first, with their opcodes (12 R410). -/
  waiting : List (BitVec 8 × TowCmd)
  held : List Held
  prev : Map Prev
  windows : Map Window
  /-- Reply-word credits of the streaming port, and replies that wait for them, a completion with its tag, which stays in use until it has been
  delivered (12 R408, 18 R586). -/
  rplCrd : Nat
  replies : List (Option (BitVec 8) × List Word)
  /-- The latest reply of the two-wire port, in words, or none while it is not ready. -/
  wire : Option (List Word)
  /-- Bytes of a read transfer that stretches SCL until the reply is ready (12 R413). -/
  wireRead : Option Nat
  nextCmd : Nat
  deriving DecidableEq, Repr

/-- The transports at reset. -/
def Tow.reset : Tow :=
  { running := [], waiting := [], held := [], prev := [], windows := [], rplCrd := 0, replies := [], wire := some [], wireRead := none, nextCmd := 0 }

end Sys2Proof.Machine
end

