-- ==== Sys2Proof/Machine/UnitTypes.lean ====
section
/-!
DEFINITION. Sys2Proof/Machine/UnitTypes.lean: the plain data of the Galley pairs (10), the Culvert ports and routes (09), power, clocks
and the leave handshake (14), and start-up and service procedures (15), each with its value at reset.
-/
namespace Sys2Proof.Machine

/-! The Galley pair of a slice (10 R344 to R356). -/

/-- What waits for a quiesce point of a slice (10 R349 to R354). -/
inductive GalWant where
  /-- A cut-over ordered by MC_ACTIVATE, with the command's name. -/
  | cut (cmd : Nat)
  /-- The end of a proof, by cut-over or re-join, with the command's name when one ordered it. -/
  | proofEnd (cut : Bool) (cmd : Option Nat)
  deriving DecidableEq, Repr

/-- An item that a pair commits (10 R335): a message, a Wharf steering command or a memory command that leaves the slice; a write of an array,
with what the place now holds; a write of a host-port structure. -/
inductive GalItem where
  | msg (m : Msg)
  | steer (src dst : Nat)
  | memRead (line : LineAddr)
  | memWrite (line : LineAddr)
  | homeWay (k : Nat) (v : Option HsWay)
  | homeTree (k : Nat) (v : Option (BitVec 15))
  | localWay (k : Nat) (v : Option LsWay)
  | localTree (k : Nat) (v : Option (BitVec 15))
  | spillCount (k : Nat) (v : Option Nat)
  | spill (l : List LsWay)
  | chambers (l : List Chamber)
  | barge (id : Nat) (v : Option Barge)
  | skillet (k : Nat) (v : Option SklEnt)
  | predictor (k : Nat) (v : Option (BitVec 3))
  | berthFree (id : Nat)
  | suspects (l : List Suspect)
  | credits (k : Nat) (v : Option InstCredits)
  deriving DecidableEq, Repr

/-- Whether an item is an output (10 R335). -/
def GalItem.isOut : GalItem → Bool
  | .msg _ | .steer _ _ | .memRead _ | .memWrite _ => true
  | _ => false

/-- Whether an item is a write of a host-port structure (10 R335). -/
def GalItem.isHost : GalItem → Bool
  | .berthFree _ | .suspects _ | .credits _ _ => true
  | _ => false

/-- The bits of an item as the signature takes them. The spec gives them no layout: they are free. DESIGN CHOICE, log 83. -/
opaque itemBits : GalItem → List Bool

/-- A checkpoint (10 R340): each copy's mode and register file. No program is under way between two steps of the model, so that it holds no
message context and no pending mode change. DESIGN CHOICE, log 83. -/
structure GalCkpt where
  mode : GalMode
  checkMode : GalMode
  regs : Nat
  checkRegs : Nat
  deriving DecidableEq, Repr

/-- A slice's Galley pair, beside what `Slice` holds of it. -/
structure Gal where
  /-- Physical bank that holds the control store. -/
  bank : Bool
  split : Bool
  diverged : Bool
  /-- The check copy has stopped after an exception (10 R353). -/
  stopped : Bool
  inject : Bool
  rewinds : Nat
  csCorr : Nat
  sweepFix : Nat
  divergences : Nat
  /-- The proof log, oldest first. -/
  log : List (BitVec 256)
  expired : Bool
  abandoned : Bool
  wants : List GalWant
  /-- DIV_NOW, and a leave granted for a faster divider (14 R490, R491). -/
  div : Nat
  divLeave : Bool
  /-- The check copy's mode while the pair is split (10 R356). -/
  checkMode : GalMode
  /-- The contents of the lead's and of the check copy's register file, by the name that the program which left them has (10 R323): what a
  program writes there is Molnal's. -/
  regs : Nat
  checkRegs : Nat
  /-- The window: the items that the release buffer holds, in commit order; the slice as its arrays hold it without the writes that are held;
  the slice cycle after which the window opened, the most sc that it may last, and the checkpoint taken when it opened (10 R335 to R340). -/
  items : List GalItem
  under : Option Slice
  opened : Nat
  limit : Nat
  ckpt : GalCkpt
  deriving DecidableEq, Repr

/-- A pair at reset. -/
def Gal.reset : Gal :=
  { bank := false, split := false, diverged := false, stopped := false, inject := false, rewinds := 0, csCorr := 0, sweepFix := 0,
    divergences := 0, log := [], expired := false, abandoned := false, wants := [], div := 0, divLeave := false, checkMode := .test, regs := 0, checkRegs := 0,
    items := [], under := none, opened := 0, limit := 16, ckpt := ⟨.test, .test, 0, 0⟩ }

/-! The Culvert (09). -/

/-- Port states (09 R304, R309). -/
inductive CulSt where
  | off | reset | detect | lock | map | ident | test | config | active | retrain | down
  deriving DecidableEq, Repr

/-- CUL_STAT.STATE (09 R309). -/
def CulSt.code : CulSt → Nat
  | .off => 0 | .reset => 1 | .detect => 2 | .lock => 3 | .map => 4 | .ident => 5 | .test => 6 | .config => 7 | .active => 8
  | .retrain => 9 | .down => 10

/-- A switch of a logical lane onto a spare, in one direction (09 R312). -/
structure Switch where
  lane : Nat
  spare : Nat
  x : Nat
  acked : Bool
  /-- The lane has moved: codeword x has passed. -/
  moved : Bool
  cmd : Option Nat
  deriving DecidableEq, Repr

/-- Message bits received and not yet taken: how many, and whether their codeword could not be corrected (09 R279). -/
structure Seg where
  bits : Nat
  len : Nat
  bad : Bool
  deriving DecidableEq, Repr

/-- A port's coding on the transmit side (09 R277 to R280). -/
structure TxPcs where
  /-- Codewords of the period that have gone, and the period's number. -/
  cw : Nat
  period : BitVec 16
  scr : BitVec 31
  /-- Message bits that wait for a whole codeword, and how many. -/
  bits : Nat
  have_ : Nat
  /-- By physical lane: BIP of the period, the PRBS31 state, and the bits of a 64-bit word not yet whole; how many these are. -/
  bip : Map Nat
  prbs : Map Nat
  word : Map Nat
  fill : Nat
  deriving DecidableEq, Repr

/-- The transmit side before its first period. -/
def TxPcs.reset : TxPcs :=
  { cw := 0, period := 0, scr := BitVec.allOnes 31, bits := 0, have_ := 0, bip := [], prbs := [], word := [], fill := 0 }

/-- A port's coding on the receive side (09 R277 to R280). -/
structure RxPcs where
  /-- Codewords of the period that have come. -/
  cw : Nat
  scr : BitVec 31
  /-- By physical lane: bits not yet taken, and BIP of the period; how many bits each lane holds. -/
  raw : Map Nat
  fill : Nat
  bip : Map Nat
  /-- Symbols corrected in the period, by physical lane (09 R310). -/
  period : Map Nat
  left : List Seg
  deriving DecidableEq, Repr

/-- The receive side before its first period. -/
def RxPcs.reset : RxPcs := { cw := 0, scr := BitVec.allOnes 31, raw := [], fill := 0, bip := [], period := [], left := [] }

/-- A Culvert port. -/
structure CPort where
  st : CulSt
  reason : Nat
  peerInst : BitVec 6
  peerPort : BitVec 3
  crossed : Bool
  /-- Physical lane of each logical lane, 0x1F for none, and whether the maps were built since the port's domains came on. -/
  rxMap : Map Nat
  txMap : Map Nat
  mapped : Bool
  rxInv : BitVec 18
  rxBad : BitVec 18
  txBad : BitVec 18
  /-- Receive lanes with signal detect, and with lock (09 R277). -/
  signal : BitVec 18
  lock : BitVec 18
  /-- The peer has been identified since block reset (09 R304). -/
  known : Bool
  /-- The peer's transmit lane that each receive lane comes from, as MAP found it, and the lanes the peer reported good (09 R303, R305). -/
  rxFrom : Map Nat
  /-- Where a retrain stands: LOCK, MAP, IDENT or CONFIG, and before them RETRAIN (09 R304). -/
  sub : CulSt
  /-- Blocks of the current TYPE that this side has sent (09 R303). -/
  sent : Nat
  /-- TEST_EN, FAST_RETRAIN and LOOP_OK of the peer's training blocks. -/
  peerFlags : BitVec 3
  /-- Leave to train is awaited. -/
  wait : Bool
  /-- The SerDes has reported ready in this training. -/
  ready : Bool
  fecCorr : Nat
  fecUnc : Nat
  crc : Nat
  replays : Nat
  /-- Symbols corrected and BIP mismatches of each physical receive lane. -/
  sym : Map Nat
  bip : Map Nat
  /-- Consecutive periods of a lane above DEGRADE, and with a BIP mismatch. -/
  hot : Map Nat
  hotBip : Map Nat
  /-- Transmit side: the queue, deficits, the VC whose turn it is and whether it has had its quantum. -/
  queue : List CulMsg
  deficit : Map Nat
  turn : Nat
  fed : Bool
  /-- Next SEQ, and flits not yet acknowledged: bytes 0 to 251 as last sent, oldest first. -/
  txSeq : BitVec 12
  replay : List (BitVec 2016)
  /-- The replay in progress: the SEQs still to go, and the ACK of the NAK that it answers. -/
  resend : List (BitVec 12)
  nakAck : Option (BitVec 12)
  /-- Cells in use at the peer, and the last count reported, by counter 0 to 10. -/
  txUsed : Map Nat
  txSeen : Map Nat
  /-- Receive side: last SEQ accepted, NAK to be sent, the message begun and not ended. -/
  rxSeq : BitVec 12
  nak : Bool
  partial_ : List (BitVec 8)
  rxUsed : Map Nat
  rxFreed : Map Nat
  /-- Counter that the next flit header reports first. -/
  report : Nat
  /-- Link management codes to send, with their arguments, in turn. -/
  lm : List (Nat × Nat)
  rxSwitch : Option Switch
  txSwitch : Option Switch
  /-- Physical lanes whose switch waits. -/
  faults : List Nat
  /-- A NAK has been sent and no flit has been accepted since. -/
  stalled : Bool
  /-- Destinations and VCs of messages passed on from this port since it last became ACTIVE. -/
  passed : List (Nat × Nat)
  /-- A CUL_RETRAIN command that waits. -/
  cmd : Option Nat
  /-- Coding (09 R277 to R280). -/
  tx : TxPcs
  rx : RxPcs
  deriving DecidableEq, Repr

/-- A port whose domains are off and have not been on since block reset. -/
def CPort.reset : CPort :=
  { st := .off, reason := 0, peerInst := 0, peerPort := 0, crossed := false, rxMap := [], txMap := [], mapped := false, rxInv := 0, rxBad := 0, txBad := 0,
    signal := 0, lock := 0, known := false, rxFrom := [], sub := .reset, sent := 0, peerFlags := 0, wait := false, ready := false, fecCorr := 0, fecUnc := 0, crc := 0, replays := 0, sym := [], bip := [], hot := [],
    hotBip := [], queue := [], deficit := [], turn := 0, fed := false, txSeq := 0, replay := [], resend := [], nakAck := none, txUsed := [], txSeen := [],
    rxSeq := 0xFFF, nak := false, partial_ := [], rxUsed := [], rxFreed := [], report := 0, lm := [], rxSwitch := none, txSwitch := none,
    faults := [], stalled := false, passed := [], cmd := none, tx := TxPcs.reset,
    rx := RxPcs.reset }

/-- A fence that this instance has started (09 R317, R319, R322). -/
structure Fence where
  /-- Its lost port; 7 for a return of routes. -/
  port : Nat
  peer : BitVec 6
  /-- Destinations not yet released. -/
  dests : BitVec 64
  /-- The peer's acknowledgement has come. -/
  acked : Bool
  /-- Destinations whose own acknowledgement is awaited after the peer's; for a return, every destination it returns. -/
  mask : BitVec 64
  /-- The CUL_ROUTE_RETURN command of a return. -/
  cmd : Option Nat
  /-- Destinations whose own acknowledgement has come. -/
  back : BitVec 64
  deriving DecidableEq, Repr

/-- A FENCE that a peer has sent over a lost port of this instance and that waits for the port's messages (09 R319). -/
structure FenceIn where
  port : Nat
  origin : BitVec 6
  lost : BitVec 3
  deriving DecidableEq, Repr

/-- Copies of a forwarded FENCE that have arrived: originator, its port, and the VCs (09 R319). -/
structure FenceTally where
  origin : BitVec 6
  lost : BitVec 3
  seen : BitVec 10
  deriving DecidableEq, Repr

/-- A message as it arrives: from a Culvert port, from this instance itself (port 6), or on a channel of a fabric port. -/
inductive Arrival where
  | culvert (n : Nat) (c : CulMsg)
  | request (f : Fin 4) (op : BitVec 8) (h : Hdr)
  | response (f : Fin 4) (op : BitVec 8) (h : Hdr)
  | data (f : Fin 4) (op : BitVec 8) (h : Hdr) (d : Beats)
  | undefined (f : Fin 4) (ch : Chan) (op : BitVec 8) (h : Hdr)
  deriving DecidableEq, Repr

/-- The Culvert: ports, routes and fences. -/
structure Cul where
  ports : Map CPort
  /-- ROUTE(d).HELD and ON_ALT. -/
  held : BitVec 64
  onAlt : BitVec 64
  holdQ : List CulMsg
  fences : List Fence
  fenceIns : List FenceIn
  tallies : List FenceTally
  /-- Ports lost during a power-fail hold, whose salvage waits (09 R321). -/
  late : List Nat
  /-- Round and send number of the latest HELLO passed on, by origin (09 R300). -/
  hello : Map (BitVec 8 × BitVec 4)
  /-- Messages that a port has received in this step and that are still to be taken: empty between steps. -/
  inbox : List (Nat × CulMsg)
  /-- Data that waits for a chamber data reserve slot and keeps its cells (06 R190, 09 R297). -/
  parked : List (Msg × Cells)
  /-- A port has been enabled since block reset (09 R302, 12 R449). -/
  used : Bool
  deriving DecidableEq, Repr

/-- The Culvert at reset. -/
def Cul.reset : Cul :=
  { ports := [], held := 0, onAlt := 0, holdQ := [], fences := [], fenceIns := [], tallies := [], late := [], hello := [], inbox := [], parked := [], used := false }

/-! Power, clocks and leave (14). -/

/-- A step that a granted leave lets the block take (14 R483). -/
inductive Step_ where
  | domain (d : Nat)
  | divider (p : Nat)
  | initDomains
  | train (n : Nat)
  | rebuilds
  | scrub
  | generation
  deriving DecidableEq, Repr

/-- A request for leave (14 R483 to R485). -/
structure Leave where
  cls : Nat
  amt : Nat
  steps : List Step_
  deriving DecidableEq, Repr

/-- A change of domains under way: its command, its domains still to switch in order, and what it is for (14 R482). -/
structure Switching where
  cmd : Option Nat
  /-- Target code of the unit: a slice, a Culvert, fabric or memory port; 0x40 + e + 2h for half h of the berth array, e = 0, or the Wharf, e = 1; 0x44 for Deep. -/
  unit : Nat
  on : Bool
  /-- Domains still to come, the one under way first. -/
  left : List Nat
  /-- Its leave has been asked and the domain is awaited, or its domains are being switched off. -/
  asked : Bool
  /-- Its first leave has been asked. -/
  begun : Bool
  failover : Bool
  deriving DecidableEq, Repr

/-- Power, clocks and the leave handshake. -/
structure Pwr where
  queue : List Leave
  /-- The request presented, and REQ and GNT as driven and sampled. -/
  shown : Option Leave
  req : Bool
  gnt : Bool
  /-- Timebase count at which REQ rose. -/
  raisedAt : Nat
  late : Bool
  stuck : Bool
  /-- Timebase counts at which a request was withdrawn, and at which a grant was sampled under REQ. -/
  withdrawnAt : Option Nat
  grantedAt : Option Nat
  lastWait : Nat
  count : Nat
  /-- Leave has been asked for the rebuilds now queued (05 R179). -/
  interrog : Bool
  /-- Domains whose ramp has begun, and domains being switched off. -/
  ramp : BitVec 80
  falling : BitVec 80
  work : List Switching
  /-- Idle is in force; gated clocks (14 R474). -/
  idle : Bool
  gated : BitVec 18
  wharfGated : Bool
  /-- A PWR_IDLE 0 that waits for its half to switch on. -/
  leaving : Option Nat
  absent : BitVec 40
  fallback : Bool
  /-- The wake watcher's FIRED bits and PL_RST (14 R481, 13 R468). -/
  fired : BitVec 16
  cause : Nat
  deep : Bool
  goodLost : Bool
  good : Bool
  initBegan : Nat
  /-- Straps as sampled (18 R577). -/
  strapAddr : BitVec 7
  strapLeader : Bool
  strapTest : Bool
  /-- The instruction in force in the test wrapper (18 R589). -/
  wir : BitVec 5
  deriving DecidableEq, Repr

/-- Power at reset: domains 74 to 79 are on, and PWR_GOOD is asserted. -/
def Pwr.reset : Pwr :=
  { queue := [], shown := none, req := false, gnt := false, raisedAt := 0, late := false, stuck := false, withdrawnAt := none, grantedAt := none, lastWait := 0,
    count := 0, interrog := false, ramp := 0, falling := 0, work := [], idle := false, gated := 0, wharfGated := false, leaving := none, absent := 0,
    fallback := false, fired := 0, cause := 0, deep := false, goodLost := false, good := true, initBegan := 0,
    strapAddr := 8, strapLeader := true, strapTest := false, wir := 0 }

/-! Start-up and service procedures (15, 12). -/

/-- A DISCOVER round (15 R504). -/
structure Disc where
  cmd : Option Nat
  round : BitVec 8
  send : BitVec 4
  resent : Bool
  /-- Instances found: instance, P with the strap at bit 60. -/
  found : List (BitVec 6 × BitVec 61)
  /-- Instances found by the latest round that has ended. -/
  last : List (BitVec 6 × BitVec 61)
  deriving DecidableEq, Repr

/-- A member's commit report at the leader (15 R508). -/
structure Report where
  inst : BitVec 6
  id : Word
  code : BitVec 8
  entry : BitVec 8
  deriving DecidableEq, Repr

/-- The charter commit at this instance (15 R507 to R512). -/
structure Commit where
  /-- The CHARTER_COMMIT command under way and its identifier; its report has been sent. -/
  cmd : Option Nat
  id : Word
  leader : BitVec 6
  isLeader : Bool
  /-- The leader's own checks have ended and no outcome has been sent. -/
  deciding : Bool
  reports : List Report
  acks : BitVec 64
  all : Bool
  lockedId : Option Word
  deriving DecidableEq, Repr

/-- What a drain is for. -/
inductive DrainFor where
  | drain (p : Nat) (toSpare : Bool)
  | swap (p q : Nat) (toSpare : Bool)
  /-- A TRIM change: the new setting, and the slices that take the added logical slices. -/
  | trim (new : Nat) (adds : List (Nat × Nat))
  deriving DecidableEq, Repr

/-- A drain command under way. -/
structure DrainJob where
  cmd : Nat
  kind : DrainFor
  began : Nat
  /-- Slices being drained: wholly where the slice is DRAINING, else of the lines that leave it. -/
  parts : List Nat
  deriving DecidableEq, Repr

/-- An image load (10 R347, 12 R437): the slices that load and those skipped. -/
structure Load where
  target : Nat
  slices : List Nat
  skipped : BitVec 18
  /-- Slices ended by failover or seal. -/
  lost : BitVec 18
  /-- MC_LOAD_CLOSE under way: slices still to verify, and the failures found with their status. -/
  cmd : Option Nat
  left : List Nat
  bad : List (Nat × Nat)
  deriving DecidableEq, Repr

/-- An overlay (11 R359, 12 R438). -/
structure Overlay where
  cmd : Nat
  pa : Nat
  /-- Its read has been issued, and its first line has come. -/
  asked : Bool
  running : Bool
  deriving DecidableEq, Repr

/-- An AGENT_RETIRE at the agent's own instance that waits (12 R429). -/
structure Retire where
  cmd : Nat
  agent : AgentId
  /-- Declared dead with cause COMMAND, or found dead: it ends with FAILED after the freeze. -/
  dead : Bool
  /-- Its limit has passed (12 R429). -/
  late : Bool
  deriving DecidableEq, Repr

/-- An AGENT_ADMIT whose sweep runs (15 R525): the next bucket to read. -/
structure Admit where
  cmd : Nat
  agent : AgentId
  next : Nat
  deriving DecidableEq, Repr

/-- A MAINT_ENTRY (07 R248): its line once it has begun on the entry. -/
structure MaintJob where
  cmd : Nat
  p : Nat
  idx : Nat
  op : MaintOp
  line : Option LineAddr
  deriving DecidableEq, Repr

/-- Start-up and service procedures. -/
structure Start where
  disc : Disc
  commit : Commit
  drains : List DrainJob
  loads : List Load
  overlay : Option Overlay
  retires : List Retire
  /-- AGENT_ADMIT commands whose sweep runs. -/
  admits : List Admit
  maints : List MaintJob
  /-- INIT_STAT but TIME_US (15 R500). -/
  initStat : Word
  deriving DecidableEq, Repr

/-- The procedures at reset. -/
def Start.reset : Start :=
  { disc := ⟨none, 0, 0, false, [], []⟩
    commit := ⟨none, 0, 0, false, false, [], 0, false, none⟩
    drains := [], loads := [], overlay := none, retires := [], admits := [], maints := [], initStat := 0 }

end Sys2Proof.Machine
end

