-- ==== Sys2Proof/Machine/State.lean ====
section
/-!
DEFINITION. Sys2Proof/Machine/State.lean: the whole state of the block, the reasons a step can stop, and the state after a block reset.
-/
namespace Sys2Proof.Machine

/-- Why a command stops the model. -/
inductive Fault where
  /-- A command whose result the spec leaves wholly open, by the rule of this number. No command raises it: where a duty that the block does not
  check is broken, the block takes what 00 R4 allows it (`State.upset`). -/
  | unpredictable (rule : Nat)
  deriving DecidableEq, Repr

/-- Why a command has no meaning. -/
inductive Refusal where
  /-- No meaning has been written for the command of this mnemonic. Raised by Dispatch.lean alone. Safe. -/
  | notModelled (mnemonic : String)
  deriving DecidableEq, Repr

/-- The state of the block. -/
structure State where
  /-- The coherence engine, its registers and ports, fault collection and freeze. -/
  core : Core
  /-- The interrupt controller (13). -/
  irq : Irq
  /-- Counters, dumps and the Logbook (16). -/
  watch : Watch
  /-- Towpath's transports (12). -/
  tow : Tow
  /-- Galley pairs, by physical slice (10). -/
  gals : Map Gal
  /-- The Culvert (09). -/
  cul : Cul
  /-- Power, clocks and leave (14). -/
  pwr : Pwr
  /-- Start-up and service procedures (15). -/
  start : Start
  /-- Messages that came while the block's work had stopped, oldest first: they are taken when it goes on (08 R271, R274). -/
  arrivals : List Arrival
  /-- Commands that wait, first in, first out. -/
  pending : List Instr
  deriving DecidableEq, Repr

/-- The block right after a block reset: in INIT, with domains 74 to 79 on (12 R416, 14 R472, R494). -/
def State.reset : State :=
  { core := Core.reset, irq := Irq.reset, watch := Watch.reset, tow := Tow.reset, gals := [], cul := Cul.reset, pwr := Pwr.reset,
    start := Start.reset, arrivals := [], pending := [] }

end Sys2Proof.Machine
end

