-- ==== Sys2Proof/Machine/Watch.lean ====
section
/-!
DEFINITION. Sys2Proof/Machine/Watch.lean: performance counters, counter dumps and the Logbook (16 R530 to R548).
-/
namespace Sys2Proof.Machine

/-- Update the engine. -/
def State.onCore (f : Core → Core) (s : State) : State := { s with core := f s.core }
/-- Update counters, dumps and the Logbook. -/
def State.onWatch (f : Watch → Watch) (s : State) : State := { s with watch := f s.watch }
/-- A stored register. -/
def State.reg (s : State) (off : Nat) : Word := s.core.reg off
/-- Report an error event without detail. -/
def State.raise (fam idx : Nat) (s : State) : State := s.onCore (Core.raise fam idx)

/-! Counters (16 R530 to R535). -/

/-- Group of a counter, and whether it is the first of its group (16 R530). -/
def cntGroup (c : Nat) : Nat := if c < 288 then c / 16 else if c < 400 then 18 + (c - 288) / 8 else 32
def cntFirst (c : Nat) : Bool := if c < 288 then c % 16 = 0 else (c - 288) % 8 = 0

/-- CNT_CFG and CNT_GRP. -/
def State.cntCfg (s : State) (c : Nat) : Word := s.reg (0x41000 + c * 8)
def State.cntGrp (s : State) (g : Nat) : Word := s.reg (0x42000 + g * 8)
/-- Whether a counter counts carries (16 R532). -/
def State.cntChained (s : State) (c : Nat) : Bool := c < 408 && !cntFirst c && bit (s.cntCfg c) 11
/-- Whether a counter counts, but for its event (16 R532). -/
def State.cntRuns (s : State) (c : Nat) : Bool := bit (s.cntCfg c) 10 && !bit (s.cntGrp (cntGroup c)) 1

/-- Counts that a counter adds in one mc (16 R531, R532): event 0x000 counts nothing. -/
def State.cntAdd (s : State) (carry : Bool) (c : Nat) : Nat :=
  if !s.cntRuns c then 0
  else if s.cntChained c then (if carry then 1 else 0)
  else
    let e := bits (s.cntCfg c) 9 0
    if e = 0 then 0 else Nat.min 4095 (mget 0 s.core.cntPend (cntGroup c * 1024 + e))

/-- One counter's part of an mc: its new value, and its carry to the next counter or its CNT_WRAP bit (16 R532). -/
def State.cntStep (s : State) (x : Watch × Bool) (c : Nat) : Watch × Bool :=
  let v := mget 0 x.1.val c + s.cntAdd x.2 c
  let w := { x.1 with val := mset 0 x.1.val c (v % 2 ^ 48) }
  if v < 2 ^ 48 then (w, false)
  else if s.cntChained (c + 1) then (w, true)
  else ({ w with wrap := mset 0 w.wrap (c / 64) (setBit (mget 0 w.wrap (c / 64)) (c % 64)) }, false)

/-- What of the counts sent in an mc is still to be added: beyond 4,095 to the counter, unless the group is held (16 R531, R535). -/
def State.cntLeft (s : State) : Map Nat :=
  s.core.cntPend.filterMap (fun e =>
    if 4095 < e.2 && !bit (s.cntGrp (e.1 / 1024)) 1 then some (e.1, e.2 - 4095) else none)

/-- One mc of the counters (16 R531). -/
def State.cntUpdate (s : State) : State :=
  let w := ((List.range 408).foldl s.cntStep (s.watch, false)).1
  let left := s.cntLeft
  { s with watch := w, core := { s.core with cntPend := left } }

/-- A write of CNT_VAL: the count of the mc is added to it when that mc ends (16 R535). -/
def State.cntValWrite (c : Nat) (v : Word) (s : State) : State :=
  s.onWatch (fun w => { w with val := mset 0 w.val c (bits v 47 0) })

/-! Lines that an engine writes to memory (16 R549 to R557). -/

/-- Whether the lines of a burst may be handed on now: each line outside a RESV range needs the slice that serves it. -/
def Core.lineReady (s : Core) (pa : Nat) : Bool :=
  match s.ownRange pa with
  | some g => g.resv || decide (s.physOfLine (BitVec.ofNat 48 (pa / 256)) < 18)
  | none => true

/-- Write one line for an engine: straight to memory in a RESV range, else by an internal operation of its slice (16 R549). -/
def Core.engineLine (src : WSrc) (pa : Nat) (d : LineData) (s : Core) : Core :=
  let x : LineAddr := BitVec.ofNat 48 (pa / 256)
  let inner : Bool := match s.ownRange pa with
    | some g => !g.resv
    | none => false
  if inner then
    let (i, s) := s.fresh
    let t := s.arrival
    s.onSlice (s.physOfLine x) (fun y => { y with internals := y.internals ++ [⟨i, .engineWrite src d, x, t⟩] })
  else (s.queueWrite x d fullMask false src s.arrival false none none none).2

/-! Dumps (16 R538 to R540). -/

/-- DUMP_CTL.SLOTS_LG as it acts. -/
def State.dumpSlots (s : State) : Nat := 2 ^ Nat.min 16 (bits (s.reg 0x42200) 25 21)

/-- The 416 words of a dump (16 R539). -/
def State.dumpWords (s : State) : List Word :=
  [s.watch.dumpSeq.setWidth 64, BitVec.ofNat 64 (s.core.tb % 2 ^ 48), s.core.host.tick.setWidth 64, 0, 0, 0, 0, 0] ++
    (List.range 408).map (fun c => at' (mget 0 s.watch.val c) 0)

/-- A line of 32 words, the first lowest. -/
def lineOfWords (l : List Word) : LineData := BitVec.ofNat 2048 (l.foldr (fun w n => w.toNat + 2 ^ 64 * n) 0)

/-- Lines 0 to 12 of a dump. -/
def State.dumpLines (s : State) : List LineData := (List.range 13).map (fun k => lineOfWords ((s.dumpWords.drop (32 * k)).take 32))

/-- SKIPPED counts one more. -/
def Watch.skip (w : Watch) : Watch := { w with skipped := Nat.min 0xFFFF (w.skipped + 1) }

/-- The lines that the next burst of a dump holds: up to four, and SEQ's line alone and last, once the others have been accepted (16 R539,
R551). -/
def Dump.burst (d : Dump) : List Nat :=
  let rest := d.todo.filter (fun k => k != 0)
  if rest.isEmpty then (if d.left = 0 then d.todo else []) else rest.take 4

/-- Issue the bursts of a dump that may go; a refusal abandons it (16 R551, R555). -/
def State.dumpPump : Nat → State → State
  | 0, s => s
  | n + 1, s =>
    match s.watch.dump with
    | none => s
    | some d =>
      let b := d.burst
      let pa (k : Nat) : Nat := (d.base + 256 * k) % 2 ^ 56
      if b.isEmpty || s.core.gatePaused gateDump || s.core.stopped || !b.all (fun k => s.core.lineReady (pa k)) then s
      else if !s.core.gatePermits gateDump gWrite (pa (b.headD 0)) then
        let s := s.onCore (Core.gateRefuse gateDump gWrite (pa (b.headD 0)))
        s.onWatch (fun w => { w.skip with dump := some { d with todo := [], lines := [] }, dumpFault := true })
      else
        let s := s.onCore (foldS (fun k => Core.engineLine .dump (pa k) (d.lines.getD k 0)) b)
        (s.onWatch (fun w => { w with
          dump := some { d with todo := d.todo.filter (fun k => !b.contains k), left := d.left + b.length } })).dumpPump n

/-- A dump starts (16 R538): the snapshot is taken, and its lines go to its slot. -/
def State.dumpStart (cmds : List Nat) (s : State) : State :=
  let slot := s.watch.dumpSeq.toNat % s.dumpSlots
  let base := bits (s.reg 0x42208) 55 12 * 4096 + slot * 4096
  let d : Dump := ⟨s.watch.dumpSeq, base % 2 ^ 56, [1, 2, 3, 4, 5, 6, 7, 8, 9, 10, 11, 12, 0], 0, s.dumpLines, cmds⟩
  (s.onWatch (fun w => { w with dump := some d, dumpSeq := w.dumpSeq + 1 })).dumpPump 4

/-- A dump has ended, by its last line or abandoned. -/
def Dump.ended (d : Dump) : Bool := d.todo.isEmpty && d.left = 0

/-- The period of periodic dumps ends (16 R538, R556). -/
def State.dumpPeriod (s : State) : State :=
  if !bit (s.reg 0x42200) 0 || s.core.stopped then s
  else if s.watch.dump.isSome || s.core.gatePaused gateDump then s.onWatch Watch.skip
  else s.dumpStart []

/-- A line of the dump has been accepted by memory. -/
def State.dumpLine (s : State) : State :=
  match s.watch.dump with
  | none => s
  | some d => (s.onWatch (fun w => { w with dump := some { d with left := d.left - 1 } })).dumpPump 4

/-! The Logbook (16 R541 to R548). -/

def State.logCtl (s : State) : Word := s.reg 0x43000
/-- LOG_CTL.ENABLE, SPILL and WRAP. -/
def State.logOn (s : State) : Bool := bit s.logCtl 0
def State.logSpill (s : State) : Bool := bit s.logCtl 1
def State.logWrap (s : State) : Bool := bit s.logCtl 2

/-- A trace record of a message (16 R542): kind 0 admitted, 1 released. -/
def traceRec (tick : Stamp) (unit kind : Nat) (m : Msg) (tb : Nat) : BitVec 256 :=
  let h := m.h
  (0 : BitVec 64) ++ BitVec.ofNat 32 tb ++ h.param ++ h.line ++ h.dsti ++ h.srci ++ h.peer ++ h.hint ++ (0 : BitVec 1) ++
    BitVec.ofBool h.poison ++ h.epoch ++ h.tag ++ h.agent ++ m.op ++ BitVec.ofNat 3 kind ++ BitVec.ofNat 5 unit ++ tick

/-- A marker or a loss summary (16 R542): kind 2 or 3, with CODE and ARG. -/
def traceMark (tick : Stamp) (kind code arg tb : Nat) : BitVec 256 :=
  (0 : BitVec 64) ++ BitVec.ofNat 32 tb ++ (0 : BitVec 32) ++ BitVec.ofNat 32 arg ++ (0 : BitVec 56) ++ BitVec.ofNat 8 code ++
    BitVec.ofNat 3 kind ++ (0x1F : BitVec 5) ++ tick

/-- Whether a slice's filter takes a message (16 R543). -/
def State.filterTakes (s : State) (p : Nat) (released : Bool) (m : Msg) : Bool :=
  let a := s.reg (0x43100 + p * 0x10)
  let b := s.reg (0x43108 + p * 0x10)
  let same (v w mask : Nat) : Bool := v &&& mask = w &&& mask
  bit a 42 && (if released then bit a 41 else bit a 40) && same m.op.toNat (bits a 7 0) (bits a 15 8) &&
    same m.h.agent.toNat (bits a 27 16) (bits a 39 28) &&
    (let n := Nat.min 48 (bits b 53 48); decide (m.h.line.toNat >>> n = bits b 47 0 >>> n))

/-- One more record lost (16 R544, R545). -/
def Watch.lose (w : Watch) : Watch := { w with lost := Nat.min 0xFFFFFFFF (w.lost + 1), lossDue := w.lossDue + 1 }

/-- A slice offers a record of a message (16 R541, R544). -/
def State.offer (p : Nat) (released : Bool) (m : Msg) (s : State) : State :=
  if 18 ≤ p || !s.logOn || !s.filterTakes p released m then s
  else
    let q := mget [] s.watch.queues p
    if 16 ≤ q.length then s.onWatch Watch.lose
    else
      let r := traceRec s.core.host.tick p (if released then 1 else 0) m s.core.tb
      s.onWatch (fun w => { w with queues := mput w.queues p (q ++ [⟨w.order, r⟩]), order := w.order + 1 })

/-- A marker of 14 R496 (16 R547). -/
def State.marker (code arg : Nat) (s : State) : State :=
  if !s.logOn then s
  else
    let r := traceMark s.core.host.tick 2 code arg s.core.tb
    s.onWatch (fun w => { w with marks := w.marks ++ [⟨w.order, r⟩], order := w.order + 1 })

/-- Records in the SRAM ring, and whether it is full (16 R545). -/
def Watch.ringLen (w : Watch) : Nat := (w.wr - w.rd).toNat
def Watch.ringFull (w : Watch) : Bool := w.ringLen = 2048

/-- The slice whose queue gives the next record, from the pointer up, among those whose oldest record is older than n (16 R544, R547). -/
def Watch.nextQueue (w : Watch) (n : Nat) : Option Nat :=
  ((List.range 18).map (fun i => (w.robin + i) % 18)).find? (fun p =>
    match mget [] w.queues p with
    | t :: _ => decide (t.order < n)
    | [] => false)

/-- Put a record at WR; a full ring loses its oldest. -/
def Watch.ringPut (r : BitVec 256) (w : Watch) : Watch :=
  { w with
    sram := mset 0 w.sram (w.wr.toNat % 2048) r
    rd := if w.ringFull then w.rd + 1 else w.rd
    wr := w.wr + 1 }

/-- Take the next record or marker off its queue. -/
def Watch.nextTrace (w : Watch) : Option (BitVec 256 × Watch) :=
  match w.nextQueue (match w.marks with
    | t :: _ => t.order
    | [] => w.order) with
  | some p =>
    match mget [] w.queues p with
    | t :: l => some (t.rec', { w with queues := mset [] w.queues p l, robin := (p + 1) % 18 })
    | [] => none
  | none =>
    match w.marks with
    | t :: l => some (t.rec', { w with marks := l })
    | [] => none

/-- The Logbook writes one record (16 R544, R545, R547). -/
def State.traceWrite (s : State) : State :=
  if !s.logOn then s
  else
    match s.watch.nextTrace with
    | none => s
    | some (r, w) =>
      if s.watch.ringFull && !s.logWrap then { s with watch := w.lose }
      else if s.watch.lossDue != 0 then
        let x := traceMark s.core.host.tick 3 0 (Nat.min 0xFFFFFFFF s.watch.lossDue) s.core.tb
        { s with watch := { s.watch.ringPut x with lossDue := 0 } }
      else { s with watch := w.ringPut r }

/-- LOG_SPILL.SIZE_LG as it acts, as lines. -/
def State.spillLines (s : State) : Nat := 2 ^ Nat.min 24 (Nat.max 4 (bits (s.reg 0x43010) 4 0))

/-- The memory ring is full (16 R546). -/
def State.memRingFull (s : State) : Bool := decide (s.spillLines ≤ (s.watch.memWr - s.watch.memRd).toNat)

/-- LOG_STAT.STOPPED (16 R548): a ring is full with WRAP 0. -/
def State.logStopped (s : State) : Bool := !s.logWrap && (s.watch.ringFull || s.memRingFull)

/-- The oldest n records of the SRAM as a line, with zeros behind them. -/
def Watch.oldest (w : Watch) (n : Nat) : LineData :=
  BitVec.ofNat 2048 (((List.range n).map (fun i => (mget 0 w.sram ((w.rd.toNat + i) % 2048)).toNat)).foldr (fun r t => r + 2 ^ 256 * t) 0)

/-- Spill the oldest n records, n up to 8, as one line (16 R546, R555). -/
def State.spillOne (n : Nat) (s : State) : State :=
  let w := s.watch
  let slot := w.memWr.toNat % s.spillLines
  let pa := (bits (s.reg 0x43010) 55 12 * 4096 + slot * 256) % 2 ^ 56
  if s.memRingFull && !s.logWrap || !s.core.lineReady pa then s
  else if !s.core.gatePermits gateLogbook gWrite pa then
    (s.onCore (Core.gateRefuse gateLogbook gWrite pa)).onWatch (fun w => { w with spillFault := true })
  else
    let line := w.oldest n
    let s := s.onCore (Core.engineLine .logbook pa line)
    let full := s.memRingFull
    s.onWatch (fun w => { w with
      rd := w.rd + BitVec.ofNat 12 n
      memWr := w.memWr + 1
      memRd := if full then w.memRd + 1 else w.memRd })

/-- Eight records are spilled (16 R546, R556). -/
def State.logSpillRun (s : State) : State :=
  if !s.logSpill || s.watch.ringLen < 8 || s.watch.spillFault || s.core.gatePaused gateLogbook || s.core.stopped then s
  else s.spillOne 8

/-- A write of LOG_PTR.RD (16 R545, R546). -/
def State.logRd (rd : BitVec 12) (s : State) : State :=
  if s.logSpill || 2048 < (s.watch.wr - rd).toNat then s else s.onWatch (fun w => { w with rd := rd })

/-- A write of LOG_MEM.RD: ignored when it would pass WR (16 R548). -/
def State.logMemRd (rd : BitVec 32) (s : State) : State :=
  if (s.watch.memWr - rd).toNat ≤ (s.watch.memWr - s.watch.memRd).toNat then s.onWatch (fun w => { w with memRd := rd }) else s

end Sys2Proof.Machine
end

