-- ==== Sys2Proof/Machine/Irq.lean ====
section
/-!
DEFINITION. Sys2Proof/Machine/Irq.lean: the interrupt controller: conditions, samples, delivery, claims and the cycle that ends every command
(13 R450 to R467).
-/
namespace Sys2Proof.Machine

/-- Update the interrupt controller. -/
def State.onIrq (f : Irq → Irq) (s : State) : State := { s with irq := f s.irq }

/-- A Culvert port. -/
def State.cport (s : State) (n : Nat) : CPort := mget CPort.reset s.cul.ports n

/-- DB_CMD and reply words of a doorbell window (12 R412). -/
def State.window (s : State) (w : Nat) : Window := mget Window.none s.tow.windows w

/-! Conditions (13 R450). -/

/-- Toggling sources: their levels after a comparison with what they last saw. -/
def Irq.toggle (i : Irq) (s : State) : Irq :=
  let blk := s.core.block.code
  let st (p : Nat) : Nat := match (s.core.slice p).st with
    | .dark => 0 | .waking => 1 | .ready => 2 | .serving => 3 | .draining => 4 | .spare => 5 | .proof => 6 | .sealed_ => 7
  let diff := s.core.host.present ^^^ i.seenPres
  { i with
    seenBlk := blk
    tgBlk := i.tgBlk != decide (i.seenBlk ≠ blk)
    seenSlice := foldS (fun p m => mset 0 m p (st p)) (List.range 18) i.seenSlice
    tgSlice := (List.range 18).foldl (fun (v : BitVec 18) p => if st p = mget 0 i.seenSlice p then v else v ^^^ oneHot 18 p) i.tgSlice
    seenPres := s.core.host.present
    tgFab := (setBits diff 64).foldl (fun (v : BitVec 4) l =>
      let b := oneHot 4 (s.core.fport (BitVec.ofNat 6 l))
      if (v ^^^ i.tgFab) &&& b = 0 then v ^^^ b else v) i.tgFab }

/-- LOG_SPILL's condition (16 R546). -/
def State.spillDue (s : State) : Bool :=
  let t := bits s.logCtl 31 8
  t != 0 && decide (t ≤ (s.watch.memWr - s.watch.memRd).toNat)

/-- The condition of a source (13 R450). -/
def State.cond (s : State) (i : Irq) (k : Nat) : Bool :=
  if k = 0 then bit (s.reg offIrqFlt) 0
  else if k = 1 then bit (s.reg offIrqFlt) 1
  else if k = 2 then s.core.flt.lost != 0
  else if k = 3 then i.tgBlk
  else if k = 4 then s.core.frz.st != 0
  else if k = 5 then s.core.pf.hold
  else if k = 6 then !s.core.failovers.isEmpty
  else if k < 16 then false
  else if k < 24 then (s.window (k - 16)).done
  else if k < 32 then (s.window (k - 24)).reply
  else if k < 38 then (s.cport (k - 32)).st = .active
  else if k < 44 then (s.cport (k - 38)).rxSwitch.isSome || (s.cport (k - 38)).txSwitch.isSome
  else if k < 48 then false
  else if k < 52 then i.tgFab.getLsbD (k - 48)
  else if k < 56 then s.core.postedOn (k - 52)
  else if k < 64 then false
  else if k < 82 then i.tgSlice.getLsbD (k - 64)
  else if k = 96 then !s.watch.wrap.isEmpty
  else if k = 97 then s.watch.done
  else if k = 98 then s.spillDue
  else if k = 99 then s.logStopped
  else if 112 ≤ k ∧ k < 128 then i.ext.getLsbD (k - 112)
  else false

/-- Whether a source exists, and whether it has a condition (13 R450). -/
def irqReserved (k : Nat) : Bool := (irqSenseReset k).isNone
def irqSoft (k : Nat) : Bool := 128 ≤ k

/-- IRQ_CFG of a source. -/
def State.irqCfg (s : State) (k : Nat) : Word := s.reg (0x10000 + k * 8)
def State.irqPrio (s : State) (k : Nat) : Nat := bits (s.irqCfg k) 7 4
def State.irqTarget (s : State) (k : Nat) : Nat := bits (s.irqCfg k) 10 8
/-- IRQ_MASK bit of a source. -/
def State.irqMasked (s : State) (k : Nat) : Bool := bit (s.reg (0x10800 + k / 64 * 8)) (k % 64)

/-- A target, its configuration, and its running priority (13 R459, R461). -/
def State.tgt (s : State) (t : Nat) : IrqTarget := mget IrqTarget.none s.irq.targets t
def State.tgtCfg (s : State) (t : Nat) : Word := s.reg (0x10C00 + t * 0x40)
def IrqTarget.running (x : IrqTarget) : Nat := match x.stack with
  | (p, _) :: _ => p
  | [] => 16
/-- Write a target. -/
def State.putTgt (t : Nat) (x : IrqTarget) (s : State) : State :=
  s.onIrq (fun i => { i with targets := mset IrqTarget.none i.targets t x })

/-- Whether a source is deliverable to a target, by the state at the end of a cycle (13 R456). -/
def State.deliverable (s : State) (t k : Nat) : Bool :=
  s.irq.pend.getLsbD k && !s.irqMasked k && s.irqTarget k = t && bit (s.tgtCfg t) 0 && !mhas s.irq.hold (k / 16) &&
    decide (s.irqPrio k < (s.tgt t).running)

/-- The selected source of a target: the smallest PRIO, and of those the smallest ID (13 R456). -/
def State.selected (s : State) (t : Nat) : Option Nat :=
  pickBy (fun a b => decide (s.irqPrio a < s.irqPrio b) || (s.irqPrio a = s.irqPrio b && decide (a < b)))
    ((setBits s.irq.pend 256).filter (s.deliverable t))

/-! Claims, pushes and EOIs (13 R460 to R465). -/

/-- Push a priority and an ID; a full stack counts in OVER and raises IRQ_STACK (13 R461). -/
def State.irqPush (t prio id : Nat) (s : State) : State :=
  let x := s.tgt t
  if 16 ≤ x.stack.length then (s.putTgt t { x with overflow := Nat.min 255 (x.overflow + 1) }).raise famIrqStack t
  else s.putTgt t { x with stack := (prio, id) :: x.stack }

/-- A claim: the value IRQ_CLAIM reads, and what it changes (13 R460). -/
def State.irqClaim (t : Nat) (s : State) : Word × State :=
  let clear (s : State) : State := s.putTgt t { s.tgt t with sent := false }
  match s.selected t with
  | none => (0x3FF, s)
  | some k =>
    let prio := s.irqPrio k
    let us := bits (s.reg (0x10A00 + k / 16 * 8)) 11 0
    let tb := s.core.tb
    let s := s.onIrq (fun i => { i with
      pend := clearBit i.pend k
      claimed := setBit i.claimed k
      hold := if us = 0 then i.hold else mput i.hold (k / 16) (tb + us * 100) })
    (at' k 0 ||| at' prio 16, (clear s).irqPush t prio k)

/-- An EOI (13 R461). -/
def State.irqEoi (t : Nat) (s : State) : State :=
  let x := { s.tgt t with sent := false }
  if x.overflow != 0 then s.putTgt t { x with overflow := x.overflow - 1 }
  else match x.stack with
    | _ :: l => s.putTgt t { x with stack := l }
    | [] => s.putTgt t { x with under := true }

/-- A push by IRQ_RAISE (13 R462). -/
def State.irqRaise (t prio : Nat) (s : State) : State := if prio ≤ (s.tgt t).running then s.irqPush t prio 0x3FF else s

/-- A write of IRQ_PEND(k) (13 R454, R467): reserved sources ignore it. -/
def State.irqPendWrite (k : Nat) (v : Word) (s : State) : State :=
  let ids := ((List.range 64).map (fun j => 64 * k + j)).filter (fun i => !irqReserved i)
  let pend := s.irq.pend
  let one (i : Nat) : Bool := v.getLsbD (i % 64)
  s.onIrq (fun x => { x with
    pend := ids.foldl (fun (p : BitVec 256) i => putBit p i (one i)) x.pend
    wset := ids.foldl (fun (p : BitVec 256) i => if one i && !pend.getLsbD i then setBit p i else p) x.wset })

/-- A hold-off timer ends (13 R465). -/
def State.holdoffEnd (g : Nat) (s : State) : State := s.onIrq (fun i => { i with hold := merase i.hold g })

/-! Messages (13 R458). -/

/-- Present a target's message. -/
def State.irqPresent (t : Nat) (s : State) : State :=
  let addr : Word := at' (bits (s.reg (0x10C08 + t * 0x40)) 55 2) 2
  let data : BitVec 32 := BitVec.ofNat 32 (bits (s.reg (0x10C10 + t * 0x40)) 31 0)
  let x := s.tgt t
  let m : IMsg := ⟨bits (s.tgtCfg t) 3 2, addr, data⟩
  (s.putTgt t { x with sent := true, wait := some m }).onCore (Core.emit (.imsg t addr data))

/-- The fabric takes the message presented on a port: of several, the lowest target's. -/
def State.imsgTaken (f : Nat) (s : State) : State :=
  match (List.range 8).find? (fun t => match (s.tgt t).wait with
    | some m => m.port = f
    | none => false) with
  | some t => s.putTgt t { s.tgt t with wait := none }
  | none => s

/-- RESEND_US has passed without a claim or an EOI (13 R458). -/
def State.imsgResend (t : Nat) (s : State) : State :=
  let c := s.tgtCfg t
  if bit c 1 && bits c 15 4 != 0 && (s.tgt t).sent && (s.tgt t).wait.isNone && (s.selected t).isSome then s.irqPresent t else s

/-! The cycle that ends a command (13 R451, R452, R457, R458, R467). -/

/-- Whether a sample under a sense is an event. -/
def irqEvent (sense : Nat) (was now : Bool) : Bool :=
  if sense = 2 then was && !now else if sense = 3 then was != now else !was && now

/-- One source's sample: level, event counter and pending bit. -/
def State.irqSample (s : State) (i : Irq) (k : Nat) : Irq :=
  if irqSoft k || irqReserved k then i
  else
    let now := s.cond i k
    let was := i.level.getLsbD k
    let sense := bits (s.irqCfg k) 1 0
    let ev := irqEvent sense was now
    let held := i.pend.getLsbD k
    let pend := if sense = 0 then (if now then held || !i.claimed.getLsbD k else held && i.wset.getLsbD k) else held || ev
    { i with
      level := putBit i.level k now
      count := if ev then mset 0 i.count k (Nat.min 255 (mget 0 i.count k + 1)) else i.count
      pend := putBit i.pend k pend }

/-- Every source is sampled. -/
def State.irqSampleAll (s : State) : State :=
  let i := s.irq.toggle s
  let i := (List.range 128).foldl s.irqSample i
  { s with irq := { i with claimed := 0, wset := 0 } }

/-- Targets with a deliverable source. -/
def State.delivNow (s : State) : BitVec 8 :=
  (List.range 8).foldl (fun (v : BitVec 8) t => if (s.selected t).isSome then setBit v t else v) 0

/-- A message-signalled target presents its message in a cycle in which it has a deliverable source, SENT is 0 and none waits. -/
def State.irqSend (s0 : State) (deliv : BitVec 8) (t : Nat) (s : State) : State :=
  if bit (s0.tgtCfg t) 1 && bit (s.tgtCfg t) 1 && deliv.getLsbD t && !(s0.tgt t).sent && (s0.tgt t).wait.isNone then s.irqPresent t else s

/-- The lines as driven: what was deliverable in the cycle before, of wired and enabled targets (13 R457). -/
def State.irqOut (s : State) : BitVec 8 :=
  (List.range 8).foldl (fun (v : BitVec 8) t =>
    if s.irq.deliv.getLsbD t && bit (s.tgtCfg t) 0 && !bit (s.tgtCfg t) 1 then setBit v t else v) 0

/-- The controller's cycle: s0 is the state at the end of the cycle before. -/
def State.irqCycle (s0 s : State) : State :=
  let deliv := s0.delivNow
  let out := s.irqOut
  let s := s.irqSampleAll
  let s := foldS (State.irqSend s0 deliv) (List.range 8) s
  s.onIrq (fun i => { i with deliv := deliv, out := out })

/-- The slots that fired are handed to the controller at the end of INIT (13 R469). -/
def State.irqWake (s : State) : State :=
  let src (k : Nat) : Nat := bits (s.reg (0x30400 + k * 8)) 15 8
  let ks := (setBits s.pwr.fired 16).filter (fun k => !irqReserved (src k))
  let i := ks.foldl (fun (i : Irq) k => { i with pend := setBit i.pend (src k), count := mset 0 i.count (src k) 1 }) s.irq
  { s with irq := i }

/-! What its registers read (13 R454, R463, R466). -/

/-- IRQ_PEND or IRQ_LEVEL: 64 bits of a vector of sources. -/
def irqWord (v : BitVec 256) (k : Nat) : Word := v.extractLsb' (64 * k) 64

/-- IRQ_COUNT(k). -/
def State.irqCount (s : State) (k : Nat) : Word :=
  (List.range 8).foldl (fun (w : Word) j => w ||| at' (mget 0 s.irq.count (8 * k + j)) (8 * j)) 0

/-- Clear IRQ_COUNT(k) after its read. -/
def State.irqCountClear (k : Nat) (s : State) : State :=
  s.onIrq (fun i => { i with count := foldS (fun j m => mset 0 m (8 * k + j) 0) (List.range 8) i.count })

/-- TGT_STAT(t). -/
def State.tgtStat (s : State) (t : Nat) : Word :=
  let x := s.tgt t
  let top := match x.stack with
    | (_, i) :: _ => i
    | [] => 0x3FF
  at' x.running 0 ||| at' x.stack.length 5 ||| at' x.overflow 10 ||| at' top 18 ||| at' x.sent.toNat 28 ||| at' x.under.toNat 29 |||
    at' (s.selected t).isSome.toNat 30

/-- TGT_PRIOS(t): entry 0 is the bottom. -/
def State.tgtPrios (s : State) (t : Nat) : Word :=
  let l := (s.tgt t).stack.reverse
  (List.range 16).foldl (fun (w : Word) j => w ||| at' ((l.getD j (0xF, 0)).1) (4 * j)) 0

/-- IRQ_GROUP(g).REMAIN_US: µs left, rounded up. -/
def State.holdRemain (s : State) (g : Nat) : Nat :=
  match mfind s.irq.hold g with
  | some t => Nat.min 4095 ((t - s.core.tb + 99) / 100)
  | none => 0

end Sys2Proof.Machine
end

