-- ==== Sys2Proof/Machine/Tow.lean ====
section
/-!
DEFINITION. Sys2Proof/Machine/Tow.lean: the ends of Towpath's transports: replies, completions and tags (12 R402 to R413, R423, 18 R586).
-/
namespace Sys2Proof.Machine

/-! Status codes (12 R405). -/

def tsOk : BitVec 8 := 0x00
def tsAccepted : BitVec 8 := 0x01
def tsBadOpcode : BitVec 8 := 0x10
def tsBadParam : BitVec 8 := 0x11
def tsBadLength : BitVec 8 := 0x12
def tsWrongState : BitVec 8 := 0x20
def tsBusy : BitVec 8 := 0x21
def tsDenied : BitVec 8 := 0x30
def tsLocked : BitVec 8 := 0x31
def tsFailed : BitVec 8 := 0x40
def tsSignature : BitVec 8 := 0x41

/-- Update the transports. -/
def State.onTow (f : Tow → Tow) (s : State) : State := { s with tow := f s.tow }
/-- Write a doorbell window. -/
def State.putWindow (w : Nat) (x : Window) (s : State) : State := s.onTow (fun t => { t with windows := mset Window.none t.windows w x })

/-- A value the spec leaves open: a fresh free word. -/
def State.freeWord (s : State) : Word × State :=
  (Config.freeWord s.core.freeCtr, s.onCore (fun c => { c with freeCtr := c.freeCtr + 1 }))

/-- Words of replies go out while the streaming port holds reply-word credits, one credit a word (18 R586). -/
def flushWords : Nat → List (Option (BitVec 8) × List Word) → List Word × Nat × List (Option (BitVec 8) × List Word)
  | c, [] => ([], c, [])
  | c, (t, r) :: l =>
    if r.length ≤ c then
      let x := flushWords (c - r.length) l
      (r ++ x.1, x.2.1, x.2.2)
    else (r.take c, 0, (t, r.drop c) :: l)

/-- Send what the streaming port may send. -/
def State.flushReplies (s : State) : State :=
  let x := flushWords s.tow.rplCrd s.tow.replies
  (s.onTow (fun t => { t with rplCrd := x.2.1, replies := x.2.2 })).onCore (foldS (fun w => Core.emit (.reply 0 [w])) x.1)

/-- Put words into a window's DB_DATA (12 R412). -/
def dataWords (m : Map Word) (l : List Word) : Map Word :=
  ((List.range l.length).zip l).foldl (fun m e => mset 0 m e.1 e.2) m

/-- Byte i of words, least significant byte first, or 0xFF beyond them (12 R413). -/
def byteOf (l : List Word) (i : Nat) : BitVec 8 :=
  match l[i / 8]? with
  | some w => w.extractLsb' (8 * (i % 8)) 8
  | none => 0xFF

/-- A read transfer returns n bytes of words. -/
def State.wireOut (l : List Word) (n : Nat) (s : State) : State :=
  s.onCore (foldS (fun i => Core.emit (.twoWire (byteOf l i))) (List.range n))

/-- A read transfer that stretches SCL ends once the reply is ready. -/
def State.wireReady (s : State) : State :=
  match s.tow.wireRead, s.tow.wire with
  | some n, some l => (s.onTow (fun t => { t with wireRead := none })).wireOut l n
  | _, _ => s

/-- A first, only or completion reply goes to its transport (12 R410 to R413). -/
def State.sendReply (v : Via) (r : Reply) (s : State) : State :=
  match v with
  | .stream => (s.onTow (fun t => { t with replies := t.replies ++ [(if r.kind = 2 then some r.tag else none, r.words)] })).flushReplies
  | .window w =>
    let x := s.window w.val
    s.putWindow w.val { x with
      rpl0 := r.words.headD 0, rpl1 := r.result, data := dataWords x.data r.payload, busy := false, reply := true }
  | .wire => (s.onTow (fun t => { t with wire := some r.words })).wireReady

/-- How the latest command taken from a transport stands (12 R403). -/
def State.setPrev (v : Via) (p : Prev) (s : State) : State := s.onTow (fun t => { t with prev := mset Prev.none t.prev (viaCode v) p })

/-- Two sources of one transport: the eight windows share theirs (12 R408, R410). -/
def viaSame (a b : Via) : Bool := viaCode a = viaCode b

/-- A command that was accepted, or whose reply was still to come, has ended (12 R407, R408, R423). -/
def State.complete (id : Nat) (status : BitVec 8) (result : Word) (payload : List Word) (s : State) : State :=
  match s.tow.running.find? (fun r => r.id = id) with
  | none => s
  | some r =>
    let s := s.onTow (fun t => { t with running := t.running.filter (fun q => q.id != id) })
    let s := if mget Prev.none s.tow.prev (viaCode r.via) = .run id then s.setPrev r.via (if status = tsOk then .ok else .bad) else s
    if !r.long then s.sendReply r.via ⟨r.op, r.tag, status, 0, result, payload⟩
    else if !r.live then s
    else match r.via with
      | .stream => s.sendReply .stream ⟨r.op, r.tag, status, 2, result, payload⟩
      | .window w =>
        let s := s.onTow (fun t => { t with held := t.held ++ [⟨r.via, r.tag, status, result, payload⟩] })
        s.putWindow w.val { s.window w.val with done := true }
      | .wire => s.onTow (fun t => { t with held := t.held ++ [⟨r.via, r.tag, status, result, payload⟩] })

/-- A command has failed in a way for which the spec gives no RESULT: it is open. -/
def State.completeFree (id : Nat) (status : BitVec 8) (s : State) : State :=
  let (w, s) := s.freeWord
  s.complete id status w []

/-- Whether a command still runs. -/
def State.runs (s : State) (id : Nat) : Bool := s.tow.running.any (fun r => r.id = id)

/-- An optional command has ended. -/
def State.completeOpt (c : Option Nat) (status : BitVec 8) (result : Word) (s : State) : State :=
  match c with
  | some id => s.complete id status result []
  | none => s

/-- A tag is in use on its transport from ACCEPTED until its completion is delivered or read (12 R408). -/
def State.tagUsed (s : State) (v : Via) (tag : BitVec 8) : Bool :=
  s.tow.running.any (fun r => r.long && r.live && viaSame r.via v && r.tag = tag) || s.tow.held.any (fun h => viaSame h.via v && h.tag = tag) ||
    (v = .stream && s.tow.replies.any (fun e => e.1 = some tag))

/-- The platform returns one reply-word credit (18 R586). -/
def State.rplCredit (s : State) : State := (s.onTow (fun t => { t with rplCrd := t.rplCrd + 1 })).flushReplies

end Sys2Proof.Machine
end

