-- ==== Sys2Proof/Machine/Galley.lean ====
section
/-!
DEFINITION. Sys2Proof/Machine/Galley.lean: the Galley pairs: sequencing of microwords, the lockstep pair, images, cut-over and PROOF (10 R323 to
R356).
-/
namespace Sys2Proof.Machine

/-! Images (10 R345). The fields lie in the 64-bit words of the image as loaded. -/

def Store.word (x : Store) (i : Nat) : Nat := (x.words.getD i 0).toNat
/-- IMAGE_ID, FORMAT, WORDS and KEY_SLOT. -/
def Store.imageId (x : Store) : Nat := x.word 1 / 2 ^ 32
def Store.format (x : Store) : Nat := x.word 2 % 2 ^ 16
def Store.count (x : Store) : Nat := x.word 2 / 2 ^ 16 % 2 ^ 16
def Store.keySlot (x : Store) : Nat := x.word 2 / 2 ^ 32 % 2 ^ 8
/-- Dispatch entry k (10 R324). -/
def Store.entry (x : Store) (k : Nat) : Nat := x.word (32 + k / 4) / 2 ^ (16 * (k % 4)) % 2 ^ 16
/-- Low 64 bits of control store word i, which hold its sequencing fields (10 R326, R327): an address above the last word reads SEQ 0xF. -/
def Store.micro (x : Store) (i : Nat) : Nat := if i < x.count then x.word (96 + 2 * i) else 0xF
/-- A store that holds a whole image. -/
def Store.holds (x : Store) : Bool := x.st = .verified || x.st = .inProof

/-- GAL_IMAGE or GAL_STANDBY (10 R356). -/
def Store.describe (x : Store) : Word := if x.holds then at' x.imageId 0 ||| at' x.format 32 ||| at' (x.count % 2 ^ 13) 48 else 0

/-! Sequencing (10 R324 to R334). -/

/-- The context of a message in the pipeline (10 R323), with the words it has executed and the shadow of a SETMODE. -/
structure UCtx where
  pc : Nat
  inSlot : Bool
  slotTarget : Nat
  armed : Bool
  loopStart : Nat
  loopLast : Nat
  loopCount : Nat
  stack : List Nat
  mode : GalMode
  /-- Words left of a SETMODE shadow, and the mode it leads to. -/
  shadow : Nat
  next : GalMode
  done : Nat
  free : Nat
  deriving DecidableEq, Repr

/-- How a program ends: by END in a mode, or by an exception at a micro-PC; with the counter of free values. -/
inductive UEnd where
  | ended (m : GalMode) (free : Nat)
  | illegal (pc : Nat) (free : Nat)
  deriving DecidableEq, Repr

/-- MODE codes of SETMODE (10 R326). -/
def galModeOf (n : Nat) : GalMode := if n = 0 then .service else if n = 1 then .startup else if n = 2 then .test else .recovery
def GalMode.code : GalMode → Nat
  | .service => 0 | .startup => 1 | .test => 2 | .recovery => 3

/-- Fields of a microword (10 R326). -/
def uSeq (w : Nat) : Nat := w % 16
def uTarget (w : Nat) : Nat := w / 2 ^ 4 % 2 ^ 12
def uSense (w : Nat) : Bool := w.testBit 22
def uCount (w : Nat) : Nat := w / 2 ^ 23 % 2 ^ 12
def uMode (w : Nat) : Nat := w / 2 ^ 35 % 4

/-- Placements that raise the illegal-microcode exception, beside those that the sequencing itself finds (10 R325, R327, R331). -/
def UCtx.misplaced (c : UCtx) (w : Nat) : Bool :=
  let k := uSeq w
  10 ≤ k || (c.inSlot && k != 0) || (c.armed && c.pc = c.loopLast && (k != 0 || c.inSlot)) ||
    (c.shadow != 0 && (k = 7 || k = 8)) || (k = 8 && c.mode = .service) || (k = 6 && c.armed) ||
    (c.mode = .service && decide (8 ≤ c.done)) || (k = 3 && decide (4 ≤ c.stack.length)) || (k = 4 && c.stack.isEmpty)

/-- Whether an address lies in the body of the armed loop. -/
def UCtx.inLoop (c : UCtx) (t : Nat) : Bool := c.loopStart ≤ t && t ≤ c.loopLast

/-- Leave by a delay slot (10 R328); a taken jump out of the loop's body disarms it (10 R330). -/
def UCtx.delay (c : UCtx) (target : Nat) (leaves : Bool) : UCtx :=
  { c with
    inSlot := true
    slotTarget := target
    armed := c.armed && !(leaves && !c.inLoop target)
    pc := (c.pc + 1) % 2 ^ 12 }

/-- The next context after a legal word (10 R330); a DISPATCH to an entry with VALID 0 gives none. -/
def UCtx.next? (c : UCtx) (x : Store) (op w : Nat) : Option UCtx :=
  let seq := (c.pc + 1) % 2 ^ 12
  if c.inSlot then some { c with inSlot := false, pc := c.slotTarget }
  else if c.armed && c.pc = c.loopLast && decide (1 < c.loopCount) then some { c with loopCount := c.loopCount - 1, pc := c.loopStart }
  else
    let c := if c.armed && c.pc = c.loopLast then { c with loopCount := 0, armed := false } else c
    match uSeq w with
    | 1 => some (c.delay (uTarget w) true)
    | 2 =>
      let taken := Config.freeBit c.free = uSense w
      let c := { c with free := c.free + 1 }
      some (if taken then c.delay (uTarget w) true else { c with pc := seq })
    | 3 => some (({ c with stack := (c.pc + 2) % 2 ^ 12 :: c.stack }).delay (uTarget w) false)
    | 4 => some (({ c with stack := c.stack.tail }).delay (c.stack.headD 0) false)
    | 5 => let e := x.entry op
           if e.testBit 12 then some (c.delay (e % 2 ^ 12) true) else none
    | 6 => if uCount w = 0 then some { c with pc := (uTarget w + 1) % 2 ^ 12 }
           else some { c with armed := true, loopStart := seq, loopLast := uTarget w, loopCount := uCount w, pc := seq }
    | 7 => some { c with shadow := 3, next := galModeOf (uMode w), pc := seq }
    | _ => some { c with pc := seq }

/-- A SETMODE's change comes after two more words (10 R333). -/
def UCtx.tick (c : UCtx) : UCtx :=
  if c.shadow = 1 then { c with shadow := 0, mode := c.next } else { c with shadow := c.shadow - 1 }

/-- Run a program to its END. A WAIT ends at once; a program that has not ended with the fuel counts as ended. -/
def uRun (x : Store) (op : Nat) : Nat → UCtx → UEnd
  | 0, c => .ended c.mode c.free
  | n + 1, c =>
    let w := x.micro c.pc
    if c.misplaced w then .illegal c.pc c.free
    else if uSeq w = 9 then .ended (if c.shadow = 0 then c.mode else c.next) c.free
    else match c.next? x op w with
      | none => .illegal c.pc c.free
      | some d =>
        let d := { d with done := c.done + 1 }
        uRun x op n (if d.shadow = 0 then d else d.tick)

/-- Most words that the model runs of one program outside SERVICE. -/
def uFuel : Nat := 4096

/-- A message of an opcode enters stage 0 (10 R324). -/
def uEnter (x : Store) (mode : GalMode) (op free : Nat) : UEnd :=
  let e := x.entry op
  if !e.testBit 12 then .illegal 0 free
  else uRun x op uFuel ⟨e % 2 ^ 12, false, 0, false, 0, 0, 0, [], mode, 0, mode, 0, free⟩

/-! The pair. -/

/-- A Galley pair, and writing it. -/
def State.gal (s : State) (p : Nat) : Gal := mget Gal.reset s.gals p
def State.onGal (p : Nat) (f : Gal → Gal) (s : State) : State := { s with gals := mset Gal.reset s.gals p (f (s.gal p)) }
def State.onSlice (p : Nat) (f : Slice → Slice) (s : State) : State := s.onCore (Core.onSlice p f)
def State.slice (s : State) (p : Nat) : Slice := s.core.slice p

/-- Whether the pair of a slice runs: domain 3p is on and the slice is neither waking nor SEALED. -/
def State.galRuns (s : State) (p : Nat) : Bool :=
  let x := s.slice p
  s.core.doms.getLsbD (3 * p) && x.st != .dark && x.st != .waking && x.st != .sealed_ && !s.core.stopped

/-- Counters of GAL_CNT saturate (10 R356). -/
def sat16 (n : Nat) : Nat := Nat.min 0xFFFF n

/-- A rewind (10 R338): the window's items are discarded, the checkpoint is restored, and the window runs again on the same inputs, which commits
the same items and leaves the same state. -/
def State.galRewind (p : Nat) (s : State) : State :=
  ((s.onGal p (fun g => { g with rewinds := sat16 (g.rewinds + 1) })).onCore (Core.bump p 0x040 1)).raise famGalleyRewind p

/-- A register put right by the sweep (10 R341). -/
def State.galFix (p : Nat) (s : State) : State :=
  (s.onGal p (fun g => { g with sweepFix := sat16 (g.sweepFix + 1) })).raise famGalleySweep p

/-- A proof log entry (10 R353). -/
def proofEntry (tick : Stamp) (d : Divergence) : BitVec 256 :=
  (0 : BitVec 4) ++ d.line ++ d.agent ++ d.checkValue ++ d.leadValue ++ d.checkPc ++ d.leadPc ++ d.opcode ++ d.kind ++ tick

/-- A divergence in PROOF (10 R352, R353). -/
def State.galDiverge (p : Nat) (d : Divergence) (s : State) : State :=
  let first := !(s.gal p).diverged
  let tick := s.core.host.tick
  let s := s.onGal p (fun g => { g with
    divergences := sat16 (g.divergences + 1)
    diverged := true
    stopped := g.stopped || d.kind = 4
    log := if first && decide (g.log.length < 256) then g.log ++ [proofEntry tick d] else g.log })
  if first then s.raise famProofDiverge p else s

/-- A resync copies the lead into the check copy (10 R352). -/
def State.galResync (p : Nat) (s : State) : State :=
  s.onGal p (fun g => { g with diverged := false, stopped := false, checkMode := (s.slice p).mode, checkRegs := g.regs })

/-- Exchange the banks (10 R344, R350): the replaced image stays in the standby store. -/
def State.galExchange (p : Nat) (s : State) : State :=
  let s := s.onSlice p (fun x => { x with
    control := { x.standby with st := .verified }
    standby := { x.control with st := if x.control.st = .empty then .empty else .verified } })
  s.onGal p (fun g => { g with bank := !g.bank })

/-- PROOF_STAT (10 R356). -/
def State.proofStat (s : State) (p : Nat) : Word :=
  let g := s.gal p
  at' g.log.length 0 ||| at' g.expired.toNat 9 ||| at' g.abandoned.toNat 10

/-- PROOF ends: the pair is whole again, and the slice is in the state it came from (10 R354). -/
def State.galRejoin (p : Nat) (s : State) : State :=
  let s := (s.galResync p).onGal p (fun g => { g with split := false })
  s.onSlice p (fun x => { x with
    st := if x.st = .proof then (if x.proofServing then .serving else .spare) else x.st
    proofServing := false
    standby := if x.standby.st = .inProof then { x.standby with st := .verified } else x.standby })

/-- An end of PROOF, by cut-over or re-join. -/
def State.galProofEnd (p : Nat) (cut : Bool) (cmd : Option Nat) (s : State) : State :=
  let s := s.galRejoin p
  let s := if cut then s.galExchange p else s
  s.completeOpt cmd tsOk (s.proofStat p)

/-- PROOF is abandoned: a command that waits for its end ends with FAILED (10 R355). -/
def State.galAbandon (p : Nat) (s : State) : State :=
  let l := (s.gal p).wants
  let s := (s.galRejoin p).onGal p (fun g => { g with abandoned := true, wants := [] })
  foldS (fun (w : GalWant) s => match w with
    | .cut c => s.complete c tsFailed (s.slice p).control.describe []
    | .proofEnd _ c => s.completeOpt c tsFailed (s.proofStat p)) l s

/-! Messages entering the pair (10 R324, R332, R343, R352). -/

/-- The next free values are those from n on. -/
def State.freeFrom (n : Nat) (s : State) : State := s.onCore (fun c => { c with freeCtr := n })

/-- The program of an opcode in the check copy of a split pair, which runs the standby image (10 R352). DESIGN CHOICE, log 77: CHECK_VALUE,
LEAD_VALUE and LEAD_PC of an entry of KIND 0x04 are free. -/
def State.galCheck (p op : Nat) (agent : AgentId) (line : LineAddr) (s : State) : State :=
  let g := s.gal p
  if !g.split || g.stopped then s
  else match uEnter (s.slice p).standby g.checkMode op s.core.freeCtr with
    | .ended m n => (s.freeFrom (n + 1)).onGal p (fun g => { g with checkMode := m, checkRegs := n })
    | .illegal pc n =>
      let (a, s) := (s.freeFrom n).freeWord
      let (b, s) := s.freeWord
      let (c, s) := s.freeWord
      s.galDiverge p ⟨4, BitVec.ofNat 8 op, a.setWidth 12, BitVec.ofNat 12 pc, b, c, agent, line⟩

/-- The program of an opcode runs in the control store, and in PROOF in the standby store beside it. Answers whether the message goes on. -/
def State.galEnter (p op : Nat) (agent : AgentId) (line : LineAddr) (s : State) : Bool × State :=
  let x := s.slice p
  match uEnter x.control x.mode op s.core.freeCtr with
  | .illegal _ n => (false, (s.freeFrom n).raise famGalleyIllegal p)
  | .ended m n =>
    let s := ((s.freeFrom (n + 1)).onGal p (fun g => { g with regs := n })).galCheck p op agent line
    (true, s.onSlice p (fun x => { x with mode := m }))

/-- The mode event, internal opcode 0xF0 (10 R332): both copies run their images' programs for it, which end with SETMODE in the mode that the
slice's work needs. With no image in the control store there is no program to run. DEDUCED, log 84: the mode is the one that R332 says is in
force. -/
def State.galMode (p code : Nat) (s : State) : State :=
  let m := galModeOf code
  if !s.galRuns p then s
  else
    let (go, s) := if (s.slice p).control.holds then s.galEnter p 0xF0 0 0 else (true, s)
    if go then (s.onGal p (fun g => { g with checkMode := if g.split && g.stopped then g.checkMode else m })).onSlice p (fun x => { x with mode := m })
    else s

/-- What the fetch of control store words finds (10 R343). Answers whether the message goes on. -/
def State.galFetch (p : Nat) (r : CsRead) (s : State) : Bool × State :=
  match r with
  | .clean => (true, s)
  | .ce => (true, (s.onGal p (fun g => { g with csCorr := sat16 (g.csCorr + 1) })).raise famGalleyCsCe p)
  | .ue => (false, s.raise famGalleyCsUe p)

/-- Opcode, agent and line of what a slice would take; none for an internal operation. -/
def pickHead (k : Pick) : Option (Nat × AgentId × LineAddr) :=
  match k with
  | .snoop i => some (i.op.toNat, i.h.agent, i.h.line)
  | .berth r => some (r.op.toNat, r.h.agent, r.h.line)
  | .internal _ => none

/-- The item that an admission cycle takes: the one that an earlier cycle selected, if it is still eligible, else the present choice (06 R203). The
outer option is none when there is nothing to take, the inner one when the selected item has lost its eligibility. -/
def Core.admitting (s : Core) (p : Nat) : Option (Option Pick) :=
  match (s.slice p).selected with
  | some k => some (s.picked p k)
  | none => (s.choice p).map some

/-- The admission of an item, through the Galley (06 R202, 10 R323). -/
def State.admitItem (p : Nat) (k : Pick) (r : CsRead) (err : Option HalfErr) (s : State) : State :=
  let s := if (pickHead k).isSome then s.onCore (Core.halfErr 0 err) else s
  let (go, s) := s.galFetch p r
  if !go || s.core.stopped then s
  else match pickHead k with
    | none => s.onCore (Core.admitPick p k)
    | some (op, agent, line) =>
      let (go, s) := s.galEnter p op agent line
      if go then s.onCore (Core.admitPick p k) else s

/-- One cycle of a slice's arbiter (06 R202, R203). With select it selects the item of its next admission from the state at its start, other than
the item that this cycle admits, and holds it: as the first cycle of a slice whose arbiter holds no item, it selects only. A held item that is
no longer eligible cancels the admission. -/
def State.admission (p : Nat) (select : Bool) (r : CsRead) (err : Option HalfErr) (s : State) : State :=
  if s.core.stopped then s
  else
    let held := (s.slice p).selected
    let next := if select then (s.core.choice p held).map Pick.sel else none
    let s' := s.onSlice p (fun x => { x with selected := next })
    if select && held.isNone then s'
    else match s.core.admitting p with
      | none => s'
      | some none => s'.onCore (Core.bump p 0x004 1)
      | some (some k) => s'.admitItem p k r err

/-! Windows, sweeps and stalls (10 R335 to R343). -/

/-- The 64-bit signature of a run of bits (10 R335). -/
def signature (bits : List Bool) : BitVec 64 := crc64 bits 0

/-- The bits of a window's items, in commit order. -/
def Gal.bits (g : Gal) : List Bool := g.items.flatMap itemBits

/-- A run of bits with those at some places flipped; a place past its end stands for what one copy committed and the other did not. -/
def flipBits (bits : List Bool) (flips : List Nat) : List Bool :=
  (List.range (flips.foldl (fun n i => Nat.max n (i + 1)) bits.length)).map (fun i => bits.getD i false != flips.contains i)

/-- Whether the copies' signatures differ when errors struck some bits in one of them. -/
def Gal.differs (g : Gal) (flips : List Nat) : Bool := !flips.isEmpty && signature (flipBits g.bits flips) != signature g.bits

/-- GAL_CTL.WINDOW as it acts (10 R356). -/
def winLimit (w : Word) : Nat := Nat.min 256 (Nat.max 8 (bits w 8 0))

/-- The window has closed and its held items are released; the next one opens with a checkpoint (10 R336, R337, R340). -/
def State.galRelease (p : Nat) (s : State) : State :=
  let x := s.slice p
  s.onGal p (fun g => { g with
    items := []
    under := none
    opened := x.clock
    limit := winLimit (s.reg (0x100A00 + p * 0x10000))
    ckpt := ⟨x.mode, if g.split then g.checkMode else x.mode, g.regs, g.checkRegs⟩ })

/-- The arrays of a slice as another record of it holds them. -/
def Slice.arrays (x u : Slice) : Slice :=
  { x with
    hs := u.hs
    hsTree := u.hsTree
    ls := u.ls
    lsTree := u.lsTree
    spillCnt := u.spillCnt
    spill := u.spill
    chambers := u.chambers
    barges := u.barges
    skl := u.skl
    pred := u.pred }

/-- A window that is beyond rewind: its held writes are never applied, and the checkpoint stands (10 R338, R339). -/
def State.galDiscard (p : Nat) (s : State) : State :=
  let g := s.gal p
  let s := match g.under with
    | none => s
    | some u => s.onSlice p (fun x => x.arrays u)
  (s.onSlice p (fun x => { x with mode := g.ckpt.mode })).onGal p (fun g => { g with
    items := [], under := none, regs := g.ckpt.regs, checkRegs := g.ckpt.checkRegs, checkMode := g.ckpt.checkMode })

/-- Whether GAL_INJECT has forced a difference that a window's items show: its PATH is an output or a state write, and the window has one
(10 R342, R356). -/
def State.galInjected (s : State) (p : Nat) : Bool :=
  let g := s.gal p
  let path := bits (s.reg (0x100A28 + p * 0x10000)) 2 1
  g.inject && path != 2 && g.items.any (fun c => c.isOut = (path != 1))

/-- A window closes, and the copies compare (10 R336 to R339, R342, R352): a difference rewinds the pair, a second one is beyond rewind. In PROOF
the lead's items are released as they stand. -/
def State.galClose (p : Nat) (v : WinSeen) (s : State) : State :=
  let g := s.gal p
  if g.split then
    (match v with
      | .diverge d => if g.stopped then s else s.galDiverge p d
      | .struck _ _ => s).galRelease p
  else match v with
    | .diverge _ => s.galRelease p
    | .struck first second =>
      let hit := s.galInjected p
      if !hit && !g.differs first then s.galRelease p
      else
        let s := (s.onGal p (fun g => { g with inject := g.inject && !hit })).galRewind p
        if g.differs second then (s.galDiscard p).raise famGalleyHard p else s.galRelease p

/-- GALLEY_WINDOW_CLOSE: the window under way closes. -/
def State.galWindow (p : Nat) (v : WinSeen) (s : State) : State := if s.galRuns p then s.galClose p v else s

/-- The WINDOW sc of the window under way have passed (10 R336). -/
def State.galTick (p : Nat) (s : State) : State :=
  if s.galRuns p && decide ((s.gal p).opened + (s.gal p).limit ≤ (s.slice p).clock) then s.galClose p (.struck [] []) else s

/-- A message leaves the slice: the window holds it. -/
def State.galSends (p : Nat) (m : Msg) (s : State) : State :=
  if p < 18 && s.galRuns p then s.onGal p (fun g => { g with items := g.items ++ [.msg m] }) else s

/-- The keys at which two sparse arrays differ, with what the second holds there. -/
def mdiff {α : Type} [DecidableEq α] (a b : Map α) : List (Nat × Option α) :=
  let gone := (a.filter (fun e => !mhas b e.1)).map (fun e => (e.1, none))
  gone ++ (b.filter (fun e => decide (mfind a e.1 ≠ some e.2))).map (fun e => (e.1, some e.2))

/-- The state writes of a step to a slice's arrays (10 R335). -/
def Slice.commits (x y : Slice) : List GalItem :=
  (mdiff x.hs y.hs).map (fun e => .homeWay e.1 e.2) ++ (mdiff x.hsTree y.hsTree).map (fun e => .homeTree e.1 e.2) ++
    (mdiff x.ls y.ls).map (fun e => .localWay e.1 e.2) ++ (mdiff x.lsTree y.lsTree).map (fun e => .localTree e.1 e.2) ++
    (mdiff x.spillCnt y.spillCnt).map (fun e => .spillCount e.1 e.2) ++ (if x.spill = y.spill then [] else [.spill y.spill]) ++
    (if x.chambers = y.chambers then [] else [.chambers y.chambers]) ++
    ((x.barges.filter (fun b => !y.barges.any (fun c => c.id = b.id))).map (fun b => .barge b.id none)) ++
    ((y.barges.filter (fun b => !x.barges.contains b)).map (fun b => .barge b.id (some b))) ++
    (mdiff x.skl y.skl).map (fun e => .skillet e.1 e.2) ++ (mdiff x.pred y.pred).map (fun e => .predictor e.1 e.2)

/-- The berth entries of a slice's lines that a step freed. -/
def Core.freedBy (s t : Core) (p : Nat) : List Berth :=
  s.host.berths.filter (fun b => s.physOfLine b.h.line = p && !t.host.berths.any (fun c => c.id = b.id))

/-- The Wharf steering and memory commands of a slice that a step made. -/
def Core.commandsOf (s t : Core) (p : Nat) : List GalItem :=
  let line : XferTo → Option LineAddr
    | .fabric _ m => some m.h.line
    | .culvert c _ => some c.m.h.line
    | _ => none
  let mine (x : Xfer) : Bool := match x.act with
    | .skillet q _ _ | .warm q _ _ _ _ => q = p
    | a => (line a).any (fun l => t.physOfLine l = p)
  ((t.wharf.xfers.filter (fun x => decide (s.nextId ≤ x.id) && mine x)).map (fun x => .steer x.src x.dst)) ++
    (t.mem.reads.filterMap (fun r => match r.use with
      | .barge q _ | .warm q _ _ =>
        if q = p && !s.mem.reads.any (fun k => k.use = r.use && k.line = r.line) then some (.memRead r.line) else none
      | _ => none)) ++
    ((t.mem.writes.filter (fun w => decide (s.nextId ≤ w.id) && (w.slot || w.drips || t.drains w) && t.physOfLine w.line = p)).map
      (fun w => .memWrite w.line))

/-- What a slice's pair committed in a step from s0 (10 R335), beside the messages it sent. -/
def State.committed (s0 s : State) (p : Nat) : List GalItem :=
  let spent := if (s.gal p).items.any GalItem.isOut then mdiff s0.core.host.credits s.core.host.credits else []
  let sus := s.core.suspects p
  (s0.slice p).commits (s.slice p) ++ (s0.core.freedBy s.core p).map (fun b => .berthFree b.id) ++
    (if s0.core.suspects p = sus then [] else [.suspects sus]) ++ spent.map (fun e => .credits e.1 e.2) ++ s0.core.commandsOf s.core p

/-- What a slice's pair committed in a step from s0 joins the window, which an output closes (10 R335, R336). DESIGN CHOICE, log 83: messages come
first, then the writes and the other outputs; credits count as written by a slice that sent a message; a write of a host-port structure closes
the window as an output does, so that what follows from it outside the slice never has to be undone. -/
def State.galCommit (s0 : State) (p : Nat) (s : State) : State :=
  if !s0.galRuns p || !s.galRuns p then s
  else
    let l := s0.committed s p
    if l.isEmpty && (s.gal p).items.isEmpty then s
    else
      let s := s.onGal p (fun g => { g with items := g.items ++ l, under := some (g.under.getD (s0.slice p)) })
      if (s.gal p).items.any (fun c => c.isOut || c.isHost) then s.galClose p (.struck [] []) else s

/-- The same for every slice. -/
def State.commitAll (s0 s : State) : State := foldS (State.galCommit s0) (List.range 18) s

/-- A double-bit error in the standby store (10 R343, R355). -/
def State.standbyUe (p : Nat) (s : State) : State :=
  if (s.slice p).standby.st = .empty then s
  else
    let s := if (s.gal p).split then s.galAbandon p else s
    (s.onSlice p (fun x => { x with standby := Store.none })).raise famMcStandbyUe p

/-- Whether a register passes its parity, by the bits of it that are wrong: in each byte an even number, its parity bit included. -/
def parityOk (v : BitVec 72) : Bool :=
  (List.range 8).all (fun k => popcount (v.extractLsb' (8 * k) 8) % 2 = (v.getLsbD (64 + k)).toNat)

/-- Whether the copies of a register differ, and whether one of them shows which is right (10 R341). -/
def RegFlip.differs (r : RegFlip) : Bool := r.lead.setWidth 64 != r.check.setWidth 64
def RegFlip.fixable (r : RegFlip) : Bool := parityOk r.lead != parityOk r.check

/-- The register sweep and the control store patrol (10 R341, R352). -/
def State.galSweep (p : Nat) (r : SweepSeen) (s : State) : State :=
  if !s.galRuns p then s
  else
    let g := s.gal p
    let path := bits (s.reg (0x100A28 + p * 0x10000)) 2 1
    let s := if g.split then s
      else
        let s := if g.inject && path = 2 then (s.onGal p (fun g => { g with inject := false })).galFix p else s
        let bad := r.regs.filter RegFlip.differs
        let s := foldS (fun (_ : RegFlip) s => s.galFix p) (bad.filter RegFlip.fixable) s
        if bad.all RegFlip.fixable then s else s.raise famGalleyLatent p
    let s := s.onGal p (fun g => { g with csCorr := sat16 (g.csCorr + r.csCe) })
    let s := if r.standbyUe then s.standbyUe p else s
    if r.csUe then s.raise famGalleyCsUe p else s

/-- A WAIT has lasted longer than 1 ms (10 R334). -/
def State.galStall (p : Nat) (s : State) : State :=
  if s.galRuns p && (s.slice p).mode != .service then s.raise famGalleyStall p else s

/-- GAL_INJECT.GO (10 R342, R355). -/
def State.galInject (p : Nat) (s : State) : State := if (s.gal p).split || (s.slice p).st = .dark then s else s.onGal p (fun g => { g with inject := true })

/-! Quiesce points, cut-over and PROOF (10 R349 to R355). -/

/-- MC_ACTIVATE (10 R350). Answers whether it has ended. -/
def State.galActivate (p cmd : Nat) (s : State) : State :=
  let x := s.slice p
  if x.st = .serving then s.onGal p (fun g => { g with wants := g.wants ++ [.cut cmd] })
  else
    let s := s.galExchange p
    let s := if x.control.st = .empty then s.galMode p 1 else s
    s.complete cmd tsOk (s.slice p).control.describe []

/-- One thing that waited for a quiesce point. -/
def State.galWant (p : Nat) (w : GalWant) (s : State) : State :=
  match w with
  | .cut c =>
    let s := s.galExchange p
    s.complete c tsOk (s.slice p).control.describe []
  | .proofEnd cut c => s.galProofEnd p cut c

/-- DIV_NOW takes the divider written (14 R490, R491). -/
def divOf (w : Word) : Nat := if bits w 1 0 = 3 then 0 else bits w 1 0
def State.divNow (p : Nat) (s : State) : State :=
  let d := divOf (s.reg (0x30200 + p * 8))
  s.onGal p (fun g => { g with div := d, divLeave := false })

/-- Whether a divider change may take effect: a faster clock needs its leave (14 R491). -/
def State.divReady (s : State) (p : Nat) : Bool :=
  let d := divOf (s.reg (0x30200 + p * 8))
  d != (s.gal p).div && (decide ((s.gal p).div < d) || (s.gal p).divLeave)

/-- A slice reaches a quiesce point: its last window has closed and agreed (10 R349, R352, 14 R491). -/
def State.quiesce (p : Nat) (s : State) : State :=
  if !s.galRuns p then s
  else
    let s := s.galClose p (.struck [] [])
    let l := (s.gal p).wants
    let s := s.onGal p (fun g => { g with wants := [] })
    let s := foldS (State.galWant p) l s
    let s := if (s.gal p).diverged && bit (s.reg (0x100A30 + p * 0x10000)) 16 then s.galResync p else s
    if s.divReady p then s.divNow p else s

/-- FORCE_US has passed since a divergence (10 R352): a quiesce point is forced. -/
def State.galForce (p : Nat) (s : State) : State :=
  let c := s.reg (0x100A30 + p * 0x10000)
  if s.galRuns p && (s.gal p).split && (s.gal p).diverged && bit c 16 && bits c 31 20 != 0 then s.quiesce p else s

/-- LIMIT_S has passed (10 R354): the block itself orders the re-join, at the next quiesce point, unless an ordered end already waits for it. -/
def State.galLimit (p : Nat) (s : State) : State :=
  if !(s.gal p).split || !s.galRuns p then s
  else s.onGal p (fun g => { g with expired := true, wants := if g.wants.isEmpty then [.proofEnd false none] else g.wants })

/-- MC_PROOF_START on a SERVING or SPARE slice (10 R351): at a quiesce point, the check copy goes on with equal registers; a SPARE slice runs the
self-test event in both images. No message is in the pipeline between two steps, so that the quiesce point is at once. -/
def State.galProof (p : Nat) (s : State) : State :=
  let serving := (s.slice p).st = .serving
  let s := s.onSlice p (fun x => { x with
    st := .proof
    proofServing := serving
    mode := if serving then x.mode else .test
    standby := { x.standby with st := .inProof } })
  let s := (s.galClose p (.struck [] [])).onGal p (fun g => { g with
    split := true, diverged := false, stopped := false, log := [], checkMode := (s.slice p).mode, checkRegs := g.regs })
  if serving then s else (s.galEnter p 0xF1 0 0).2

/-- A slice that left PROOF by a seal, or that can no longer reach a quiesce point, ends what waited (10 R355). -/
def State.galReconcile (p : Nat) (s : State) : State :=
  let x := s.slice p
  let g := s.gal p
  if g.split && x.st != .proof then s.galAbandon p
  else if !g.wants.isEmpty && x.st != .serving && x.st != .proof then s.galAbandon p
  else s

/-! Image loads (10 R347, R348, 12 R437). -/

/-- Update the service procedures. -/
def State.onStart (f : Start → Start) (s : State) : State := { s with start := f s.start }

/-- Slice states in which a load is legal (10 R348). -/
def loadLegal (st : SliceSt) : Bool := st = .ready || st = .serving || st = .spare

/-- The open load of a target. -/
def State.load? (s : State) (t : Nat) : Option Load := s.start.loads.find? (fun l => l.target = t)
/-- Write an open load. -/
def State.putLoad (l : Load) (s : State) : State := s.onStart (fun x => { x with loads := updateWhere (fun k => k.target = l.target) (fun _ => l) x.loads })

/-- MC_LOAD_OPEN for slices: whatever their standby stores held is lost, and an earlier load loses them. -/
def State.loadOpen (target : Nat) (slices : List Nat) (skipped : BitVec 18) (len : Nat) (s : State) : State :=
  let s := foldS (fun p s => s.onSlice p (fun x => { x with standby := ⟨.loading, [], len, 0, false⟩ })) slices s
  let drop (l : Load) : Load :=
    let gone := l.slices.filter (fun p => slices.contains p)
    { l with slices := l.slices.filter (fun p => !slices.contains p), lost := gone.foldl setBit l.lost }
  s.onStart (fun x => { x with
    loads := (x.loads.filter (fun l => l.target != target || l.cmd.isSome)).map drop ++ [⟨target, slices, skipped, 0, none, [], []⟩] })

/-- MC_LOAD_DATA: append words. -/
def State.loadData (slices : List Nat) (words : List Word) (s : State) : State :=
  foldS (fun p s => s.onSlice p (fun x => { x with
    standby := { x.standby with words := x.standby.words ++ words, next := x.standby.next + 8 * words.length } })) slices s

/-- The checks of a closed load in their order, with the verdict on its signature (10 R347). DESIGN CHOICE, log 75: the reserved bytes that must be 0
are those of the header; the last 32 bytes are not checked. -/
def State.loadCheck (s : State) (x : Store) (sig : Bool) : BitVec 8 :=
  let keys := s.reg 0x500
  let k := x.keySlot
  let reserved := decide (2 ^ 40 ≤ x.word 2) || (List.range 29).any (fun i => x.word (i + 3) != 0)
  let word1 := x.word 1
  if x.next != x.expect || x.expect != 896 + 16 * x.count then tsBadLength
  else if x.word 0 != 0x303259454C4C4147 || word1 % 2 ^ 16 != 2 || word1 / 2 ^ 16 % 2 ^ 16 != 0 || x.count = 0 || decide (4096 < x.count) || reserved then tsBadParam
  else if decide (3 < k) || !Config.keysPresent.getLsbD k || bit keys k then tsDenied
  else if !sig then tsSignature
  else tsOk

/-- A load command that closes ends when its last slice has been verified (12 R437). -/
def State.loadEnd (l : Load) (s : State) : State :=
  if !l.left.isEmpty then s
  else
    let lost := (setBits l.lost 18).map (fun p => (p, tsFailed.toNat))
    let bad := l.bad ++ lost
    let first := pickBy (fun (a b : Nat × Nat) => decide (a.1 < b.1)) bad
    let mask := bad.foldl (fun (v : BitVec 18) e => setBit v e.1) 0
    let s := s.onStart (fun x => { x with loads := x.loads.filter (fun k => k.target != l.target || k.cmd != l.cmd) })
    match l.cmd with
    | none => s
    | some c => s.complete c (match first with
        | some (_, st) => BitVec.ofNat 8 st
        | none => tsOk) (at' l.skipped.toNat 0 ||| at' mask.toNat 24) []

/-- MC_LOAD_CLOSE: the slices' images are verified one after another. -/
def State.loadClose (l : Load) (cmd : Nat) (s : State) : State :=
  let l := { l with cmd := some cmd, left := l.slices }
  (s.putLoad l).loadEnd l

/-- The checks of one slice's image end (10 R347). -/
def State.imageDone (p : Nat) (sig : Bool) (s : State) : State :=
  match s.start.loads.find? (fun l => l.cmd.isSome && l.left.head? = some p) with
  | none => s
  | some l =>
    let st := s.loadCheck (s.slice p).standby sig
    let s := s.onSlice p (fun x => { x with standby := if st = tsOk then { x.standby with st := .verified, valid := true } else Store.none })
    let s := if st = tsSignature then s.raise famMcSig p else s
    let l := { l with left := l.left.tail, bad := if st = tsOk then l.bad else l.bad ++ [(p, st.toNat)] }
    (s.putLoad l).loadEnd l

/-- Slices that failover, a seal or a switch-off has taken out of a load: their standby stores become EMPTY (12 R437). -/
def State.loadReconcile (s : State) : State :=
  foldS (fun (l : Load) s =>
    let gone := l.slices.filter (fun p => (s.slice p).st = .sealed_ || (s.slice p).st = .dark || (s.slice p).st = .waking)
    if gone.isEmpty then s
    else
      let s := foldS (fun p s => s.onSlice p (fun x => { x with standby := Store.none })) gone s
      let l := { l with
        slices := l.slices.filter (fun p => !gone.contains p)
        lost := gone.foldl setBit l.lost
        left := l.left.filter (fun p => !gone.contains p) }
      let s := s.putLoad l
      if l.cmd.isSome then s.loadEnd l else s) s.start.loads s

/-! Registers (10 R356). -/

/-- GAL_STAT. -/
def State.galStat (s : State) (p : Nat) : Word :=
  let x := s.slice p
  let g := s.gal p
  let sb := match x.standby.st with
    | .empty => 0 | .loading => 1 | .verified => 2 | .inProof => 3
  at' x.mode.code 0 ||| at' (if g.split then g.checkMode else x.mode).code 2 ||| at' g.split.toNat 4 ||| at' g.bank.toNat 5 ||| at' sb 6 ||| at' g.diverged.toNat 8 |||
    at' x.control.holds.toNat 9

/-- GAL_CNT, and its clearing by a read. -/
def State.galCnt (s : State) (p : Nat) : Word :=
  let g := s.gal p
  at' g.rewinds 0 ||| at' g.csCorr 16 ||| at' g.sweepFix 32 ||| at' g.divergences 48
def State.galCntClear (p : Nat) (s : State) : State := s.onGal p (fun g => { g with rewinds := 0, csCorr := 0, sweepFix := 0, divergences := 0 })

end Sys2Proof.Machine
end

