-- ==== Sys2Proof/Machine/CulBase.lean ====
section
/-!
DEFINITION. Sys2Proof/Machine/CulBase.lean: a Culvert port's registers, the CRCs, and the layout of flits and messages on the link (09 R280,
R282 to R284, R288, R303, R309).
-/
namespace Sys2Proof.Machine

/-- Write a Culvert port. -/
def State.putPort (n : Nat) (x : CPort) (s : State) : State := { s with cul := { s.cul with ports := mset CPort.reset s.cul.ports n x } }
/-- Update a Culvert port. -/
def State.onPort (n : Nat) (f : CPort → CPort) (s : State) : State := s.putPort n (f (s.cport n))
/-- Update the Culvert. -/
def State.onCul (f : Cul → Cul) (s : State) : State := { s with cul := f s.cul }

/-! Registers of a port (09 R309, R316). -/

def State.culCtl (s : State) (n : Nat) : Word := s.reg (0x80000 + n * 0x10000)
def State.culPeer (s : State) (n : Nat) : Word := s.reg (0x80008 + n * 0x10000)
def State.culTimer (s : State) (n : Nat) : Word := s.reg (0x80018 + n * 0x10000)
/-- This instance's number. -/
def State.self (s : State) : BitVec 6 := s.core.self

/-- Physical lane of a logical lane, 0x1F for none. -/
def laneOf (m : Map Nat) (k : Nat) : Nat := mget 0x1F m k
/-- Spares left in a lane map (09 R306, R309). -/
def sparesOf (m : Map Nat) : Nat := ([16, 17].filter (fun k => laneOf m k != 0x1F)).length
/-- A lane map without a logical lane. -/
def laneDrop (m : Map Nat) (k : Nat) : Map Nat := mset 0x1F m k 0x1F
/-- The lane map that gives logical lanes 0 upwards to a list of physical lanes. -/
def laneMap (l : List Nat) : Map Nat := ((List.range 18).zip l).foldl (fun m e => mset 0x1F m e.1 e.2) []
/-- Physical lanes of a map, by logical lane. -/
def lanesIn (m : Map Nat) : List Nat := ((List.range 18).map (laneOf m)).filter (fun v => v != 0x1F)
/-- The logical lane that a physical lane carries. -/
def logicalLane (m : Map Nat) (j : Nat) : Option Nat := (List.range 18).find? (fun k => laneOf m k = j)

/-- CUL_STAT (09 R309). -/
def CPort.stat (x : CPort) : Word :=
  at' x.st.code 0 ||| at' x.reason 4 ||| at' x.peerInst.toNat 8 ||| at' x.peerPort.toNat 14 ||| at' (if x.crossed then 1 else 0) 17 |||
  at' (sparesOf x.rxMap) 18 ||| at' (sparesOf x.txMap) 20 ||| at' (if x.rxSwitch.isSome || x.txSwitch.isSome then 1 else 0) 22
/-- A lane map register: nine logical lanes from lane b (09 R309). -/
def CPort.mapWord (x : CPort) (m : Map Nat) (b : Nat) : Word :=
  (List.range 9).foldl (fun w k => w ||| at' (if x.mapped then laneOf m (b + k) else 0x1F) (5 * k)) 0
/-- CUL_LANE (09 R309). -/
def CPort.laneWord (x : CPort) : Word := (0 : BitVec 10) ++ x.txBad ++ x.rxBad ++ x.rxInv
/-- CUL_CNT (09 R310). -/
def CPort.cntWord (x : CPort) : Word := at' x.fecCorr 0 ||| at' x.fecUnc 16 ||| at' x.crc 32 ||| at' x.replays 48
/-- CUL_LERR(k) (09 R310). -/
def CPort.lerrWord (x : CPort) (k : Nat) : Word := at' (mget 0 x.sym k) 0 ||| at' (mget 0 x.bip k) 32
/-- A read of CUL_CNT clears it. -/
def State.culCntClear (n : Nat) (s : State) : State := s.onPort n (fun x => { x with fecCorr := 0, fecUnc := 0, crc := 0, replays := 0 })
/-- A read of CUL_LERR(k) clears it. -/
def State.culLerrClear (n k : Nat) (s : State) : State := s.onPort n (fun x => { x with sym := mset 0 x.sym k 0, bip := mset 0 x.bip k 0 })

/-! CRCs (09 R280, R283). -/

/-- One bit into the reflected CRC-32 of IEEE 802.3. -/
def crc32Bit (c : BitVec 32) (b : Bool) : BitVec 32 := if c.getLsbD 0 != b then (c >>> 1) ^^^ 0xEDB88320#32 else c >>> 1
/-- The CRC-32 of bytes 0 to 251 of a flit (09 R283). -/
def flitCrc (f : BitVec 2048) : BitVec 32 := ~~~((bitsUp f.toNat 2016).foldl crc32Bit 0xFFFFFFFF#32)
/-- One bit into a CRC-16 with polynomial x^16 + x^12 + x^5 + 1. -/
def crc16Bit (c : BitVec 16) (b : Bool) : BitVec 16 := if c.getLsbD 15 != b then (c <<< 1) ^^^ 0x1021#16 else c <<< 1
/-- The CRC-16 of 09 R280 over n bits, the lowest first. -/
def crc16 (v n : Nat) : BitVec 16 := (bitsUp v n).foldl crc16Bit 0xFFFF#16

/-! Headers and messages on the link (03 R83, 09 R284). -/

/-- The 16 bytes of a header (03 R83). -/
def hdrBits (op : BitVec 8) (h : Hdr) : BitVec 128 :=
  h.param ++ h.line ++ h.dsti ++ h.srci ++ h.peer ++ h.hint ++ BitVec.ofBool h.credit ++ BitVec.ofBool h.poison ++ h.epoch ++ h.tag ++ h.agent ++ op
/-- The header of 16 bytes. -/
def hdrOf (v : BitVec 128) : BitVec 8 × Hdr :=
  (v.extractLsb' 0 8,
    { agent := v.extractLsb' 8 12, tag := v.extractLsb' 20 10, epoch := v.extractLsb' 30 4, poison := v.getLsbD 34, credit := v.getLsbD 35,
      hint := v.extractLsb' 36 4, peer := v.extractLsb' 40 12, srci := v.extractLsb' 52 6, dsti := v.extractLsb' 58 6,
      line := v.extractLsb' 64 48, param := v.extractLsb' 112 16 })

/-- Whether the message of an opcode has a body of data: the data messages and SALVAGE (09 R284, R318). -/
def hasBody (op : BitVec 8) : Bool := decide (0x80 ≤ op.toNat ∧ op.toNat ≤ 0x84) || op = 0xC3
/-- LEN of a message: prefix and body in units of 2 bytes (09 R284). -/
def msgLen (op : BitVec 8) (one full : Bool) : Nat :=
  if !hasBody op then 9 else if op = 0xC3 then 137 else if one then (if full then 73 else 81) else if full then 137 else 153
/-- Every enable of the beats is 1. -/
def beatsFull (b : Beats) : Bool := if b.one then b.mask.extractLsb' 0 128 = BitVec.allOnes 128 else b.mask = fullMask
/-- LEN of a message. -/
def msgHalves (m : Msg) : Nat := match m.beats with
  | some b => msgLen m.op b.one (beatsFull b)
  | none => 9
/-- Size of a message in bytes. -/
def msgSize (m : Msg) : Nat := 2 * msgHalves m

/-- The low n bytes of a number, byte 0 first. -/
def bytesOf (v n : Nat) : List (BitVec 8) := (List.range n).map (fun i => BitVec.ofNat 8 (v >>> (8 * i)))
/-- The number that bytes spell, byte 0 lowest. -/
def numOf (l : List (BitVec 8)) : Nat := l.foldr (fun b v => b.toNat + 256 * v) 0

/-- The bytes of a message with its prefix (09 R284). -/
def msgBytes (m : Msg) (vc hops : Nat) (dl : Bool) : List (BitVec 8) :=
  let full := match m.beats with
    | some b => beatsFull b
    | none => false
  let pre := vc + (if full then 16 else 0) + hops * 32 + (if dl then 128 else 0)
  let body := match m.beats with
    | none => []
    | some b =>
      let beat (k : Nat) : List (BitVec 8) := bytesOf (b.data.extractLsb' (1024 * k) 1024).toNat 128 ++
        (if beatsFull b then [] else bytesOf (b.mask.extractLsb' (128 * k) 128).toNat 16)
      if b.one then beat 0 else beat 0 ++ beat 1
  BitVec.ofNat 8 pre :: BitVec.ofNat 8 (msgHalves m) :: (bytesOf (hdrBits m.op m.h).toNat 16 ++ body)

/-- What the next bytes of a payload stream are (09 R284). -/
inductive Parsed where
  /-- No further message begins in this flit. -/
  | stop
  /-- A message that goes on in the next flit. -/
  | more
  /-- A message with a reserved VC, or with a LEN that disagrees with its opcode and flags. -/
  | bad
  | msg (m : CulMsg) (rest : List (BitVec 8))
  deriving DecidableEq, Repr

/-- Read one message from a payload stream. -/
def parseMsg (l : List (BitVec 8)) : Parsed :=
  match l with
  | pre :: len :: t =>
    let n := 2 * len.toNat
    if n = 0 then .stop
    else if n < 18 || 10 ≤ pre.toNat % 16 then .bad
    else if l.length < 18 then .more
    else
      let v := hdrOf (BitVec.ofNat 128 (numOf (t.take 16)))
      let full := pre.getLsbD 4
      let one := v.2.param.getLsbD 0 && v.1 != 0xC3
      if len.toNat ≠ msgLen v.1 one full || (v.1 = 0xC3 && !full) then .bad
      else if l.length < n then .more
      else
        let body := (t.drop 16).take (n - 18)
        let step := if full then 128 else 144
        let data (k : Nat) : Nat := numOf ((body.drop (step * k)).take 128)
        let en (k : Nat) : Nat := if full then 2 ^ 128 - 1 else numOf ((body.drop (step * k + 128)).take 16)
        let beats : Option Beats :=
          if !hasBody v.1 then none
          else if one then some ⟨BitVec.ofNat 2048 (data 0), BitVec.ofNat 256 (en 0), true⟩
          else some ⟨BitVec.ofNat 2048 (data 0 + data 1 * 2 ^ 1024), BitVec.ofNat 256 (en 0 + en 1 * 2 ^ 128), false⟩
        let c : CulMsg :=
          { m := ⟨v.1, v.2, beats⟩, vc := pre.toNat % 16, hops := pre.toNat / 32 % 4, dl := pre.getLsbD 7, came := true, fixed := false, cells := none }
        .msg c (t.drop (n - 2))
  | [] => .stop
  | _ => .more

/-- The messages at the front of a payload stream, what is left of an unfinished one, and whether one was bad. -/
def parseAll : Nat → List (BitVec 8) → List CulMsg × List (BitVec 8) × Bool
  | 0, _ => ([], [], false)
  | n + 1, l => match parseMsg l with
    | .stop => ([], [], false)
    | .more => ([], l, false)
    | .bad => ([], [], true)
    | .msg m rest =>
      let r := parseAll n rest
      (m :: r.1, r.2)

/-! Flits (09 R282). -/

/-- The flit header (09 R282). -/
structure FlitHdr where
  seq : BitVec 12
  ack : BitVec 12
  nak : Bool
  type : BitVec 2
  first : BitVec 8
  ca : BitVec 4
  cca : BitVec 8
  cb : BitVec 4
  ccb : BitVec 8
  lm : BitVec 4
  lmArg : BitVec 16
  deriving DecidableEq, Repr

/-- The 10 bytes of a flit header. -/
def FlitHdr.bits (h : FlitHdr) : BitVec 80 :=
  BitVec.ofBool false ++ h.lmArg ++ h.lm ++ h.ccb ++ h.cb ++ h.cca ++ h.ca ++ h.first ++ h.type ++ BitVec.ofBool h.nak ++ h.ack ++ h.seq
/-- The header of a flit. -/
def flitHdr (f : BitVec 2048) : FlitHdr :=
  { seq := f.extractLsb' 0 12, ack := f.extractLsb' 12 12, nak := f.getLsbD 24, type := f.extractLsb' 25 2, first := f.extractLsb' 27 8,
    ca := f.extractLsb' 35 4, cca := f.extractLsb' 39 8, cb := f.extractLsb' 47 4, ccb := f.extractLsb' 51 8, lm := f.extractLsb' 59 4,
    lmArg := f.extractLsb' 63 16 }
/-- Bytes 0 to 251 of a flit. -/
def flitBody (h : FlitHdr) (payload : BitVec 1936) : BitVec 2016 := payload ++ h.bits
/-- A whole flit (09 R283). -/
def flitOf (h : FlitHdr) (payload : BitVec 1936) : BitVec 2048 :=
  let b : BitVec 2048 := (0 : BitVec 32) ++ flitBody h payload
  b ||| ((flitCrc b).setWidth 2048 <<< 2016)

/-! Virtual channels (09 R288). -/

/-- The VC of a message's class on the hop that ends at its destination. -/
def classVc (m : Msg) : Nat :=
  let o := m.op.toNat
  if o = 0x00 ∨ o = 0x01 ∨ o = 0x04 ∨ o = 0x28 then 0
  else if o = 0x02 ∨ o = 0x03 ∨ o = 0x10 ∨ o = 0x11 then 1
  else if o = 0x18 then 2
  else if o = 0x20 then 3
  else if (0x40 ≤ o ∧ o ≤ 0x48) ∨ (0xA0 ≤ o ∧ o ≤ 0xAA) then 4
  else if 0x60 ≤ o ∧ o ≤ 0x68 then 5
  else if 0x80 ≤ o ∧ o ≤ 0x84 then (if m.h.hint.getLsbD 2 && (o = 0x83 || o = 0x80 + 4) then 5 else 6)
  else 7

/-- Whether a message's data follows it directly (09 R288): a request with data, and the SNP_Q of a census page. -/
def leadsData (m : Msg) : Bool := carriesData m.op || (m.op = opSnpQ && m.h.hint.extractLsb' 0 2 = (1 : BitVec 2))
/-- Whether a data message may belong to a message that leads data. -/
def belongs (lead d : Msg) : Bool :=
  leadsData lead && d.beats.isSome && d.op != 0xC3 && lead.h.agent = d.h.agent && lead.h.tag = d.h.tag && lead.h.line = d.h.line &&
  lead.h.srci = d.h.srci && lead.h.dsti = d.h.dsti && d.op = (if lead.op = opWbD then opDatM else opDatNa)

end Sys2Proof.Machine
end

