-- ==== Sys2Proof/Machine/CulCode.lean ====
section
/-!
DEFINITION. Sys2Proof/Machine/CulCode.lean: a Culvert port's coding: the Reed-Solomon code, its striping over the lanes, the scrambler, the
alignment periods with their markers, and the lane words (09 R277 to R280).
-/
namespace Sys2Proof.Machine

/-! GF(2^10) with x^10 + x^3 + 1 (09 R278). -/

/-- A polynomial of degree at most 18 reduced by the field polynomial. -/
def symReduce (v : Nat) : Nat := (List.range 9).foldl (fun v i => if v.testBit (18 - i) then v ^^^ (0x409 <<< (8 - i)) else v) v
/-- The product of two symbols. -/
def symMul (a b : Nat) : Nat := symReduce ((List.range 10).foldl (fun v i => if b.testBit i then v ^^^ (a <<< i) else v) 0)
/-- A power of a symbol. -/
def symPow (a : Nat) : Nat → Nat
  | 0 => 1
  | n + 1 => symMul a (symPow a n)
/-- The inverse of a symbol other than 0. -/
def symInv (a : Nat) : Nat := symPow a 1022
/-- The value at x of a polynomial, highest coefficient first. -/
def symEval (x : Nat) (l : List Nat) : Nat := l.foldl (fun a c => symMul a x ^^^ c) 0
/-- The sum of two polynomials, lowest coefficient first. -/
def polyAdd : List Nat → List Nat → List Nat
  | [], m => m
  | l, [] => l
  | a :: l, b :: m => (a ^^^ b) :: polyAdd l m
/-- The product of two polynomials, lowest coefficient first. -/
def polyMul : List Nat → List Nat → List Nat
  | [], _ => []
  | a :: l, m => polyAdd (m.map (symMul a)) (0 :: polyMul l m)

/-! RS(544,514) (09 R278). Symbol s of a codeword is the coefficient of x^(543 - s). PRESUMED, log 80: the generator polynomial of IEEE 802.3 is
the product of x - a^j for j from 0 to 29, with a the element x. -/

/-- The generator polynomial without its leading 1, highest coefficient first. -/
def rsGen : List Nat := (((List.range 30).foldl (fun g j => polyMul [symPow 2 j, 1] g) [1]).take 30).reverse
/-- The 30 check symbols of 514 message symbols. -/
def rsCheck (m : List Nat) : List Nat :=
  m.foldl (fun r c =>
    let k := c ^^^ r.headD 0
    List.zipWith (fun a g => a ^^^ symMul k g) (r.drop 1 ++ [0]) rsGen) (List.replicate 30 0)
/-- A codeword from its message symbols. -/
def rsEncode (m : List Nat) : List Nat := m ++ rsCheck m
/-- The syndromes of 544 symbols: all 0 in a codeword. -/
def rsSyndromes (r : List Nat) : List Nat := (List.range 30).map (fun j => symEval (symPow 2 j) r)

/-- What the search for the error locator holds: the locator, its last other value, the length, the gap, and the last other discrepancy. -/
structure Locator where
  c : List Nat
  b : List Nat
  len : Nat
  gap : Nat
  last : Nat
  deriving DecidableEq, Repr

/-- Take syndrome n into the search for the shortest error locator. -/
def Locator.step (syn : List Nat) (x : Locator) (n : Nat) : Locator :=
  let d := (List.range (x.len + 1)).foldl (fun v i => if n < i then v else v ^^^ symMul (x.c.getD i 0) (syn.getD (n - i) 0)) 0
  if d = 0 then { x with gap := x.gap + 1 }
  else
    let k := symMul d (symInv x.last)
    let c := polyAdd x.c (List.replicate x.gap 0 ++ x.b.map (symMul k))
    if 2 * x.len ≤ n then { c := c, b := x.c, len := n + 1 - x.len, gap := 1, last := d } else { x with c := c, gap := x.gap + 1 }

/-- The error locator that the syndromes give. -/
def rsLocator (syn : List Nat) : Locator := (List.range 30).foldl (Locator.step syn) ⟨[1], [1], 0, 1, 1⟩

/-- The error values that a locator and the syndromes give: positions with what is to be added there. -/
def rsErrors (syn : List Nat) (l : Locator) : List (Nat × Nat) :=
  let omega := ((polyMul syn l.c).take 30).reverse
  let c := l.c.reverse
  let odd := ((l.c.zipIdx.map (fun e => if e.2 % 2 = 1 then e.1 else 0)).drop 1).reverse
  (((List.range 544).foldl (fun (e : List (Nat × Nat) × Nat) s =>
    (if symEval e.2 c = 0 then (s, symMul (symInv e.2) (symMul (symEval e.2 omega) (symInv (symEval e.2 odd)))) :: e.1 else e.1, symMul e.2 2))
    ([], symPow 2 480)).1).reverse

/-- Decode 544 symbols: the codeword and the positions put right, at most 15; none where no such codeword is found. -/
def rsDecode (r : List Nat) : Option (List Nat × List Nat) :=
  let syn := rsSyndromes r
  if syn.all (fun v => v = 0) then some (r, [])
  else
    let l := rsLocator syn
    let e := rsErrors syn l
    let c := r.zipIdx.map (fun x => match e.find? (fun y => y.1 = x.2) with
      | some y => x.1 ^^^ y.2
      | none => x.1)
    if 15 < l.len || e.length ≠ l.len || !(rsSyndromes c).all (fun v => v = 0) then none else some (c, e.map (fun y => y.1))

/-! Striping (09 R278): symbol s goes on logical lane s mod 16, as the (s / 16)-th of its share. -/

/-- The number that 10-bit symbols spell, the first lowest. -/
def symNum (l : List Nat) : Nat := l.foldr (fun c v => c + 1024 * v) 0
/-- The symbols of a number, the lowest first. -/
def numSyms (n v : Nat) : List Nat := (List.range n).map (fun i => (v >>> (10 * i)) % 1024)
/-- Every 16th symbol of a list. -/
def every16 : Nat → List Nat → List Nat
  | n + 1, c :: l => c :: every16 n (l.drop 15)
  | _, _ => []
/-- A logical lane's share of a codeword: 340 bits. -/
def laneShare (c : List Nat) (k : Nat) : Nat := symNum (every16 34 (c.drop k))
/-- The codeword of the logical lanes' shares. -/
def fromShares (l : List Nat) : List Nat := (List.range 544).map (fun s => (l.getD (s % 16) 0 >>> (10 * (s / 16))) % 1024)

/-! Scrambler and PRBS31 (09 R279, R280). -/

/-- The next state of the sequence of x^31 + x^28 + 1; its newest bit is bit 0. -/
def lfsr31 (s : BitVec 31) : BitVec 31 := (s <<< 1) ||| (if s.getLsbD 27 != s.getLsbD 30 then 1 else 0)
/-- The next n bits of the sequence, the first lowest, and the state they leave. DEDUCED, log 81: the first bit after a state of all ones is the
first that the polynomial gives from it. -/
def stream31 (n : Nat) (s : BitVec 31) : Nat × BitVec 31 :=
  (List.range n).foldl (fun (e : Nat × BitVec 31) i => let t := lfsr31 e.2; (if t.getLsbD 0 then e.1 + 2 ^ i else e.1, t)) (0, s)
/-- The scrambler's state at the first message bit of a period. -/
def scrStart : BitVec 31 := BitVec.allOnes 31
/-- Where a spare lane's PRBS31 begins: any state but 0. -/
def prbsStart (n j : Nat) : BitVec 31 := if Config.prbsStart n j = 0 then scrStart else Config.prbsStart n j

/-! Alignment markers (09 R280). -/

/-- SYNC of an alignment marker. -/
def markSync : BitVec 64 := 0x3C5A96E10F87D2B4
/-- A marker's 340 bits. -/
def markerOf (lane : Nat) (port : BitVec 3) (inst : BitVec 6) (count : BitVec 16) (bip : BitVec 8) : BitVec 340 :=
  let v : BitVec 38 := bip ++ count ++ inst ++ port ++ BitVec.ofNat 5 lane
  let w : BitVec 118 := crc16 v.toNat 38 ++ v ++ markSync
  (0 : BitVec 104) ++ ~~~w ++ w
/-- BIP of bits that begin at a place of the period: bit k is the XOR of the bits at places k mod 8. -/
def bipOf (v n place : Nat) : BitVec 8 :=
  (List.range n).foldl (fun (b : BitVec 8) i => if v.testBit i then b ^^^ oneHot 8 ((place + i) % 8) else b) 0

/-! The transmit side. -/

/-- Give each lane in use 340 bits that begin at a place of the period: BIP takes them, and whole 64-bit words go to the SerDes, bit 0 first (09
R277, R280). -/
def TxPcs.slot (place : Nat) (l : List (Nat × Nat)) (x : TxPcs) : List (List (Nat × BitVec 64)) × TxPcs :=
  let w := l.map (fun e => (e.1, mget 0 x.word e.1 + e.2 <<< x.fill))
  let k := (x.fill + 340) / 64
  ((List.range k).map (fun c => w.map (fun e => (e.1, BitVec.ofNat 64 (e.2 >>> (64 * c))))),
    { x with
      bip := l.foldl (fun m e => mset 0 m e.1 ((mget 0 x.bip e.1) ^^^ (bipOf e.2 340 place).toNat)) x.bip
      word := w.foldl (fun m e => mset 0 m e.1 (e.2 >>> (64 * k))) x.word
      fill := (x.fill + 340) % 64 })

/-- The marker slot that begins a period: every lane in use, spares too, sends its marker, and the scrambler restarts (09 R279, R280). -/
def TxPcs.markers (port : BitVec 3) (inst : BitVec 6) (map : Map Nat) (x : TxPcs) : List (List (Nat × BitVec 64)) × TxPcs :=
  let l := (List.range 18).filterMap (fun k =>
    let j := laneOf map k
    if j = 0x1F then none else some (j, (markerOf k port inst x.period (BitVec.ofNat 8 (mget 0 x.bip j))).toNat))
  ({ x with bip := [], cw := 0, scr := scrStart }).slot 0 l

/-- One codeword of the message bits that wait: scrambled, encoded and striped; a spare lane sends PRBS31 (09 R278 to R280). -/
def TxPcs.codeword (n : Nat) (map : Map Nat) (x : TxPcs) : List (List (Nat × BitVec 64)) × TxPcs :=
  let (key, scr) := stream31 5140 x.scr
  let c := rsEncode (numSyms 514 ((x.bits % 2 ^ 5140) ^^^ key))
  let data : List (Nat × Nat) := (List.range 16).map (fun k => (laneOf map k, laneShare c k))
  let spare : List (Nat × Nat × BitVec 31) := ([16, 17].filter (fun k => laneOf map k != 0x1F)).map (fun k =>
    let j := laneOf map k
    (j, stream31 340 (BitVec.ofNat 31 (mget (prbsStart n j).toNat x.prbs j))))
  let prbs := spare.foldl (fun (m : Map Nat) (e : Nat × Nat × BitVec 31) => mput m e.1 e.2.2.toNat) x.prbs
  let y : TxPcs := { x with bits := x.bits >>> 5140, have_ := x.have_ - 5140, scr := scr, cw := x.cw + 1, prbs := prbs }
  y.slot (340 * (x.cw + 1)) (data.filter (fun (e : Nat × Nat) => e.1 != 0x1F) ++ spare.map (fun (e : Nat × Nat × BitVec 31) => (e.1, e.2.1)))

/-- Take a flit into the stream: a codeword goes once its message bits are there, and the marker slot of the next period behind the 2,048th (09
R279). -/
def TxPcs.push (n : Nat) (inst : BitVec 6) (map : Map Nat) (f : BitVec 2048) (x : TxPcs) : List (List (Nat × BitVec 64)) × TxPcs :=
  let x := { x with bits := x.bits + f.toNat <<< x.have_, have_ := x.have_ + 2048 }
  if x.have_ < 5140 then ([], x)
  else
    let (w, x) := x.codeword n map
    if x.cw < 2048 then (w, x)
    else
      let (v, x) := ({ x with period := x.period + 1 }).markers (BitVec.ofNat 3 n) inst map
      (w ++ v, x)

/-- FEC starts: the marker slot of period 0, before which no lane has sent a bit of a period (09 R304). -/
def TxPcs.start (n : Nat) (inst : BitVec 6) (map : Map Nat) : List (List (Nat × BitVec 64)) × TxPcs :=
  TxPcs.reset.markers (BitVec.ofNat 3 n) inst map

/-! The receive side. -/

/-- Take lane words: one cycle of the lane clock, a word from each receive lane (09 R277). -/
def RxPcs.feed (x : RxPcs) (w : List (BitVec 64)) : RxPcs :=
  { x with
    raw := w.zipIdx.foldl (fun m e => mset 0 m e.2 (mget 0 m e.2 + e.1.toNat <<< x.fill)) x.raw
    fill := x.fill + 64 }
/-- The 340 bits that a physical lane shows in the present slot, its polarity put right. -/
def RxPcs.share (x : RxPcs) (inv : BitVec 18) (j : Nat) : Nat :=
  let v := mget 0 x.raw j % 2 ^ 340
  if inv.getLsbD j then v ^^^ (2 ^ 340 - 1) else v
/-- The slot ends: BIP takes what the lanes of a map showed from a place of the period. -/
def RxPcs.slotEnd (x : RxPcs) (inv : BitVec 18) (place : Nat) (lanes : List Nat) : RxPcs :=
  { x with
    bip := lanes.foldl (fun m j => mset 0 m j ((mget 0 x.bip j) ^^^ (bipOf (x.share inv j) 340 place).toNat)) x.bip
    raw := (List.range 18).foldl (fun m j => mset 0 m j (mget 0 x.raw j >>> 340)) []
    fill := x.fill - 340 }
/-- Receive one codeword: collected, decoded and descrambled (09 R278, R279). The lanes of the symbols put right; none where it could not be. -/
def RxPcs.codeword (map : Map Nat) (inv : BitVec 18) (x : RxPcs) : Option (List Nat) × RxPcs :=
  let shares := (List.range 16).map (fun k => let j := laneOf map k; if j = 0x1F then 0 else x.share inv j)
  let (key, scr) := stream31 5140 x.scr
  let y := { (x.slotEnd inv (340 * (x.cw + 1)) (lanesIn map)) with cw := x.cw + 1, scr := scr }
  match rsDecode (fromShares shares) with
  | some (c, fixed) => (some (fixed.map (fun s => laneOf map (s % 16))), { y with left := y.left ++ [⟨symNum (c.take 514) ^^^ key, 5140, false⟩] })
  | none => (none, { y with left := y.left ++ [⟨0, 5140, true⟩] })
/-- The marker slot: each lane's marker, and the BIP of the period before; the next period begins. -/
def RxPcs.markers (map : Map Nat) (inv : BitVec 18) (x : RxPcs) : List (Nat × BitVec 340 × BitVec 8) × RxPcs :=
  ((List.range 18).map (fun j => (j, BitVec.ofNat 340 (x.share inv j), BitVec.ofNat 8 (mget 0 x.bip j))),
    { (({ x with bip := [] }).slotEnd inv 0 (lanesIn map)) with cw := 0, scr := scrStart, period := [] })

/-- The next bits of the stream of received message bits, and whether all were corrected. -/
def segTake : Nat → List Seg → Nat × Bool × List Seg
  | _, [] => (0, true, [])
  | n, x :: l =>
    if n < x.len then (x.bits % 2 ^ n, !x.bad, { x with bits := x.bits >>> n, len := x.len - n } :: l)
    else
      let r := segTake (n - x.len) l
      (x.bits + r.1 <<< x.len, !x.bad && r.2.1, r.2.2)
/-- The next flit of the stream, once all its bits are there: its bits, and whether it overlaps a codeword that could not be corrected (09
R283). -/
def RxPcs.flit (x : RxPcs) : Option (BitVec 2048 × Bool) × RxPcs :=
  if (x.left.map (fun e => e.len)).foldl (· + ·) 0 < 2048 then (none, x)
  else
    let r := segTake 2048 x.left
    (some (BitVec.ofNat 2048 r.1, !r.2.1), { x with left := r.2.2.filter (fun e => e.len != 0) })

end Sys2Proof.Machine
end

