-- ==== Sys2Proof/Machine/CulFlit.lean ====
section
/-!
DEFINITION. Sys2Proof/Machine/CulFlit.lean: routing and VC choice, the transmit queue and its credits, flits sent and received, and replay
(09 R278, R284 to R290, R293 to R297, R311).
-/
namespace Sys2Proof.Machine

/-! Routes (09 R293, R295). -/

/-- ROUTE(d) as firmware wrote it. -/
def State.routeReg (s : State) (d : Nat) : Word := s.reg (0x3000 + d * 8)
/-- PRIMARY of a destination. -/
def State.primary (s : State) (d : Nat) : Nat := bits (s.routeReg d) 2 0
/-- ALT of a destination. -/
def State.alt (s : State) (d : Nat) : Nat := bits (s.routeReg d) 6 4
/-- The port in use towards a destination. -/
def State.routePort (s : State) (d : Nat) : Nat := if s.cul.onAlt.getLsbD d then s.alt d else s.primary d
/-- Whether a port is known to loop back to this instance: it then carries no routed message (09 R307). -/
def State.looped (s : State) (p : Nat) : Bool := (s.cport p).st = .active && (s.cport p).peerInst = s.self
/-- Whether a port's queue takes routed messages: it trains, is ACTIVE or retrains, and is no loop to this instance (09 R295, R307). -/
def State.portTakes (s : State) (p : Nat) : Bool :=
  let x := s.cport p
  decide (p ≤ 5) && !(x.st = .off || x.st = .reset || x.st = .down) && !s.looped p

/-- Messages that a hold for a fence does not stop: the freeze, reform and commit messages, and this instance's own part of a fence (09 R317,
11 R392, 15 R508). -/
def CulMsg.passes (c : CulMsg) : Bool := c.pass || (0xD0 ≤ c.m.op.toNat && c.m.op.toNat ≤ 0xDB)

/-! Cells (09 R286, R287). -/

/-- Cells of a message. -/
def cellsFor (size : Nat) : Nat := (size + 31) / 32
/-- Cells a message takes from a VC's reserve and from the shared ones, given those in use. -/
def cellSplit (used : Map Nat) (vc size : Nat) : Nat × Nat :=
  let own := Nat.min (cellsFor size) (64 - mget 0 used vc)
  (own, cellsFor size - own)
/-- Whether the shared cells cover it. -/
def cellsFit (used : Map Nat) (vc size : Nat) : Bool := mget 0 used 10 + (cellSplit used vc size).2 ≤ 1920
/-- Add to two counters of a map. -/
def cellsAdd (m : Map Nat) (vc own shared : Nat) : Map Nat :=
  let m := mset 0 m vc (mget 0 m vc + own)
  mset 0 m 10 (mget 0 m 10 + shared)
/-- Take from two counters of a map. -/
def cellsSub (m : Map Nat) (vc own shared : Nat) : Map Nat :=
  let m := mset 0 m vc (mget 0 m vc - own)
  mset 0 m 10 (mget 0 m 10 - shared)

/-- A message leaves a port's receive side. -/
def State.cellsFree (c : Cells) (s : State) : State :=
  s.onPort c.port (fun x => { x with
    rxUsed := cellsSub x.rxUsed c.vc c.own c.shared
    rxFreed := cellsAdd x.rxFreed c.vc c.own c.shared })
/-- The same for a message that may hold none. -/
def State.cellsFreeOpt (c : Option Cells) (s : State) : State := match c with
  | some c => s.cellsFree c
  | none => s

/-! Arrivals (08 R271, 03 R94). -/

/-- A message whose opcode its channel does not carry is discarded with MSG_UNDEF (03 R94). Which credit an unlisted opcode spent is open: the
class of a request's mooring credit, and whether data spent one. -/
def Core.undefinedMsg (f : Fin 4) (ch : Chan) (h : Hdr) (s : Core) : Core :=
  let (w, s) := s.freeData
  let cls := bits w 1 0
  let op := if cls = 0 then opRdS else if cls = 1 then opRdO else if cls = 2 then opAtom else opWbD
  let s := match ch with
    | .req => s.returnReq (.fabric f) h op
    | .rsp => s
    | .dat => if bit w 0 then s.grantFab f.val 2 0 0 1 else s
  s.raiseAt famMsgUndef (unitFab f.val) 0 0

/-- Take a message. -/
def State.takeArrival (a : Arrival) (s : State) : State :=
  match a with
  | .culvert n c => s.onCul (fun u => { u with inbox := u.inbox ++ [(n, c)] })
  | .request f op h => s.onCore (Core.fabricRequest f op h)
  | .response f op h => s.onCore (Core.agentResponse f op h)
  | .data f op h d => s.onCore (Core.fabricData f op h d)
  | .undefined f ch _ h => s.onCore (Core.undefinedMsg f ch h)

/-- A message arrives: none is taken while the block's work has stopped (08 R271, 11 R400). -/
def State.arrive (a : Arrival) (s : State) : State :=
  if s.core.stopped then { s with arrivals := s.arrivals ++ [a] } else s.takeArrival a

/-- Messages that waited are taken, in their order. -/
def State.arriveAll (s : State) : State := foldS State.takeArrival s.arrivals { s with arrivals := [] }

/-! The transmit queue. -/

/-- Put data directly behind the message it belongs to, on that message's VC (09 R288). -/
def pairIn (d : CulMsg) : List CulMsg → Option (List CulMsg)
  | [] => none
  | c :: l =>
    let taken : Bool := match l with
      | e :: _ => belongs c.m e.m
      | [] => false
    if belongs c.m d.m && !taken then some (c :: { d with vc := c.vc } :: l) else (pairIn d l).map (fun r => c :: r)

/-- Place a message in a port's transmit queue, on the VC of 09 R295. -/
def State.culEnqueue (n : Nat) (c : CulMsg) (s : State) : State :=
  let x := s.cport n
  let last : Bool := x.peerInst = c.m.h.dsti
  let vc := if c.fixed then c.vc else if last then classVc c.m else if c.dl || bit (s.culCtl n) 3 then 9 else 8
  match (if c.m.beats.isSome then pairIn c x.queue else none) with
  | some q => s.onPort n (fun x => { x with queue := q })
  | none => s.onPort n (fun x => { x with queue := x.queue ++ [{ c with vc := vc }] })

/-- A message waits for a route or for its fence. -/
def State.culHold (c : CulMsg) (s : State) : State := s.onCul (fun u => { u with holdQ := u.holdQ ++ [c] })

/-- Whether a message to the same destination waits that this one may not overtake (09 R289, R295). -/
def State.heldBefore (s : State) (c : CulMsg) : Bool := s.cul.holdQ.any (fun e => e.m.h.dsti = c.m.h.dsti && e.passes = c.passes)

/-- Send or pass on one message (09 R295). A line of this instance crosses the Wharf to its port first, and what belongs behind it follows (01
R42). -/
def State.culRoute (c : CulMsg) (s : State) : State :=
  let d := c.m.h.dsti
  let p := s.routePort d.toNat
  if d = s.self then
    foldS (fun m s => s.arrive (.culvert 6 (culOwn m))) c.behind (s.arrive (.culvert 6 { c with cross := none, behind := [] }))
  else if s.cul.held.getLsbD d.toNat && !c.passes then s.culHold c
  else if !s.portTakes p then (s.culHold c).raise famCulUnreach 0
  else if s.heldBefore c then s.culHold c
  else match c.cross with
    | some (src, stamp) =>
      s.onCore (fun k => k.present src (epCul p) stamp (.culvert { c with cross := none, behind := [] } c.behind))
    | none =>
      if c.came && c.hops = 3 then
        (s.cellsFreeOpt c.cells).raise famCulTtl (unitCul (match c.cells with
          | some k => k.port
          | none => p))
      else s.culEnqueue p c

/-- Messages held for no fence go, in the order held, once a port takes them (09 R295). -/
def State.culRehold (s : State) : State :=
  let may (c : CulMsg) : Bool := c.m.h.dsti = s.self || ((!s.cul.held.getLsbD c.m.h.dsti.toNat || c.passes) &&
    s.portTakes (s.routePort c.m.h.dsti.toNat))
  let go := s.cul.holdQ.filter may
  foldS State.culRoute go (s.onCul (fun u => { u with holdQ := u.holdQ.filter (fun c => !may c) }))

/-! Sending flits (09 R282, R285, R287, R311). -/

/-- The header of a port's next flit: it reports what is due, and the first of the link management codes that wait. -/
def State.nextHdr (n : Nat) (seq : BitVec 12) (type : BitVec 2) (first : BitVec 8) (s : State) : FlitHdr :=
  let x := s.cport n
  let code := x.lm.headD (0, 0)
  let b := (x.report + 1) % 11
  { seq := seq, ack := x.rxSeq, nak := x.nak, type := type, first := first, ca := BitVec.ofNat 4 x.report,
    cca := BitVec.ofNat 8 (mget 0 x.rxFreed x.report), cb := BitVec.ofNat 4 b, ccb := BitVec.ofNat 8 (mget 0 x.rxFreed b),
    lm := BitVec.ofNat 4 code.1, lmArg := BitVec.ofNat 16 code.2 }

/-- Words of lane clock cycles leave a port (09 R277). -/
def State.lanesOut (n : Nat) (l : List (List (Nat × BitVec 64))) (s : State) : State :=
  s.onCore (fun k => foldS (fun w => Core.emit (.lanes n w)) l k)

/-- Send one flit: it is coded, and the next report and the next link management code are due (09 R279, R287, R311). -/
def State.emitFlit (n : Nat) (h : FlitHdr) (payload : BitVec 1936) (s : State) : State :=
  let f := flitOf h payload
  let s := s.onPort n (fun x => { x with lm := x.lm.drop 1 ++ x.lm.take 1, report := (x.report + 2) % 11, nak := false })
  let s := (s.onCore (Core.emit (.flit n (bytesOf f.toNat 256)))).onCore (Core.bump (unitCul n) 0x101 1)
  let (w, tx) := (s.cport n).tx.push n s.self (s.cport n).txMap f
  (s.onPort n (fun x => { x with tx := tx })).lanesOut n w

/-- An IDLE flit (09 R282). -/
def State.sendIdle (n : Nat) (s : State) : State := s.emitFlit n (s.nextHdr n (s.cport n).txSeq 0 0xFF) 0

/-- Link management codes without one code, and with a new one of it. -/
def lmDrop (l : List (Nat × Nat)) (code : Nat) : List (Nat × Nat) := l.filter (fun e => e.1 != code)
def lmPut (l : List (Nat × Nat)) (code arg : Nat) : List (Nat × Nat) := lmDrop l code ++ [(code, arg)]

/-- A code that every flit header carries from now on, and a first IDLE flit with it (09 R311). -/
def State.sayLm (n code : Nat) (s : State) : State := (s.onPort n (fun x => { x with lm := [(code, 0)] })).sendIdle n

/-- SEQ of a kept flit. -/
def seqOf (b : BitVec 2016) : BitVec 12 := b.extractLsb' 0 12

/-- A replay starts from ACK + 1 (09 R285): every unacknowledged flit is to go again, oldest first. -/
def State.culReplay (n : Nat) (ack : Option (BitVec 12)) (s : State) : State :=
  let l := (s.cport n).replay
  if l.isEmpty then s
  else
    let s := s.onPort n (fun x => { x with resend := l.map seqOf, nakAck := ack, replays := sat16 (x.replays + 1) })
    (s.onCore (Core.bump (unitCul n) 0x104 1)).raise famCulReplay (unitCul n)

/-- The next flit of the replay in progress goes, with a header of now. -/
def State.sendAgain (n : Nat) (s : State) : State :=
  match (s.cport n).resend with
  | [] => s
  | q :: l =>
    match (s.cport n).replay.find? (fun b => seqOf b = q) with
    | none => s.onPort n (fun x => { x with resend := l })
    | some b =>
      let h := s.nextHdr n q 1 (flitHdr (b.setWidth 2048)).first
      let v : BitVec 1936 := b.extractLsb' 80 1936
      (s.emitFlit n h v).onPort n (fun x => { x with
        resend := l
        replay := x.replay.map (fun c => if seqOf c = q then flitBody h v else c) })

/-- The pieces of a message's bytes, one to a flit. -/
def flitPieces : Nat → List (BitVec 8) → List (List (BitVec 8))
  | 0, _ => []
  | n + 1, l => if l.isEmpty then [] else l.take 242 :: flitPieces n (l.drop 242)

/-- Send a message's bytes in PAYLOAD flits of their own, which the replay buffer keeps. -/
def State.sendPieces (n : Nat) (first : BitVec 8) (l : List (List (BitVec 8))) (s : State) : State :=
  match l with
  | [] => s
  | p :: t =>
    let q := (s.cport n).txSeq
    let v : BitVec 1936 := BitVec.ofNat 1936 (numOf p)
    let h := s.nextHdr n q 1 first
    let s := s.emitFlit n h v
    State.sendPieces n 0xFF t (s.onPort n (fun x => { x with txSeq := q + 1, replay := x.replay ++ [flitBody h v] }))

/-- Whether a message at the head of its VC still waits for the data that must follow it (09 R288). A dead agent's never comes. -/
def State.halfPair (s : State) (c : CulMsg) (after : List CulMsg) : Bool :=
  leadsData c.m && !s.core.tombed c.m.h.agent && (match after with
    | e :: _ => !belongs c.m e.m
    | [] => true)

/-- The head of a VC's queue and what follows it in the whole queue. -/
def vcHead (v : Nat) : List CulMsg → Option (CulMsg × List CulMsg)
  | [] => none
  | c :: l => if c.vc = v then some (c, l) else vcHead v l
/-- The queue without a VC's head. -/
def vcPop (v : Nat) : List CulMsg → List CulMsg
  | [] => []
  | c :: l => if c.vc = v then l else c :: vcPop v l

/-- Whether a port may send the head of a VC now: a power-fail hold keeps this instance's own messages (08 R273, 09 R296), a seal every one
(11 R400), a looped port carries none but HELLO (09 R307), the replay buffer has room, and the receiver's credits cover it (09 R285, R286). -/
def State.maySend (s : State) (n : Nat) (c : CulMsg) (after : List CulMsg) : Bool :=
  let x := s.cport n
  s.core.block != .sealed_ && (!s.core.pf.hold || c.came) && (!s.looped n || c.m.op = 0xC1) && !s.halfPair c after &&
    decide (x.replay.length + (msgSize c.m + 241) / 242 ≤ 512) && cellsFit x.txUsed c.vc (msgSize c.m)

/-- Deficit round robin among the VCs (09 R290): the VC that sends next, and the state it leaves. DESIGN CHOICE, log 73: a VC whose head waits for
credits or for its data gains no quantum at its turn, and the next VC has its own. -/
def culTurn (s : State) (n : Nat) : Nat → Map Nat → Nat → Bool → Option Nat × Map Nat × Nat × Bool
  | 0, d, v, fed => (none, d, v, fed)
  | k + 1, d, v, fed =>
    match vcHead v (s.cport n).queue with
    | none => culTurn s n k (mset 0 d v 0) ((v + 1) % 10) false
    | some (c, after) =>
      if !s.maySend n c after then culTurn s n k d ((v + 1) % 10) false
      else
        let have_ := mget 0 d v + (if fed then 0 else 864)
        if msgSize c.m ≤ have_ then (some v, mset 0 d v (have_ - msgSize c.m), v, true)
        else culTurn s n k (mset 0 d v have_) ((v + 1) % 10) false

/-- A port starts one waiting message (09 R290). A replay in progress has the flit time. -/
def State.culSend (n : Nat) (s : State) : State :=
  let x := s.cport n
  if x.st != .active then s
  else if !x.resend.isEmpty then s.sendAgain n
  else
    match culTurn s n 21 x.deficit x.turn x.fed with
    | (none, d, t, f) => s.onPort n (fun x => { x with deficit := d, turn := t, fed := f })
    | (some v, d, t, f) =>
      match vcHead v x.queue with
      | none => s
      | some (c, _) =>
        let split := cellSplit x.txUsed v (msgSize c.m)
        let last : Bool := x.peerInst = c.m.h.dsti || c.m.op = 0xC1
        let hops := if c.came then c.hops + 1 else c.hops
        let dl := c.dl || (!last && bit (s.culCtl n) 3)
        let s := s.onPort n (fun x => { x with
          deficit := d
          turn := t
          fed := f
          queue := vcPop v x.queue
          txUsed := cellsAdd x.txUsed v split.1 split.2 })
        let s := s.sendPieces n 0 (flitPieces 2 (msgBytes c.m v hops dl))
        let s := s.onCore (Core.bump (unitCul n) 0x103 (msgSize c.m))
        match c.cells with
        | none => s
        | some k =>
          let e := (c.m.h.dsti.toNat, v)
          (s.cellsFree k).onPort k.port (fun y => { y with passed := if y.passed.contains e then y.passed else y.passed ++ [e] })

/-- A flit time with no message to start: the next flit of a replay, or an IDLE flit (09 R285). A port that has gone to RETRAIN or DOWN goes on
with the link management code that its peer has not answered (09 R311). -/
def State.culIdle (n : Nat) (s : State) : State :=
  let x := s.cport n
  if x.st != .active then (if (x.st = .retrain || x.st = .down) && !x.lm.isEmpty then s.sendIdle n else s)
  else if !x.resend.isEmpty then s.sendAgain n
  else
    let starved := (List.range 10).any (fun v => match vcHead v x.queue with
      | some (c, after) => !s.halfPair c after && !cellsFit x.txUsed v (msgSize c.m)
      | none => false)
    (s.sendIdle n).onCore (Core.bump (unitCul n) 0x106 (if starved then 1 else 0))

/-! Receiving flits (09 R284 to R287). -/

/-- Whether a message is a copy of a FENCE that keeps the VC it is sent on (09 R318, R319). -/
def keepsVc (m : Msg) : Bool := m.op = 0xC4 && m.h.hint.getLsbD 0

/-- A message of another instance passes on through this one: it crosses the Wharf once, from its port's endpoint to that of its onward port
(01 R42, 09 R296). -/
def State.culTransit (n : Nat) (c : CulMsg) (s : State) : State :=
  let p := s.routePort c.m.h.dsti.toNat
  s.onCore (fun k => k.present (epCul n) (epCul (if p ≤ 5 then p else n)) k.arrival
    (.culvert { c with came := true, fixed := keepsVc c.m } []))

/-- Take one message off a port's payload stream, with the cells it takes until it leaves the receive side (09 R286, R287, R297). -/
def State.culTake (n : Nat) (c : CulMsg) (s : State) : State :=
  let x := s.cport n
  let size := msgSize c.m
  if !cellsFit x.rxUsed c.vc size then s.raise famCulProto (unitCul n)
  else
    let split := cellSplit x.rxUsed c.vc size
    let k : Cells := ⟨n, c.vc, split.1, split.2⟩
    let s := s.onPort n (fun x => { x with rxUsed := cellsAdd x.rxUsed c.vc split.1 split.2 })
    if c.m.h.dsti = s.self || c.m.op = 0xC1 then s.arrive (.culvert n { c with cells := some k })
    else s.culTransit n { c with cells := some k }

/-- The payload of an accepted flit (09 R284): the messages it completes are taken, and a bad one ends the flit. -/
def State.culAccept (n : Nat) (seq : BitVec 12) (first : BitVec 8) (payload : BitVec 1936) (s : State) : State :=
  let x := s.cport n
  let bytes := bytesOf payload.toNat 242
  let stream := if x.partial_.isEmpty then (if first = 0xFF then [] else bytes.drop first.toNat) else x.partial_ ++ bytes
  let r := parseAll 32 stream
  let s := s.onPort n (fun x => { x with rxSeq := seq, partial_ := r.2.1 })
  let s := foldS (State.culTake n) r.1 s
  if r.2.2 then s.raise famCulProto (unitCul n) else s

/-- ACK and the credit counts of a flit header (09 R285, R287). -/
def CPort.header (x : CPort) (h : FlitHdr) : CPort :=
  let kept := match x.replay.findIdx? (fun e => seqOf e = h.ack) with
    | some i => x.replay.drop (i + 1)
    | none => x.replay
  let count (y : CPort) (c : BitVec 4) (v : BitVec 8) : CPort :=
    if 10 < c.toNat then y
    else
      let back := (v - BitVec.ofNat 8 (mget 0 y.txSeen c.toNat)).toNat
      { y with
        txUsed := mset 0 y.txUsed c.toNat (mget 0 y.txUsed c.toNat - back)
        txSeen := mset 0 y.txSeen c.toNat v.toNat }
  let y := { x with replay := kept, resend := x.resend.filter (fun q => kept.any (fun e => seqOf e = q)) }
  count (count y h.ca h.cca) h.cb h.ccb

/-- A damaged flit or an unexpected SEQ: NAK goes out with the next flit, once (09 R285). -/
def CPort.naks (x : CPort) : CPort := { x with nak := x.nak || !x.stalled, stalled := true }

/-- What a received flit does but for its link management code: whether it was undamaged. -/
def State.culFlit (n : Nat) (f : BitVec 2048) (bad : Bool) (s : State) : Bool × State :=
  let h := flitHdr f
  let crcBad : Bool := flitCrc f ≠ f.extractLsb' 2016 32
  if bad || crcBad || decide (2 ≤ h.type.toNat) then
    (false, s.onPort n (fun x => { x.naks with crc := if crcBad && !bad then sat16 (x.crc + 1) else x.crc }))
  else
    let s := s.onPort n (fun x => x.header h)
    let x := s.cport n
    let s := if h.nak && (x.resend.isEmpty || x.nakAck ≠ some h.ack) then s.culReplay n (some h.ack) else s
    if h.type = 0 then (true, s)
    else if h.seq = (s.cport n).rxSeq + 1 then
      let s := (s.onPort n (fun x => { x with stalled := false, nak := false })).onCore (Core.bump (unitCul n) 0x102 1)
      (true, s.culAccept n h.seq h.first (f.extractLsb' 80 1936))
    else (true, s.onPort n CPort.naks)

/-- CUL_TIMER.ACK_TO passes (09 R285): at the transmitter it replays, at the receiver NAK is set again. -/
def State.ackTo (n : Nat) (rx : Bool) (s : State) : State :=
  if (s.cport n).st != .active then s
  else if rx then s.onPort n (fun y => { y with nak := y.nak || y.stalled })
  else s.culReplay n none

/-- A codeword has been decoded: its corrections count (09 R278, R310). -/
def State.rxCodeword (n : Nat) (r : Option (List Nat) × RxPcs) (s : State) : State :=
  let s := s.onPort n (fun x => { x with rx := r.2 })
  match r.1 with
  | none => s.onPort n (fun x => { x with fecUnc := sat16 (x.fecUnc + 1) })
  | some [] => s
  | some l => (s.onPort n (fun x => { x with
      fecCorr := sat16 (x.fecCorr + 1)
      sym := l.foldl (fun m j => mset 0 m j (Nat.min 0xFFFFFFFF (mget 0 m j + 1))) x.sym
      rx := { x.rx with period := l.foldl (fun m j => mset 0 m j (mget 0 m j + 1)) x.rx.period } })).onCore (Core.bump (unitCul n) 0x105 1)

/-- Take lane words off the wire: every codeword that they complete is decoded (09 R277, R278). -/
def State.rxCodewords (n : Nat) : Nat → State → State
  | 0, s => s
  | k + 1, s =>
    let x := s.cport n
    if x.rx.fill < 340 || 2048 ≤ x.rx.cw then s
    else State.rxCodewords n k (s.rxCodeword n (x.rx.codeword x.rxMap x.rxInv))

/-- Lane words arrive (09 R277). -/
def State.rxWords (n : Nat) (w : List (List (BitVec 64))) (s : State) : State :=
  s.onPort n (fun x => { x with rx := w.foldl RxPcs.feed x.rx })

/-- The next flit that the received codewords hold. -/
def State.rxFlit (n : Nat) (w : List (List (BitVec 64))) (s : State) : Option (BitVec 2048 × Bool) × State :=
  let s := s.rxWords n w
  let s := State.rxCodewords n (w.length + 1) s
  let r := (s.cport n).rx.flit
  (r.1, s.onPort n (fun x => { x with rx := r.2 }))

end Sys2Proof.Machine
end

