-- ==== Sys2Proof/Machine/CulLoss.lean ====
section
/-!
DEFINITION. Sys2Proof/Machine/CulLoss.lean: the loss of a port, rerouting, salvage, fences and the return of routes (09 R304, R315 to R322,
R442).
-/
namespace Sys2Proof.Machine

/-! Fence messages (09 R318). -/

def opSalvage : BitVec 8 := 0xC3
def opFence : BitVec 8 := 0xC4
def opFenceAck : BitVec 8 := 0xC5

/-- LINE of a fence message: originator and its lost port. -/
def fenceLine (origin : BitVec 6) (lost : BitVec 3) : LineAddr := (0 : BitVec 39) ++ lost ++ origin
def fenceOrigin (h : Hdr) : BitVec 6 := h.line.extractLsb' 0 6
def fenceLost (h : Hdr) : BitVec 3 := h.line.extractLsb' 6 3
/-- The destination mask of a FENCE_ACK. -/
def fenceMask (h : Hdr) : BitVec 64 := (h.tag.extractLsb' 0 9 : BitVec 9) ++ h.param ++ (h.line.extractLsb' 9 39 : BitVec 39)
/-- The header of a FENCE_ACK with FINAL 0. -/
def fenceMaskHdr (origin : BitVec 6) (lost : BitVec 3) (m : BitVec 64) : Hdr :=
  { Hdr.zero with tag := (0 : BitVec 1) ++ m.extractLsb' 55 9, param := m.extractLsb' 39 16, line := m.extractLsb' 0 39 ++ lost ++ origin }

/-- Send a SALVAGE, FENCE or FENCE_ACK of this instance by its route, which no hold of this instance stops (09 R317). -/
def State.culControl (op : BitVec 8) (dest : BitVec 6) (h : Hdr) (body : Option Beats) (s : State) : State :=
  s.culRoute { culOwn ⟨op, { h with srci := s.self, dsti := dest }, body⟩ with pass := true }

/-- Send copies of a FENCE with FWD 1 to a destination, one on each VC of a mask. -/
def State.fenceCopies (origin : BitVec 6) (lost : BitVec 3) (d : Nat) (vcs : BitVec 10) (s : State) : State :=
  foldS (fun v s =>
    let h : Hdr := { Hdr.zero with line := fenceLine origin lost, hint := 1, param := vcs.setWidth 16, srci := s.self, dsti := BitVec.ofNat 6 d }
    s.culRoute { culOwn ⟨opFence, h, none⟩ with vc := v, fixed := true, pass := true }) (setBits vcs 10) s

/-! Release (09 R317, R319). -/

/-- Release destinations: what waits for them goes, in the order held, unless another fence still holds them. -/
def State.releaseDests (m : BitVec 64) (s : State) : State :=
  let still := s.cul.fences.foldl (fun (v : BitVec 64) f => v ||| f.dests) 0
  let rel := m &&& ~~~still
  let go := s.cul.holdQ.filter (fun c => rel.getLsbD c.m.h.dsti.toNat)
  foldS State.culRoute go (s.onCul (fun u => { u with
    held := u.held &&& ~~~rel
    holdQ := u.holdQ.filter (fun c => !rel.getLsbD c.m.h.dsti.toNat) }))

/-- End part of a fence: its destinations of a mask are released, a return has them on PRIMARY again, and a fence with none left ends. -/
def State.fenceRelease (f : Fence) (m : BitVec 64) (s : State) : State :=
  let rel := f.dests &&& m
  let g := { f with dests := f.dests &&& ~~~m }
  let finished : Bool := g.dests = 0 && (g.port = 7 || g.acked)
  let s := s.onCul (fun u => { u with
    fences := if finished then u.fences.erase f else updateWhere (fun k => decide (k = f)) (fun _ => g) u.fences
    onAlt := if f.port = 7 then u.onAlt &&& ~~~rel else u.onAlt })
  let s := s.releaseDests rel
  if finished then s.completeOpt f.cmd tsOk f.mask else s

/-- What a fence may release by the acknowledgements it holds. -/
def Fence.may (f : Fence) : BitVec 64 := if f.port = 7 then f.back else if f.acked then ~~~f.mask ||| f.back else 0

/-- A FENCE_ACK arrives (09 R319). -/
def State.takeFenceAck (h : Hdr) (s : State) : State :=
  let lost := (fenceLost h).toNat
  let d := h.srci.toNat
  let upd (f : Fence) : Fence :=
    if h.hint.getLsbD 0 then { f with back := setBit f.back d } else { f with acked := true, mask := fenceMask h }
  let hit (f : Fence) : Bool := f.port = lost && fenceOrigin h = s.self && (h.hint.getLsbD 0 || (f.port != 7 && f.peer = h.srci))
  let s := s.onCul (fun u => { u with fences := updateWhere hit upd u.fences })
  foldS (fun (f : Fence) s => s.fenceRelease f f.may) (s.cul.fences.filter (fun f => f.port = lost)) s

/-- FENCE_US passes (09 R319): what is still awaited is released. DESIGN CHOICE, log 74: a return of routes has no lost port, and CUL_FENCE names the
ALT port of the lowest destination left, at most 5. -/
def State.fenceLimit (n : Nat) (s : State) : State :=
  foldS (fun (f : Fence) s =>
    let unit := if f.port = 7 then (match setBits f.dests 64 with
      | d :: _ => Nat.min 5 (s.alt d)
      | [] => 0) else f.port
    (s.fenceRelease { f with acked := true } f.dests).raise famCulFence (unitCul unit))
    (s.cul.fences.filter (fun f => f.port = n)) (s.onCul (fun u => { u with
      fences := updateWhere (fun f => f.port = n) (fun f => { f with acked := true }) u.fences }))

/-! At the peer and at the destinations (09 R319). -/

/-- Whether a message taken from a port has not left its receive side: it passes on, waits for a route, or waits to be taken. -/
def State.portBusy (s : State) (q : Nat) : Bool :=
  let of (c : CulMsg) : Bool := match c.cells with
    | some k => k.port = q
    | none => false
  s.cul.holdQ.any of || s.cul.inbox.any (fun e => of e.2) || s.cul.parked.any (fun e => e.2.port = q) ||
  s.arrivals.any (fun a => match a with
    | .culvert _ c => of c
    | _ => false) ||
  s.cul.ports.any (fun e => e.2.queue.any of) || s.core.toSend.any of ||
  s.core.wharf.xfers.any (fun x => match x.act with
    | .culvert c _ => of c
    | _ => false)

/-- A FENCE whose port's messages have all left: it is sent behind them, and acknowledged with the mask of their destinations. -/
def State.fenceInGo (f : FenceIn) (s : State) : State :=
  if s.portBusy f.port then s
  else
    let l := if f.port ≤ 5 then (s.cport f.port).passed.filter (fun e => e.1 != s.self.toNat) else []
    let dests := (List.range 64).filter (fun d => l.any (fun e => e.1 = d))
    let s := s.onCul (fun u => { u with fenceIns := u.fenceIns.erase f })
    let s := if f.port ≤ 5 then s.onPort f.port (fun x => { x with passed := [] }) else s
    let s := foldS (fun d s => s.fenceCopies f.origin f.lost d
      ((l.filter (fun e => e.1 = d)).foldl (fun (v : BitVec 10) e => setBit v e.2) 0)) dests s
    s.culControl opFenceAck f.origin (fenceMaskHdr f.origin f.lost (dests.foldl (fun (v : BitVec 64) d => setBit v d) 0)) none

/-- Fences whose port's messages have all left since the last command. -/
def State.fenceReconcile (s : State) : State := foldS State.fenceInGo s.cul.fenceIns s

/-- This instance's end of a peer's port: a port that has identified it. -/
def State.portOfPeer (s : State) (i : BitVec 6) (l : BitVec 3) : Option Nat :=
  (List.range 6).find? (fun q => (s.cport q).known && (s.cport q).peerInst = i && (s.cport q).peerPort = l)

/-- A FENCE arrives (09 R319). -/
def State.takeFence (vc : Nat) (h : Hdr) (s : State) : State :=
  let o := fenceOrigin h
  let p := fenceLost h
  if h.hint.getLsbD 0 then
    let seen : BitVec 10 := match s.cul.tallies.find? (fun t => t.origin = o && t.lost = p) with
      | some t => setBit t.seen vc
      | none => setBit 0 vc
    let rest := s.cul.tallies.filter (fun t => !(t.origin = o && t.lost = p))
    if (h.param.setWidth 10 &&& ~~~seen : BitVec 10) = 0 then
      (s.onCul (fun u => { u with tallies := rest })).culControl opFenceAck o { Hdr.zero with line := fenceLine o p, hint := 1 } none
    else s.onCul (fun u => { u with tallies := rest ++ [⟨o, p, seen⟩] })
  else
    let q := (s.portOfPeer o p).getD 7
    let f : FenceIn := ⟨q, o, p⟩
    (s.onCul (fun u => { u with fenceIns := u.fenceIns ++ [f] })).fenceInGo f

/-- A SALVAGE arrives (09 R319): a flit after the last one accepted at this end of the lost port counts as accepted there. -/
def State.takeSalvage (h : Hdr) (d : Beats) (s : State) : State :=
  match s.portOfPeer h.srci (h.tag.extractLsb' 0 3) with
  | none => s
  | some q =>
    let seq : BitVec 12 := h.line.extractLsb' 0 12
    let ahead := (seq - (s.cport q).rxSeq).toNat
    if 1 ≤ ahead ∧ ahead ≤ 512 then s.culAccept q seq (flitHdr d.data).first (d.data.extractLsb' 80 1936) else s

/-! Loss (09 R304, R316, R317). -/

/-- Salvage and fence of a lost port (09 R317 step 3). -/
def State.culSalvage (n : Nat) (s : State) : State :=
  let x := s.cport n
  let b := x.peerInst
  let dests := (List.range 64).foldl (fun (v : BitVec 64) d => if s.primary d = n then setBit v d else v) 0
  let s := s.onCul (fun u => { u with fences := u.fences ++ [⟨n, b, dests &&& u.held, false, 0, none, 0⟩] })
  let s := s.onPort n (fun x => { x with replay := [], resend := [] })
  let s := foldS (fun (e : BitVec 2016) s =>
    let h : Hdr := { Hdr.zero with tag := BitVec.ofNat 10 n, line := (seqOf e).setWidth 48 }
    s.culControl opSalvage b h (some (Beats.line (e.setWidth 2048)))) x.replay s
  s.culControl opFence b { Hdr.zero with line := fenceLine s.self (BitVec.ofNat 3 n) } none

/-- Messages queued for a port that takes no more go, in their order, where their routes now lead or are held (09 R317 step 2). HELLO is not
routed. -/
def State.requeue (n : Nat) (s : State) : State :=
  let l := (s.cport n).queue
  foldS (fun c => State.culRoute { c with pass := false }) (l.filter (fun c => c.m.op != 0xC1)) (s.onPort n (fun x => { x with queue := [] }))

/-- Reroute what used a port that carried traffic (09 R317). Before charter commit no route is held (09 R321); in a power-fail hold, salvage
and fence wait. -/
def State.reroute (n : Nat) (s : State) : State :=
  if s.start.commit.lockedId.isNone then s.requeue n
  else
    let dests := (List.range 64).foldl (fun (v : BitVec 64) d => if s.primary d = n then setBit v d else v) 0
    let s := s.onCul (fun u => { u with held := u.held ||| dests, onAlt := u.onAlt ||| dests })
    let s := s.requeue n
    if s.core.pf.hold then s.onCul (fun u => { u with late := u.late ++ [n] }) else s.culSalvage n

/-- Salvages that the power-fail hold put off (09 R321). -/
def State.culLate (s : State) : State :=
  let l := s.cul.late
  foldS State.culSalvage l (s.onCul (fun u => { u with late := [] }))

/-- Switches under way are abandoned, and with them a CUL_SPARE command (09 R315). -/
def State.culAbandon (n : Nat) (s : State) : State :=
  let x := s.cport n
  let s := s.onPort n (fun x => { x with rxSwitch := none, txSwitch := none, faults := [], lm := [] })
  match x.rxSwitch with
  | some w => s.completeOpt w.cmd tsFailed (s.cport n).stat
  | none => s

/-- A port leaves training or service for DOWN or RESET. -/
def State.culLeave (n : Nat) (st : CulSt) (reason : Nat) (s : State) : State :=
  let carried : Bool := (s.cport n).st = .active || (s.cport n).st = .retrain
  let s := s.culAbandon n
  let cmd := (s.cport n).cmd
  let s := s.onPort n (fun x => { x with
    st := st, reason := reason, cmd := none, wait := false, ready := false, nak := false, stalled := false, resend := [] })
  let s := s.completeOpt cmd tsFailed (s.cport n).stat
  if carried then s.reroute n else s.requeue n

/-- REASON codes (09 R309). -/
def reDisabled : Nat := 1
def reNoPeer : Nat := 2
def reLanes : Nat := 3
def reLoopback : Nat := 4
def reTimeout : Nat := 5
def reLost : Nat := 6
def rePeerDown : Nat := 7

/-- A port is lost (09 R316). -/
def State.culLost (n reason : Nat) (s : State) : State := (s.culLeave n .down reason).raise famCulDown (unitCul n)

/-- An ACTIVE port retrains: RETRAIN goes to the peer, then RETRAIN blocks (09 R304). -/
def State.culRetrain (n : Nat) (cmd : Option Nat) (s : State) : State :=
  ((s.culAbandon n).onPort n (fun x => { x with st := .retrain, sub := .retrain, sent := 0, resend := [], cmd := cmd })).sayLm n 3

/-- This side finds a loss condition (09 R304, R316). -/
def State.culLoss (n : Nat) (s : State) : State :=
  if (s.cport n).st != .active then s
  else if bit (s.culCtl n) 1 && (s.cport n).peerFlags.getLsbD 1 then s.culRetrain n none
  else (s.culLost n reLost).sayLm n 4

/-- The peer sends PORT_DOWN (09 R311, R316): this side has lost the port too, and its own PORT_DOWN is the answer. -/
def State.culPeerDown (n : Nat) (s : State) : State := (s.sayLm n 4).culLost n rePeerDown

/-- No flit for LOSS_US, or none accepted after a NAK (09 R316); suspended while a switch of this direction runs (09 R313). -/
def State.lossTimer (n : Nat) (s : State) : State := if (s.cport n).rxSwitch.isSome then s else s.culLoss n

/-- A retrain has not completed in 40 µs (09 R304). -/
def State.retrainTimeout (n : Nat) (s : State) : State := if (s.cport n).st = .retrain then s.culLost n reLost else s

/-- ENABLE written 0 (09 R304). -/
def State.culDisable (n : Nat) (s : State) : State :=
  if (s.cport n).st = .off then s.onPort n (fun x => { x with wait := false }) else s.culLeave n .reset reDisabled

/-- A port is sealed (11 R399). -/
def State.culSealed (n : Nat) (s : State) : State :=
  let st := (s.cport n).st
  if st = .off then s
  else if st = .active then (s.culLost n reLost).sayLm n 4
  else s.culLost n reLost

/-- The block is sealed (11 R400): PORT_DOWN on every ACTIVE port. -/
def State.culBlockSealed (s : State) : State :=
  foldS (fun n s => if (s.cport n).st = .active then s.sayLm n 4 else s) (List.range 6) s

/-- CUL_ROUTE_RETURN (09 R322, 12 R442): destinations on ALT whose PRIMARY port is ACTIVE go back behind a fence on every VC. -/
def State.routeReturn (cmd : Nat) (mask : BitVec 64) (s : State) : State :=
  let ok (d : Nat) : Bool := mask.getLsbD d && s.cul.onAlt.getLsbD d && decide (s.primary d ≤ 5) && (s.cport (s.primary d)).st = .active &&
    !s.cul.held.getLsbD d
  let l := (List.range 64).filter ok
  if l.isEmpty then s.complete cmd tsOk 0 []
  else
    let m := l.foldl (fun (v : BitVec 64) d => setBit v d) 0
    let s := s.onCul (fun u => { u with held := u.held ||| m, fences := u.fences ++ [⟨7, s.self, m, false, m, some cmd, 0⟩] })
    foldS (fun d s => s.fenceCopies s.self 7 d 0x3FF) l s

end Sys2Proof.Machine
end

