-- ==== Sys2Proof/Machine/CulTrain.lean ====
section
/-!
DEFINITION. Sys2Proof/Machine/CulTrain.lean: lane faults and sparing in service, link management, and training (09 R303 to R316).
-/
namespace Sys2Proof.Machine

/-! Lane sparing (09 R310 to R315). -/

/-- LMARG of a SPARE_REQ. -/
def Switch.arg (w : Switch) : Nat := w.lane + w.spare * 16 + w.x * 32
/-- The index of the codeword that a port is receiving, plus 256: where a switch that starts now takes effect (09 R312). -/
def CPort.switchAt (x : CPort) : Nat := (x.rx.cw + 256) % 2048
/-- Start a switch of a logical lane onto a spare of the receive side (09 R312 step 1). -/
def State.switchStart (n lane spare : Nat) (cmd : Option Nat) (s : State) : State :=
  let w : Switch := ⟨lane, spare, (s.cport n).switchAt, false, false, cmd⟩
  (s.onPort n (fun p => { p with rxSwitch := some w, lm := lmPut p.lm 1 w.arg })).raise famCulLane (unitCul n)

/-- The spares left on the receive side. -/
def CPort.rxSpare (x : CPort) : Option Nat := [0, 1].find? (fun k => laneOf x.rxMap (16 + k) != 0x1F)

/-- A physical receive lane shows a fault in service (09 R310, R315). -/
def State.laneFault (n j : Nat) (s : State) : State :=
  let p := s.cport n
  match logicalLane p.rxMap j with
  | none => s
  | some k =>
    let again (lane : Nat) (cmd : Option Nat) (s : State) : State := match (s.cport n).rxSpare with
      | some v => s.switchStart n lane v cmd
      | none => s.culLoss n
    if 16 ≤ k then
      let s := s.onPort n (fun y => { y with rxBad := setBit y.rxBad j, rxMap := laneDrop y.rxMap k })
      match p.rxSwitch with
      | some w => if w.spare + 16 = k && !w.moved then again w.lane w.cmd s else s
      | none => s
    else
      match p.rxSwitch with
      | some w =>
        if w.lane = k then (if w.moved then again k w.cmd s else s)
        else s.onPort n (fun y => { y with faults := if y.faults.contains j then y.faults else y.faults ++ [j] })
      | none => again k none s

/-- Codeword x of a switch passes (09 R312 steps 2 and 3): the receiver moves when it holds the acknowledgement and asks again otherwise; the
transmitter moves. -/
def State.switchCodeword (n : Nat) (rx : Bool) (s : State) : State :=
  let p := s.cport n
  if p.st != .active then s
  else if rx then
    match p.rxSwitch with
    | none => s
    | some w =>
      if w.moved then s
      else if w.acked then
        s.onPort n (fun y => { y with
          rxBad := setBit y.rxBad (laneOf y.rxMap w.lane)
          rxMap := laneDrop (mset 0x1F y.rxMap w.lane (laneOf y.rxMap (16 + w.spare))) (16 + w.spare)
          rxSwitch := some { w with moved := true } })
      else
        let v : Switch := { w with x := p.switchAt }
        s.onPort n (fun y => { y with rxSwitch := some v, lm := lmPut y.lm 1 v.arg })
  else
    match p.txSwitch with
    | none => s
    | some w =>
      if w.moved then s
      else
        s.onPort n (fun y => { y with
          txBad := setBit y.txBad (laneOf y.txMap w.lane)
          txMap := laneDrop (mset 0x1F y.txMap w.lane (laneOf y.txMap (16 + w.spare))) (16 + w.spare)
          lm := lmDrop y.lm 2
          txSwitch := some { w with moved := true } })

/-- Lanes whose switch waited: the first that still carries a logical lane starts its own (09 R312, R315). -/
def State.nextFault (n : Nat) : List Nat → State → State
  | [], s => s
  | j :: l, s =>
    let s := s.onPort n (fun y => { y with faults := l })
    let s := if (s.cport n).st = .active then s.laneFault n j else s
    if (s.cport n).rxSwitch.isSome then s else State.nextFault n l s

/-- The end of a switch at the receiver (09 R312 step 4): NAK, the CUL_SPARE command completes, and the next faulty lane starts. -/
def State.switchEnd (n : Nat) (s : State) : State :=
  match (s.cport n).rxSwitch with
  | none => s
  | some w =>
    if !w.moved then s
    else
      let s := s.onPort n (fun y => { y with rxSwitch := none, nak := true })
      let s := s.completeOpt w.cmd tsOk (s.cport n).stat
      s.nextFault n (s.cport n).faults

/-- Whether codeword x has not been sent: the transmitter is less than half a period ahead of it. DEDUCED, log 41. -/
def CPort.before (p : CPort) (x : Nat) : Bool := decide ((x + 2048 - p.tx.cw) % 2048 < 1024)

/-- A SPARE_REQ arrives (09 R312 step 2): in time, it is answered, and the switch it names is the one under way; late, it is not. -/
def State.takeSpareReq (n arg : Nat) (s : State) : State :=
  let p := s.cport n
  let w : Switch := ⟨arg % 16, arg / 16 % 2, arg / 32 % 2048, true, false, none⟩
  let answer (v : Switch) (s : State) : State := s.onPort n (fun y => { y with txSwitch := some v, lm := lmPut y.lm 2 arg })
  let ok : Bool := laneOf p.txMap (16 + w.spare) != 0x1F && p.before w.x
  match p.txSwitch with
  | some v => if v.moved || (v.lane = w.lane && v.spare = w.spare) then (if ok then answer w s else s) else s
  | none => if ok then answer w s else s

/-- A link management code arrives (09 R311, R312, R316). -/
def State.takeLm (n code arg : Nat) (s : State) : State :=
  if code = 1 then s.takeSpareReq n arg
  else if code = 2 then
    match (s.cport n).rxSwitch with
    | some w => if w.arg = arg then s.onPort n (fun y => { y with rxSwitch := some { w with acked := true }, lm := lmDrop y.lm 1 }) else s
    | none => s
  else if code = 3 then s.culLoss n
  else if code = 4 then s.culPeerDown n
  else s

/-- A flit arrives on an ACTIVE port (09 R285). -/
def State.takeFlit (n : Nat) (f : BitVec 2048) (bad : Bool) (s : State) : State :=
  let h := flitHdr f
  let (ok, s) := s.culFlit n f bad
  if !ok then s
  else
    let done : Bool := h.nak && (match (s.cport n).txSwitch with
      | some w => w.moved
      | none => false)
    let s := if done then s.onPort n (fun y => { y with txSwitch := none, lm := lmDrop y.lm 2 }) else s
    s.takeLm n h.lm.toNat h.lmArg.toNat

/-- The peer's answer to the RETRAIN or the PORT_DOWN that this port repeats (09 R311). -/
def State.takeAnswer (n : Nat) (f : BitVec 2048) (bad : Bool) (s : State) : State :=
  let h := flitHdr f
  let sound : Bool := !bad && flitCrc f = f.extractLsb' 2016 32 && decide (h.type.toNat < 2)
  let x := s.cport n
  if sound && ((x.st = .retrain && h.lm = 3) || (x.st = .down && h.lm = 4)) then s.onPort n (fun x => { x with lm := [] }) else s

/-- Lane words arrive, and with them a flit (09 R277 to R285). -/
def State.flitIn (n : Nat) (w : List (List (BitVec 64))) (s : State) : State :=
  let st := (s.cport n).st
  if st = .active then
    match s.rxFlit n w with
    | (some (f, bad), s) => s.takeFlit n f bad
    | (none, s) => s
  else if (st = .retrain || st = .down) && !(s.cport n).lm.isEmpty then
    match s.rxFlit n w with
    | (some (f, bad), s) => s.takeAnswer n f bad
    | (none, s) => s
  else s

/-- SYNC of a training block (09 R303). -/
def trainSync : BitVec 64 := 0xE1D2C3B4A5968778

/-- Whether a marker is the one a lane should show, but for its COUNT and BIP (09 R280, R305). -/
def CPort.markerOk (x : CPort) (j : Nat) (m : BitVec 340) : Bool :=
  m.extractLsb' 0 64 = markSync && m.extractLsb' 102 16 = crc16 (m.extractLsb' 64 38).toNat 38 &&
  logicalLane x.rxMap j = some (m.extractLsb' 64 5).toNat && m.extractLsb' 69 3 = x.peerPort && m.extractLsb' 72 6 = x.peerInst &&
  m.extractLsb' 118 118 = ~~~(m.extractLsb' 0 118) && m.extractLsb' 236 104 = 0

/-- A lane at the end of a period: BIP mismatches and consecutive marginal periods (09 R305, R310). DEDUCED, log 82: a lane counts as marginal from
DEGRADE on. -/
def CPort.periodLane (deg : Nat) (x : CPort) (e : Nat × BitVec 340 × BitVec 8) : CPort :=
  let j := e.1
  let sym := mget 0 x.rx.period j
  let bip : Bool := x.markerOk j e.2.1 && e.2.1.extractLsb' 94 8 ≠ e.2.2
  { x with
    bip := if bip then mset 0 x.bip j (sat16 (mget 0 x.bip j + 1)) else x.bip
    hot := mset 0 x.hot j (if deg != 0 && decide (deg ≤ sym) then mget 0 x.hot j + 1 else 0)
    hotBip := mset 0 x.hotBip j (if bip then mget 0 x.hotBip j + 1 else 0) }

/-- An alignment period ends: the lane words of its marker slot arrive (09 R279, R305, R310). Each lane in use that shows a fault is dealt with. -/
def State.alignment (n : Nat) (w : List (List (BitVec 64))) (s : State) : State :=
  if (s.cport n).st != .active then s
  else
    let s := s.rxWords n w
    if (s.cport n).rx.fill < 340 then s
    else
      let (l, rx) := (s.cport n).rx.markers (s.cport n).rxMap (s.cport n).rxInv
      let deg := bits (s.culTimer n) 47 32
      let s := s.onPort n (fun x => { (l.foldl (CPort.periodLane deg) x) with rx := rx })
      foldS (fun (e : Nat × BitVec 340 × BitVec 8) s =>
        let x := s.cport n
        if x.st = .active && (!x.markerOk e.1 e.2.1 || decide (2 ≤ mget 0 x.hot e.1) || decide (4 ≤ mget 0 x.hotBip e.1)) then s.laneFault n e.1
        else s) l s

/-- CUL_SPARE (12 R442): the receive side switches a lane as though it had found a fault. -/
def State.culSpare (n lane spare cmd : Nat) (s : State) : State := s.switchStart n lane spare (some cmd)

/-! Training (09 R302 to R308). -/

/-- A port whose domains have come on: RESET, with no seal (09 R304, 11 R399). -/
def State.culPowerOn (n : Nat) (s : State) : State :=
  if (s.cport n).st != .off then s
  else (s.onPort n (fun x => { x with st := .reset })).onCore (fun k => { k with flt := { k.flt with sealCul := clearBit k.flt.sealCul n } })

/-- A port whose domains lose power: what CUL_STAT holds stays (14 R495). -/
def State.culPowerOff (n : Nat) (s : State) : State :=
  if (s.cport n).st = .off then s
  else (s.culLeave n .off (s.cport n).reason).onPort n (fun x => { CPort.reset with
    reason := x.reason
    peerInst := x.peerInst
    peerPort := x.peerPort
    crossed := x.crossed
    rxMap := x.rxMap
    txMap := x.txMap
    known := x.known
    rxSeq := x.rxSeq
    partial_ := x.partial_
    replay := x.replay
    passed := x.passed })

/-- Training starts (09 R302, R304): the maps and bad marks are built anew, the SerDes is asked to adapt, and LOCK blocks go out. -/
def State.culDetect (n : Nat) (s : State) : State :=
  let x := s.cport n
  if !(x.st = .reset || x.st = .down) || s.core.flt.sealCul.getLsbD n then s
  else (s.onPort n (fun x => { x with
    st := .detect, wait := false, ready := false, rxMap := [], txMap := [], mapped := true, rxInv := 0, rxBad := 0, txBad := 0, signal := 0,
    lock := 0, rxFrom := [], sub := .reset, sent := 0, peerFlags := 0, hot := [], hotBip := [], lm := [] })).onCore (Core.emit (.adapt n))

/-- A training block as a receiver reads it (09 R303). -/
structure TBlock where
  inv : Bool
  type : Nat
  lane : Nat
  port : BitVec 3
  inst : BitVec 6
  good : BitVec 18
  flags : BitVec 3
  deriving DecidableEq, Repr

/-- A good block, read with its polarity put right. -/
def trainBlock (b : BitVec 256) : Option TBlock :=
  let inv : Bool := b.extractLsb' 0 64 = ~~~trainSync
  let v := if inv then ~~~b else b
  let t := (v.extractLsb' 64 4).toNat
  if v.extractLsb' 0 64 = trainSync && v.extractLsb' 112 16 = crc16 (v.extractLsb' 64 48).toNat 48 && decide (1 ≤ t) && decide (t ≤ 7) then
    some ⟨inv, t, (v.extractLsb' 68 5).toNat, v.extractLsb' 73 3, v.extractLsb' 76 6, v.extractLsb' 82 18, v.extractLsb' 108 3⟩
  else none

/-- Where a port's training stands (09 R304): within a retrain, at its own state. -/
def CPort.phase (x : CPort) : CulSt := if x.st = .retrain then x.sub else x.st
/-- TYPE of the training blocks that a state sends (09 R303). -/
def trainType : CulSt → Nat
  | .detect | .lock => 1
  | .map => 2
  | .ident => 3
  | .test => 4
  | .config => 5
  | .active => 6
  | .retrain => 7
  | _ => 0
/-- Whether a block is of a TYPE or of a later one. RETRAIN comes before LOCK. -/
def laterType (type got : Nat) : Bool := if type = 7 then true else decide (type ≤ got) && decide (got ≤ 6)

/-- A training block's 256 bits (09 R303). -/
def trainOf (type lane : Nat) (port : BitVec 3) (inst : BitVec 6) (good : BitVec 18) (flags : BitVec 3) : BitVec 256 :=
  let v : BitVec 48 := (0 : BitVec 1) ++ flags ++ (0 : BitVec 8) ++ good ++ inst ++ port ++ BitVec.ofNat 5 lane ++ BitVec.ofNat 4 type
  let w : BitVec 128 := crc16 v.toNat 48 ++ v ++ trainSync
  ~~~w ++ w

/-- GOOD: the peer's transmit lanes that this side found good; 0 before CONFIG (09 R303, R305). -/
def CPort.goodOut (x : CPort) : BitVec 18 :=
  if x.phase = .config || x.phase = .active then
    x.rxFrom.foldl (fun (v : BitVec 18) e => if x.rxBad.getLsbD e.1 then v else setBit v e.2) 0
  else 0
/-- FLAGS: TEST_EN, FAST_RETRAIN and LOOP_OK (09 R303). -/
def State.flagsOut (s : State) (n : Nat) : BitVec 3 := BitVec.ofBool (bit (s.culCtl n) 4) ++ BitVec.ofBool (bit (s.culCtl n) 1) ++ BitVec.ofBool (bit (s.culCtl n) 2)

/-- Send blocks of the current TYPE on every transmit lane (09 R303). -/
def State.trainSend (n count : Nat) (s : State) : State :=
  let x := s.cport n
  let type := trainType x.phase
  if count = 0 || type = 0 then s
  else
    let s := s.onCore (fun k => foldS (fun j => Core.emit (.train n j (trainOf type j (BitVec.ofNat 3 n) s.self x.goodOut (s.flagsOut n)) count))
      (List.range 18) k)
    s.onPort n (fun x => { x with sent := x.sent + count })

/-- Lanes that have shown good blocks of a TYPE or a later one, by lane number. -/
def trainLanes (l : List TrainSeen) (type : Nat) : List (Nat × TBlock) :=
  l.filterMap (fun e => match trainBlock e.block with
    | some b => if laterType type b.type then some (e.lane.val, b) else none
    | none => none)
/-- Lanes that have shown blocks of which none is good. -/
def trainFails (l : List TrainSeen) : List Nat := l.filterMap (fun e => if (trainBlock e.block).isNone then some e.lane.val else none)

/-- The sender that most lanes name (09 R305). -/
def trainPeer (l : List (Nat × TBlock)) : BitVec 6 × BitVec 3 :=
  let count (p : BitVec 6 × BitVec 3) : Nat := (l.filter (fun e => e.2.inst = p.1 && e.2.port = p.2)).length
  (l.map (fun e => (e.2.inst, e.2.port))).foldl (fun a p => if count a < count p then p else a) (match l with
    | e :: _ => (e.2.inst, e.2.port)
    | [] => (0, 0))

/-- The lanes that MAP finds good: not late, naming the sender that most name, and no transmit lane that another names (09 R305). -/
def trainGood (l : List (Nat × TBlock)) (late : BitVec 18) : List (Nat × TBlock) :=
  let p := trainPeer l
  l.filter (fun e => !late.getLsbD e.1 && e.2.inst = p.1 && e.2.port = p.2 && decide (e.2.lane < 18) &&
    decide ((l.filter (fun f => f.2.lane = e.2.lane)).length = 1))

/-- Receive lanes in the order of the transmit lanes they come from. -/
def trainOrder (l : List (Nat × TBlock)) : List Nat :=
  (List.range 18).filterMap (fun k => (l.find? (fun e => e.2.lane = k)).map (fun e => e.1))

/-- Lanes as a mask. -/
def laneMask (l : List Nat) : BitVec 18 := l.foldl (fun (v : BitVec 18) j => setBit v j) 0

/-- Record the peer and check it against CUL_PEER (09 R307). -/
def State.culIdent (n : Nat) (b : TBlock) (s : State) : State :=
  let w := s.culPeer n
  let wrong : Bool := bit w 0 && !(bits w 6 1 = b.inst.toNat && bits w 9 7 = b.port.toNat)
  let s := s.onPort n (fun x => { x with peerInst := b.inst, peerPort := b.port, known := true, crossed := wrong, peerFlags := b.flags })
  if wrong then s.raise famCulCrossed (unitCul n) else s

/-- Cells that a port's earlier messages hold are forgotten when its counts restart (09 R287). -/
def State.cellsForget (n : Nat) (s : State) : State :=
  let f (c : CulMsg) : CulMsg := match c.cells with
    | some k => if k.port = n then { c with cells := some { k with own := 0, shared := 0 } } else c
    | none => c
  let s := s.onCul (fun u => { u with
    holdQ := u.holdQ.map f
    inbox := u.inbox.map (fun e => (e.1, f e.2))
    parked := u.parked.map (fun e => if e.2.port = n then (e.1, { e.2 with own := 0, shared := 0 }) else e)
    ports := u.ports.map (fun e => (e.1, { e.2 with queue := e.2.queue.map f })) })
  let g (a : Arrival) : Arrival := match a with
    | .culvert m c => .culvert m (f c)
    | _ => a
  let h (x : Xfer) : Xfer := match x.act with
    | .culvert c l => { x with act := .culvert (f c) l }
    | _ => x
  let s := { s with arrivals := s.arrivals.map g }
  s.onCore (fun k => { k with
    toSend := k.toSend.map f
    wharf := { k.wharf with xfers := k.wharf.xfers.map h } })

/-- Lanes are assigned and the port is ACTIVE: credit counts restart, START goes out, FEC starts with a new period, and what waited for the port
goes (09 R287, R304, R306). -/
def State.culActivate (n : Nat) (rx : List Nat) (good : BitVec 18) (s : State) : State :=
  let s := (s.cellsForget n).onPort n (fun x => { x with
    st := .active, sub := .reset, sent := 0, rxMap := laneMap rx, txMap := laneMap (setBits good 18), mapped := true, txBad := ~~~good,
    rxBad := ~~~(laneMask rx), hot := [], hotBip := [], txUsed := [], txSeen := [], rxUsed := [], rxFreed := [], report := 0, lm := [] })
  let s := s.trainSend n 16
  let (w, tx) := TxPcs.start n s.self (s.cport n).txMap
  let s := (s.onPort n (fun x => { x with tx := tx, rx := RxPcs.reset })).lanesOut n w
  let x := s.cport n
  if sparesOf x.rxMap < 2 || sparesOf x.txMap < 2 then s.raise famCulNospare (unitCul n) else s

/-- What waited for a port that has become ACTIVE goes; a looped port's messages are held (09 R295, R307). -/
def State.culResume (n : Nat) (s : State) : State := (if s.looped n then s.requeue n else s).culRehold

/-- A port's training goes on to a state, of the retrain under way or of the port. -/
def State.trainTo (n : Nat) (st : CulSt) (s : State) : State :=
  s.onPort n (fun x => if x.st = .retrain then { x with sub := st, sent := 0 } else { x with st := st, sent := 0 })

/-- Fewer than 16 lanes are good: training ends; a retrain goes on until its limit (09 R304). -/
def State.trainFew (n : Nat) (s : State) : State :=
  if (s.cport n).st = .retrain then s else (s.culLeave n .down reLanes).raise famCulTrain (unitCul n)

/-- LOCK ends: the lanes that show no good block are bad, and complemented ones are put right (09 R304, R305). -/
def State.trainLock (n : Nat) (l : List (Nat × TBlock)) (s : State) : State :=
  (s.onPort n (fun x => { x with
    rxInv := laneMask ((l.filter (fun e => e.2.inv)).map (fun e => e.1))
    rxBad := x.rxBad ||| ~~~(laneMask (l.map (fun e => e.1))) })).trainTo n .map

/-- MAP ends: the receive lane map, without lanes that are late, shorted or another sender's (09 R304, R305). -/
def State.trainMap (n : Nat) (l : List (Nat × TBlock)) (late : BitVec 18) (s : State) : State :=
  let g := trainGood l late
  let s := s.onPort n (fun x => { x with rxBad := x.rxBad ||| ~~~(laneMask (g.map (fun e => e.1))) })
  if g.length < 16 then s.trainFew n
  else (s.onPort n (fun x => { x with
    rxMap := laneMap (trainOrder g)
    rxFrom := g.foldl (fun (m : Map Nat) (e : Nat × TBlock) => mput m e.1 e.2.lane) [] })).trainTo n .ident

/-- IDENT ends: the peer is recorded and checked; a loop that is not allowed ends training (09 R304, R307). -/
def State.trainIdent (n : Nat) (b : TBlock) (s : State) : State :=
  if b.inst = s.self && !bit (s.culCtl n) 4 then
    if (s.cport n).st = .retrain then s else s.culLeave n .down reLoopback
  else
    let s := s.culIdent n b
    if (s.cport n).st != .retrain && bit (s.culCtl n) 2 && b.flags.getLsbD 0 then (s.trainTo n .test).onCore (Core.emit (.prbs n))
    else s.trainTo n .config

/-- CONFIG ends with the peer's GOOD (09 R304, R306): the port is ACTIVE. From DETECT, sequence numbers restart; a retrain keeps them and the
replay buffer, and replays. -/
def State.trainConfig (n : Nat) (b : TBlock) (s : State) : State :=
  let x := s.cport n
  let rx := (lanesIn x.rxMap).filter (fun j => !x.rxBad.getLsbD j)
  if rx.length < 16 || popcount b.good < 16 then s
  else if x.st = .retrain then
    let s := (s.culActivate n rx b.good).culReplay n none
    let s := s.onPort n (fun x => { x with cmd := none, peerFlags := b.flags })
    (s.completeOpt x.cmd tsOk (s.cport n).stat).culResume n
  else
    let s := s.onPort n (fun x => { x with
      txSeq := 0, replay := [], resend := [], nakAck := none, rxSeq := 0xFFF, nak := false, partial_ := [], stalled := false, passed := [],
      deficit := [], turn := 0, fed := false, peerFlags := b.flags })
    (s.culActivate n rx b.good).culResume n

/-- Training goes on (09 R303, R304): this side has sent so many more blocks of its TYPE, and receive lanes have shown eight blocks in a row. A
state ends when every lane in use has shown good ones of its TYPE or a later one and 16 have been sent. A lane with signal and lock whose
blocks all fail is bad (09 R305). -/
def State.trainAdvance (n : Nat) (blocks : List TrainSeen) (late : BitVec 18) (sent : Nat) (s : State) : State :=
  let s := s.trainSend n sent
  let x := s.cport n
  let ph := x.phase
  let type := trainType ph
  if !(ph = .lock || ph = .map || ph = .ident || ph = .config || ph = .retrain) then s
  else
    let s := s.onPort n (fun x => { x with
      rxBad := x.rxBad ||| (laneMask (trainFails blocks) &&& x.signal) ||| (if ph = .lock then x.signal &&& ~~~x.lock else 0) })
    let x := s.cport n
    let inUse (j : Nat) : Bool := x.signal.getLsbD j && !x.rxBad.getLsbD j
    let l := (trainLanes blocks type).filter (fun e => inUse e.1)
    if (ph = .lock || ph = .map) && decide (popcount (x.signal &&& ~~~x.rxBad) < 16) then s.trainFew n
    else if x.sent < 16 || !(List.range 18).all (fun j => !inUse j || l.any (fun e => e.1 = j)) then s
    else match l with
      | [] => s
      | e :: _ =>
        if ph = .retrain then (s.onPort n (fun x => { x with lm := [] })).trainTo n .lock
        else if ph = .lock then s.trainLock n l
        else if ph = .map then s.trainMap n l late
        else if ph = .ident then s.trainIdent n e.2
        else s.trainConfig n e.2

/-- The TEST window ends (09 R304, R305): lanes with PRBS31 errors above 2^-14 of its bits are bad. -/
def State.testEnd (n : Nat) (errs : List (Fin 18 × Nat)) (bits : Nat) (s : State) : State :=
  let bad := laneMask ((errs.filter (fun e => decide (bits < e.2 * 2 ^ 14))).map (fun e => e.1.val))
  if (s.cport n).st = .test then (s.onPort n (fun x => { x with rxBad := x.rxBad ||| bad })).trainTo n .config else s

/-- A training state's budget expires (09 R304). -/
def State.trainBudget (n : Nat) (s : State) : State :=
  let x := s.cport n
  match x.st with
  | .detect => if x.signal = 0 then s.culLeave n .down reNoPeer else (s.culLeave n .down reLanes).raise famCulTrain (unitCul n)
  | .lock | .map => (s.culLeave n .down reLanes).raise famCulTrain (unitCul n)
  | .ident | .test | .config => (s.culLeave n .down reTimeout).raise famCulTrain (unitCul n)
  | _ => s

/-- DETECT ends once the SerDes is ready with signal on 16 lanes (09 R304). -/
def State.detectGo (n : Nat) (s : State) : State :=
  let x := s.cport n
  if x.st = .detect && x.ready && decide (16 ≤ popcount x.signal) then s.trainTo n .lock else s

/-- The SerDes reports ready, with the lanes that have signal detect and lock (09 R277, R304). -/
def State.serdesReady (n : Nat) (signal lock : BitVec 18) (s : State) : State :=
  if (s.cport n).st = .detect then (s.onPort n (fun x => { x with signal := signal, lock := lock, ready := true })).detectGo n else s

/-- A lane's signal detect or lock changes (09 R304, R305). -/
def State.laneSignal (n j : Nat) (signal lock : Bool) (s : State) : State :=
  let s := s.onPort n (fun x => { x with signal := putBit x.signal j signal, lock := putBit x.lock j lock })
  let x := s.cport n
  let up : Bool := signal && lock
  match x.st with
  | .detect => s.detectGo n
  | .lock | .map =>
    if popcount (x.signal &&& ~~~x.rxBad) < 16 then s.trainFew n else s
  | .ident | .test | .config | .retrain => if up then s else s.onPort n (fun x => { x with rxBad := setBit x.rxBad j })
  | .active => if up then s else s.laneFault n j
  | _ => s

end Sys2Proof.Machine
end

