-- ==== Sys2Proof/Machine/Power.lean ====
section
/-!
DEFINITION. Sys2Proof/Machine/Power.lean: the leave handshake, power domains, the low-power states, clocks, wake and resets (14 R471 to R496, 12
R415, R416, R419, R433, R445, 13 R468, R469, 18 R589, R590).
-/
namespace Sys2Proof.Machine

/-- Update power. -/
def State.onPwr (f : Pwr → Pwr) (s : State) : State := { s with pwr := f s.pwr }

/-- Whether the main domains have power at all. -/
def State.powered (s : State) : Bool := s.core.block != .off && s.core.block != .pilot

/-! The test wrapper (18 R589, R590). -/

/-- The intrusive instructions. -/
def wirIntrusive (v : BitVec 5) : Bool := v = 0x01 || v = 0x02 || v = 0x09 || v = 0x0A
/-- The instruction that a code acts as. -/
def wirActs (v : BitVec 5) : BitVec 5 := if wirIntrusive v || v = 0x03 || v = 0x08 then v else 0

/-! Leave to draw (14 R483 to R486). -/

/-- Leave classes (14 R483). -/
def lvFailover : Nat := 1
def lvInit : Nat := 2
def lvWake : Nat := 3
def lvHalf : Nat := 4
def lvPort : Nat := 5
def lvTrain : Nat := 6
def lvInterrog : Nat := 7
def lvScrub : Nat := 8
def lvGen : Nat := 9

/-- The slice that a step concerns, for the limit of a SLICE_WAKE request. -/
def stepSlice : Step_ → Option Nat
  | .domain d => some (d / 3)
  | .divider p => some p
  | _ => none

/-- Whether two requests may be one (14 R485). -/
def leaveFits (a b : Leave) : Bool :=
  decide (a.amt + b.amt ≤ 1023) &&
  (a.cls != lvWake || decide ((((a.steps ++ b.steps).filterMap stepSlice).eraseDups).length ≤ 2))

/-- Merge the requests of a class behind a first one, in arrival order: the merged request and those left. -/
def leaveMerge (c : Nat) (r : Leave) : List Leave → Leave × List Leave
  | [] => (r, [])
  | x :: l =>
    if x.cls = c && leaveFits r x then leaveMerge c { r with amt := r.amt + x.amt, steps := r.steps ++ x.steps } l
    else
      let (m, rest) := leaveMerge c r l
      (m, x :: rest)

/-- Present the waiting class of the lowest code, once GNT is sampled 0 (14 R484, R485). Nothing is presented in a power-fail hold (14 R486) or
under an intrusive test instruction (18 R590). -/
def State.leavePump (s : State) : State :=
  let p := s.pwr
  if p.req || p.gnt || s.core.pf.hold || wirIntrusive p.wir || !s.powered then s
  else
    match p.queue with
    | [] => s
    | x :: l =>
      let c := (x :: l).foldl (fun m e => Nat.min m e.cls) x.cls
      match (x :: l).find? (fun e => e.cls = c) with
      | none => s
      | some r =>
        let (m, rest) := leaveMerge c r ((x :: l).erase r)
        s.onPwr (fun p => { p with queue := rest, shown := some m, req := true, raisedAt := s.core.tb, late := false })

/-- Withdraw the presented request: it returns to the queue (14 R485). -/
def State.leaveWithdraw (s : State) : State :=
  match s.pwr.shown with
  | some r => s.onPwr (fun p => { p with shown := none, req := false, queue := r :: p.queue, withdrawnAt := some s.core.tb })
  | none => s

/-- Ask leave (14 R483): a FAILOVER request goes ahead of another class that waits for its grant (14 R485). -/
def State.leaveAsk (l : Leave) (s : State) : State :=
  let s := s.onPwr (fun p => { p with queue := p.queue ++ [l] })
  let finished : Bool := match s.pwr.shown with
    | some r => l.cls = lvFailover && r.cls != lvFailover
    | none => false
  (if finished then s.leaveWithdraw else s).leavePump

/-- A power failure is recognised while a request is presented: REQ falls (14 R486). -/
def State.leaveReconcile (s : State) : State := if s.core.pf.hold && s.pwr.req then s.leaveWithdraw else s.leavePump

/-- No grant in WAIT_US (14 R486). -/
def State.leaveLate (s : State) : State :=
  if s.pwr.req && !s.pwr.late && bits (s.reg 0x30020) 15 0 != 0 then (s.onPwr (fun p => { p with late := true })).raise famPwrClk 0 else s

/-- GNT has stayed high for 100 tb with REQ low (14 R486). -/
def State.gntStuck (s : State) : State :=
  if s.pwr.gnt && !s.pwr.req && !s.pwr.stuck then (s.onPwr (fun p => { p with stuck := true })).raise famPwrClk 0 else s

/-- Whether REQ may still be 1 after the sample of its grant: the model lowers it at the sample, the block within 100 tb (14 R484). -/
def State.reqLinger (s : State) : Bool := match s.pwr.grantedAt with
  | some t => decide (s.core.tb - t ≤ 100)
  | none => false

/-- GNT falls (14 R484, R486): while REQ is 1 it is an error, whether or not it was sampled high; else the next request may be presented. -/
def State.gntFall (early : Bool) (s : State) : State :=
  if s.pwr.gnt then
    let s := if early && s.reqLinger then s.raise famPwrClk 0 else s
    (s.onPwr (fun p => { p with gnt := false, stuck := false, grantedAt := none })).leavePump
  else if s.pwr.req then s.raise famPwrClk 0
  else s

/-! Switching domains (14 R482). -/

/-- Domains on as a mask of a slice. -/
def State.domMask (s : State) (p : Nat) : Nat :=
  (if s.core.doms.getLsbD (3 * p) then 1 else 0) + (if s.core.doms.getLsbD (3 * p + 1) then 2 else 0) +
  (if s.core.doms.getLsbD (3 * p + 2) then 4 else 0)

/-- SLICE_STAT (12 R419). -/
def State.sliceStat (s : State) (p : Nat) : Word :=
  let x := s.slice p
  let code := match x.st with
    | .dark => 0 | .waking => 1 | .ready => 2 | .serving => 3 | .draining => 4 | .spare => 5 | .proof => 6 | .sealed_ => 7
  let lg := match (if x.st = .serving || x.st = .draining || (x.st = .proof && x.proofServing) then x.logical else none) with
    | some l => l
    | none => 0
  at' code 0 ||| at' lg 4 ||| at' (s.domMask p) 8 ||| at' (if x.forFailover then 1 else 0) 11

/-- Amount and class of a domain's switch-on (14 R483). -/
def domLeave (d : Nat) (failover : Bool) : Nat × Nat :=
  if d < 54 then (if failover then (lvFailover, 40) else (lvWake, if d % 3 = 0 then 60 else if d % 3 = 2 then 20 else 40))
  else if d < 66 then (lvPort, if d % 2 = 0 then 40 else 10)
  else if d < 74 then (lvPort, 15)
  else (lvHalf, if d < 76 then 10 else 25)

/-- Slices that count as waking (14 R487). -/
def State.wakingCount (s : State) : Nat :=
  (s.pwr.work.filter (fun w => w.on && decide (w.unit < 18) && w.begun && !w.failover)).length +
  ((List.range 18).filter (fun p => (s.slice p).st = .waking && !(s.slice p).forFailover)).length

/-- Ask leave for a switch-on's next domain when it may be asked for. -/
def State.workAsk (w : Switching) (s : State) : State :=
  match w.left with
  | [] => s
  | d :: _ =>
    let slow : Bool := decide (w.unit < 18) && !w.failover && !w.begun && decide (2 ≤ s.wakingCount)
    if !w.on || w.asked || slow || s.pwr.falling.getLsbD d then s
    else
      let (c, a) := domLeave d w.failover
      (s.onPwr (fun p => { p with work := updateWhere (fun x => decide (x = w)) (fun x => { x with asked := true, begun := true }) p.work })).leaveAsk
        ⟨c, a, [.domain d]⟩

/-- Ask for what may be asked: failover wakes first, then slices in ascending number (14 R487), then the rest. -/
def State.workPump (s : State) : State :=
  let l := s.pwr.work
  let fo := l.filter (fun w => w.failover)
  let sl := (List.range 18).flatMap (fun p => l.filter (fun w => w.unit = p && !w.failover))
  let rest := l.filter (fun w => decide (18 ≤ w.unit))
  foldS State.workAsk (fo ++ sl ++ rest) s

/-- Begin a switch-on. -/
def State.workOn (cmd : Option Nat) (unit : Nat) (doms : List Nat) (failover : Bool) (s : State) : State :=
  (s.onPwr (fun p => { p with work := p.work ++ [⟨cmd, unit, true, doms, false, false, failover⟩] })).workPump

/-- Domains of a unit by target code, in switch-on order (14 R482). -/
def unitDoms (unit : Nat) : List Nat :=
  if unit < 18 then [3 * unit, 3 * unit + 2, 3 * unit + 1]
  else if 0x20 ≤ unit ∧ unit < 0x26 then [54 + 2 * (unit - 0x20), 55 + 2 * (unit - 0x20)]
  else if 0x28 ≤ unit ∧ unit < 0x2C then [66 + (unit - 0x28)]
  else if 0x2C ≤ unit ∧ unit < 0x30 then [70 + (unit - 0x2C)]
  else []

/-- The Logbook marker of a domain's switch (14 R496): a slice domain at once, a port or half when the unit has switched. -/
def State.sliceMarker (p : Nat) (s : State) : State := s.marker 0x04 (p * 8 + s.domMask p)

/-- Isolate one domain; a slice domain's switch-off is marked with the mask it leaves (14 R482, R496). -/
def State.isolate (d : Nat) (s : State) : State :=
  let s := s.onCore (fun k => { k with doms := clearBit k.doms d })
  let s := s.onPwr (fun p => { p with falling := setBit p.falling d, ramp := clearBit p.ramp d })
  if d < 54 then s.sliceMarker (d / 3) else s

/-- Begin a switch-off: the domains are isolated, and their contents are lost (14 R482). DESIGN CHOICE, log 85: one after another, in the order
given. -/
def State.workOff (cmd : Option Nat) (unit : Nat) (doms : List Nat) (s : State) : State :=
  (foldS State.isolate doms s).onPwr (fun p => { p with work := p.work ++ [⟨cmd, unit, false, doms, true, true, false⟩] })

/-- Way remaps of a slice are lost with its logic domain (14 R495). -/
def State.remapClear (p : Nat) (s : State) : State := s.onCore (foldS (fun k => Core.setReg (offRemap p k) 0) (List.range 16))

/-- A slice's Sieves as they are after a loss of their domain. -/
def Slice.noSieves (x : Slice) : Slice :=
  { x with hs := [], hsTree := [], ls := [], lsTree := [], spillCnt := [], spillAll := false, spill := [], ceWays := [] }

/-- What a slice holds once it is DARK (12 R419, 14 R495). -/
def State.sliceDark (p : Nat) (s : State) : State :=
  ((s.onCore (Core.setSlice p Slice.reset)).onGal p (fun g => { Gal.reset with div := g.div, divLeave := g.divLeave })).remapClear p

/-- Switch a slice's domains to a mask (12 R433): up in the order of 14 R482, or down. -/
def State.slicePower (p mask : Nat) (cmd : Option Nat) (s : State) : State :=
  let want (d : Nat) : Bool := mask.testBit (d - 3 * p)
  let up := (unitDoms p).filter (fun d => want d && !s.core.doms.getLsbD d)
  let down := (unitDoms p).filter (fun d => !want d && s.core.doms.getLsbD d)
  if !up.isEmpty then s.workOn cmd p up false
  else
    let s := s.workOff cmd p down
    if mask = 5 then s.onSlice p Slice.noSieves else s.sliceDark p

/-- Idle ends (14 R477): every gate opens. -/
def State.idleLeave (cmd : Nat) (s : State) : State :=
  let s := s.onPwr (fun p => { p with idle := false, gated := 0, wharfGated := false, leaving := none })
  (s.marker 0x02 0).complete cmd tsOk 0 []

/-- Halves that are off. -/
def State.halvesOff (s : State) : List Nat := [74, 75, 76, 77].filter (fun d => !s.core.doms.getLsbD d)

/-- Ask for a Culvert port's training (09 R302). -/
def State.trainAsk (n : Nat) (s : State) : State :=
  let has (r : Leave) : Bool := r.steps.contains (.train n)
  if s.pwr.queue.any has || (match s.pwr.shown with
    | some r => has r
    | none => false) then s
  else s.leaveAsk ⟨lvTrain, 30, [.train n]⟩

/-- ENABLE written 1 (09 R302): the port's domains come on first where they are off. -/
def State.culEnable (n : Nat) (s : State) : State :=
  let x := s.cport n
  if s.core.flt.sealCul.getLsbD n then s
  else if x.st = .off then
    let s := s.onPort n (fun y => { y with wait := true })
    if s.pwr.work.any (fun w => w.unit = 0x20 + n && w.on) then s else s.workOn none (0x20 + n) (unitDoms (0x20 + n)) false
  else if x.st = .reset || x.st = .down then (s.onPort n (fun y => { y with wait := true })).trainAsk n
  else s

/-- A unit's domains have all come on (12 R419, R445, 14 R477). -/
def State.switchedOn (w : Switching) (s : State) : State :=
  if w.unit < 18 then
    s.onSlice w.unit (fun x => { x with
      st := .waking, mode := .test, fromSpare := x.st = .spare, forFailover := w.failover, tested := false, wakeTag := w.cmd })
  else if w.unit < 0x30 then
    let s := s.marker 0x05 (w.unit + 256)
    let s :=
      if w.unit < 0x26 then s.culPowerOn (w.unit - 0x20)
      else s.onCore (fun k => if w.unit < 0x2C then
          { k with fab := mset FabPort.reset k.fab (w.unit - 0x28) FabPort.reset, flt := { k.flt with sealFab := clearBit k.flt.sealFab (w.unit - 0x28) } }
        else { k with flt := { k.flt with sealMem := clearBit k.flt.sealMem (w.unit - 0x2C) } })
    let s := s.completeOpt w.cmd tsOk 0
    if w.unit < 0x26 && (s.cport (w.unit - 0x20)).wait then s.trainAsk (w.unit - 0x20) else s
  else
    let s := (s.marker 0x06 (w.unit - 0x40 + 4)).completeOpt w.cmd tsOk 0
    match s.pwr.leaving with
    | some c => if s.halvesOff.isEmpty then s.idleLeave c else s
    | none => s

/-- What a block reset leaves: the Pilot Light and its retention bits, the levels of pins, what has left the block, the commands that wait, and
the names and free values already used (14 R494). -/
def State.blockReset (dest : BlockSt) (s : State) : State :=
  let r := State.reset
  let keep := (List.range 16).foldl (fun m k => match mfind s.core.regs (0x30400 + k * 8) with
    | some v => mput m (0x30400 + k * 8) v
    | none => m) ([] : Map Word)
  let keep := match mfind s.core.regs 0x30480 with
    | some v => mput keep 0x30480 v
    | none => keep
  { r with
    core := { r.core with
      regs := keep
      block := dest
      doms := oneHot 80 79
      out := s.core.out
      nextId := s.core.nextId
      freeCtr := s.core.freeCtr
      pf := { r.core.pf with
        seen := s.core.pf.seen
        drainDone := s.core.pf.drainDone
        drainLate := s.core.pf.drainLate
        restDone := s.core.pf.restDone
        failHigh := s.core.pf.failHigh } }
    irq := { r.irq with ext := s.irq.ext }
    tow := { r.tow with wire := s.tow.wire, wireRead := s.tow.wireRead, nextCmd := s.tow.nextCmd }
    pwr := { r.pwr with
      gnt := s.pwr.gnt
      absent := if dest = .pilot then s.pwr.absent &&& (1 <<< 36) else 0
      fired := s.pwr.fired
      cause := s.pwr.cause
      deep := s.pwr.deep
      goodLost := s.pwr.goodLost
      good := s.pwr.good
      strapAddr := s.pwr.strapAddr
      strapLeader := s.pwr.strapLeader
      strapTest := s.pwr.strapTest }
    pending := s.pending }

/-- The block enters INIT by a block reset (12 R416, 14 R481): domains 74 to 78 ask leave, and PL_WAKE_STAT.WOKE says whether a slot had fired
(13 R470). -/
def State.enterInit (s : State) : State :=
  let woke : Word := if s.pwr.fired = 0 then 0 else at' 1 16
  ((s.blockReset .init).onCore (Core.setReg 0x30480 woke)).leaveAsk ⟨lvInit, 180, [.initDomains]⟩

/-- A unit's domains have all been switched off. -/
def State.switchedOff (w : Switching) (s : State) : State :=
  if w.unit < 18 then s.completeOpt w.cmd tsOk (s.sliceStat w.unit)
  else if w.unit < 0x30 then (s.marker 0x05 w.unit).completeOpt w.cmd tsOk 0
  else if w.unit < 0x44 then (s.marker 0x06 (w.unit - 0x40)).completeOpt w.cmd tsOk 0
  else (s.completeOpt w.cmd tsOk 0).blockReset .pilot

/-- The half that a HALF marker names is in bit 1 of its argument: an element's code with half B has 2 added. -/
def halfUnit (element half : Nat) : Nat := 0x40 + element + 2 * half

/-- The domain that ramps next in INIT on the one BLOCK_INIT grant: 78, then 74 to 77 (15 R499). -/
def initNext (d : Nat) : Option Nat := if d = 78 then some 74 else if 74 ≤ d ∧ d < 77 then some (d + 1) else none

/-- A domain has come into regulation (14 R482). -/
def State.domainOn (d : Nat) (s : State) : State :=
  if !s.pwr.ramp.getLsbD d then s
  else
    let s := (s.onPwr (fun p => { p with ramp := clearBit p.ramp d })).onCore (fun k => { k with doms := setBit k.doms d })
    let s := if d < 54 then s.sliceMarker (d / 3) else s
    let s := match (if s.core.block = .init then initNext d else none) with
      | some e => s.onPwr (fun p => { p with ramp := setBit p.ramp e })
      | none => s
    match s.pwr.work.find? (fun w => w.on && w.asked && decide (w.left.head? = some d)) with
    | none => s.workPump
    | some w =>
      let v : Switching := { w with left := w.left.drop 1, asked := false }
      if v.left.isEmpty then ((s.onPwr (fun p => { p with work := p.work.erase w })).switchedOn v).workPump
      else (s.onPwr (fun p => { p with work := updateWhere (fun x => decide (x = w)) (fun _ => v) p.work })).workPump

/-- A domain's power has been removed (14 R482). -/
def State.domainOff (d : Nat) (s : State) : State :=
  if !s.pwr.falling.getLsbD d then s
  else
    let s := s.onPwr (fun p => { p with falling := clearBit p.falling d })
    match s.pwr.work.find? (fun w => !w.on && w.asked && w.left.contains d) with
    | none => s.workPump
    | some w =>
      let v : Switching := { w with left := w.left.filter (fun e => e != d) }
      if v.left.isEmpty then ((s.onPwr (fun p => { p with work := p.work.erase w })).switchedOff v).workPump
      else (s.onPwr (fun p => { p with work := updateWhere (fun x => decide (x = w)) (fun _ => v) p.work })).workPump

/-! Clocks (14 R490 to R492). -/

/-- A divider change takes effect at once in a slice that runs nothing (14 R491). -/
def State.divPump (p : Nat) (s : State) : State :=
  let st := (s.slice p).st
  if (st = .dark || st = .ready || st = .spare || st = .sealed_) && s.divReady p then s.divNow p else s

/-- A write of CLK_SLICE (14 R490, R491): a faster clock asks leave first. -/
def State.clkWrite (p : Nat) (v : Word) (s : State) : State :=
  let s := s.onCore (Core.setReg (0x30200 + p * 8) (v &&& 7))
  let faster : Bool := decide (divOf v < (s.gal p).div)
  let has (r : Leave) : Bool := r.steps.contains (.divider p)
  let asked : Bool := s.pwr.queue.any has || (match s.pwr.shown with
    | some r => has r
    | none => false)
  if faster then (if asked || (s.gal p).divLeave then s else s.leaveAsk ⟨lvWake, 30, [.divider p]⟩) else s.divPump p

/-- Whether the clock of a slice is gated now, for any reason (14 R490). -/
def State.clockGated (s : State) (p : Nat) : Bool :=
  let st := (s.slice p).st
  s.pwr.gated.getLsbD p || (bit (s.reg (0x30200 + p * 8)) 2 && (st = .ready || st = .spare))

/-- Whether a clock is expected to run (14 R492). -/
def State.clockRuns (s : State) (d : Nat) : Bool :=
  if d < 18 then s.core.doms.getLsbD (3 * d) && !s.clockGated d
  else if d < 22 then s.core.doms.getLsbD (66 + (d - 18))
  else if d < 26 then s.core.doms.getLsbD (70 + (d - 22))
  else if d < 32 then decide (1 < (s.cport (d - 26)).st.code)
  else if d < 34 then (List.range 3).any (fun i => s.core.doms.getLsbD (54 + 2 * (3 * (d - 32) + i)))
  else if d < 36 then false
  else if d = 38 then wirIntrusive s.pwr.wir
  else true

/-- A clock with no edge for 64 tb (14 R492). -/
def State.clockAbsent (d : Nat) (s : State) : State :=
  if s.pwr.absent.getLsbD d || !s.clockRuns d then s
  else
    let s := s.onPwr (fun p => { p with absent := setBit p.absent d })
    if d < 18 then s.raise famClkFail d
    else if d < 22 then s.raise famClkFail (unitFab (d - 18))
    else if d < 26 then s.raise famClkFail (unitMem (d - 22))
    else if d < 32 then s.raise famClkFail (unitCul (d - 26))
    else if d < 34 then
      foldS (fun i s => let n := 3 * (d - 32) + i
        if s.core.doms.getLsbD (54 + 2 * n) then s.raise famClkFail (unitCul n) else s) (List.range 3) s
    else if d = 36 then s.raise famPwrClk 0
    else if d = 37 then (s.onPwr (fun p => { p with fallback := true })).raise famPwrClk 0
    else s

/-- A clock declared absent shows edges again (14 R492). -/
def State.clockReturn (d : Nat) (s : State) : State :=
  if s.pwr.absent.getLsbD d then
    s.onPwr (fun p => { p with absent := clearBit p.absent d, fallback := p.fallback && decide (d ≠ 37) }) else s

/-! Idle (14 R474 to R477). -/

/-- Whether an operation of the Larder engine or the Overflow Larder acts on a slice: its own fetches and write-backs, the page of a rebuild that
concerns it, its lookups and insertions (14 R474). -/
def LOp.acts (p : Nat) : LOp → Bool
  | .fetch q _ _ | .writeBack q _ _ | .suspect q | .fetched q _ _ => q = p
  | .scrub | .towRead _ | .towRebuild _ | .census _ _ => false
def OOp.acts (p : Nat) : OOp → Bool
  | .lookup q _ | .tidyRead q _ => q = p
  | .insert (some (q, _)) _ => q = p
  | .insert none _ | .query _ _ | .census | .tidyWrite | .move _ | .scrub _ | .sweep _ _ => false

/-- A slice is quiet (14 R474). -/
def State.sliceQuiet (s : State) (p : Nat) : Bool :=
  let c := s.core
  let x := c.slice p
  let mine (h : BitVec 4) : Bool := c.physOf h = p
  x.barges.isEmpty && x.internals.isEmpty && x.drip.isEmpty && !(s.gal p).items.any (fun i => i.isOut) && (s.gal p).wants.isEmpty &&
  !c.eng.larder.any (fun j => (j.ops ++ j.ending).any (LOp.acts p) || j.flags.contains p) && !c.eng.ovf.any (fun j => j.op.acts p) &&
  !c.host.berths.any (fun b => b.slice = some p || (b.slice.isNone && mine b.hash && !b.discard && !b.writing)) &&
  !c.host.intake.any (fun i => i.op != opSnpQ && (i.slice = some p || (i.slice.isNone && mine i.hash))) &&
  !c.mem.reads.any (fun r => match r.use with
    | .barge q _ | .warm q _ _ => q = p
    | _ => false) &&
  !c.mem.writes.any (fun w => match w.src with
    | .skillet q _ | .drip q _ => q = p
    | _ => (match w.waiter with
      | some (q, _) => q = p
      | none => false)) &&
  !c.failovers.any (fun f => f.spare = some p)

/-- The Wharf is quiet (14 R474). -/
def State.wharfQuiet (s : State) : Bool :=
  s.core.wharf.xfers.isEmpty && s.core.host.berths.all (fun b => b.slice.isSome || b.discard || b.writing) &&
  s.core.host.intake.all (fun i => i.slice.isSome || i.op = opSnpQ)

/-- Whether Idle may gate a slice's clock: it serves or is in PROOF, outside RECOVERY mode (14 R474). -/
def State.mayGate (s : State) (p : Nat) : Bool :=
  ((s.slice p).st = .serving || (s.slice p).st = .proof) && (s.slice p).mode != .recovery

/-- Restart the clock of a slice (14 R475). -/
def State.ungate (p : Nat) (s : State) : State := s.onPwr (fun w => { w with gated := clearBit w.gated p })

/-- A clock gate closes after GATE_SC quiet cycles (14 R474). -/
def State.gateClose (g : Option (Fin 18)) (s : State) : State :=
  if !s.pwr.idle then s
  else match g with
    | some p =>
      if s.mayGate p.val && s.sliceQuiet p.val && !s.pwr.gated.getLsbD p.val then
        (s.onPwr (fun w => { w with gated := setBit w.gated p.val })).onCore (Core.bump p.val 0x041 1)
      else s
    | none =>
      if s.wharfQuiet && !s.pwr.wharfGated then (s.onPwr (fun w => { w with wharfGated := true })).onCore (Core.bump 32 0x204 1) else s

/-- Arrivals restart the clocks they need (14 R475). Idle is in force only in SERVICE and FROZEN (14 R471). -/
def State.gateReconcile (s : State) : State :=
  if !s.pwr.idle then s
  else if s.core.block != .service && s.core.block != .frozen then
    (s.onPwr (fun p => { p with idle := false, gated := 0, wharfGated := false })).marker 0x02 0
  else
    let g := (setBits s.pwr.gated 18).foldl (fun (v : BitVec 18) p => if s.sliceQuiet p && s.mayGate p then v else clearBit v p) s.pwr.gated
    s.onPwr (fun w => { w with gated := g, wharfGated := w.wharfGated && s.wharfQuiet })

/-- PWR_IDLE (14 R474, R477). -/
def State.pwrIdle (on : Bool) (cmd : Nat) (s : State) : State :=
  if on then
    let s := if s.pwr.idle then s else (s.onPwr (fun p => { p with idle := true })).marker 0x01 0
    s.complete cmd tsOk 0 []
  else if !s.pwr.idle then s.complete cmd tsOk 0 []
  else
    match s.halvesOff with
    | [] => s.idleLeave cmd
    | l =>
      let s := s.onPwr (fun p => { p with leaving := some cmd })
      foldS (fun d s =>
        let u := halfUnit ((d - 74) / 2) ((d - 74) % 2)
        if s.pwr.work.any (fun w => w.unit = u && w.on) then s else s.workOn none u [d] false) l s

/-- PWR_HALF (12 R444, 01 R54). -/
def State.pwrHalf (element half : Nat) (on : Bool) (cmd : Nat) (s : State) : State :=
  let d := 74 + 2 * element + half
  if on then (if s.core.doms.getLsbD d then s.complete cmd tsOk 0 [] else s.workOn (some cmd) (halfUnit element half) [d] false)
  else if s.core.doms.getLsbD d then s.workOff (some cmd) (halfUnit element half) [d]
  else s.complete cmd tsOk 0 []

/-- PORT_POWER (12 R445). -/
def State.portPower (unit : Nat) (on : Bool) (cmd : Nat) (s : State) : State :=
  if on then s.workOn (some cmd) unit (unitDoms unit) false
  else
    let s := if unit < 0x26 then s.culPowerOff (unit - 0x20)
      else if unit < 0x2C then s.onCore (fun k => { k with fab := mset FabPort.reset k.fab (unit - 0x28) FabPort.reset })
      else s
    s.workOff (some cmd) unit (unitDoms unit)

/-! Deep (14 R480). -/

/-- Bring every waiting record into the trace SRAM. -/
def State.traceAll : Nat → State → State
  | 0, s => s
  | n + 1, s => if s.watch.nextTrace.isSome || s.watch.lossDue != 0 then s.traceWrite.traceAll n else s

/-- Spill every unwritten trace record: whole lines, then a last one with zeros behind its records. -/
def State.spillAll : Nat → State → State
  | 0, s => s
  | n + 1, s =>
    let k := Nat.min 8 s.watch.ringLen
    if k = 0 || s.watch.spillFault || s.core.gatePaused gateLogbook then s else (s.spillOne k).spillAll n

/-- PWR_DEEP, steps 1 and 2 (14 R480): the rest follows once the spilled lines have been accepted. -/
def State.pwrDeep (cmd : Nat) (s : State) : State :=
  let s := s.marker 0x07 0
  let s := if s.logOn && s.logSpill then (s.traceAll 1024).spillAll 300 else s
  s.onPwr (fun p => { p with deep := true, work := p.work ++ [⟨some cmd, 0x44, false, [], false, false, false⟩] })

/-- Step 3 of PWR_DEEP (14 R480): every domain but 78 and 79 is switched off. -/
def State.deepReconcile (s : State) : State :=
  match s.pwr.work.find? (fun w => w.unit = 0x44 && !w.asked) with
  | none => s
  | some w =>
    if s.core.mem.writes.any (fun v => v.src = .logbook) then s
    else
      let s := s.onPwr (fun p => { p with work := p.work.erase w })
      let s := foldS State.sliceDark (List.range 18) s
      let s := foldS State.culPowerOff (List.range 6) s
      let port (d : Nat) : List Nat :=
        if d < 66 then (if d % 2 = 0 then [0x20 + (d - 54) / 2] else []) else if d < 70 then [0x28 + (d - 66)] else [0x2C + (d - 70)]
      let on := (List.range 78).filter (fun d => s.core.doms.getLsbD d)
      let s := s.workOff w.cmd 0x44 (on.filter (fun d => decide (d < 74)) ++ on.filter (fun d => decide (76 ≤ d)) ++
        on.filter (fun d => decide (74 ≤ d ∧ d < 76)))
      let s := foldS (fun u s => s.marker 0x05 u) ((on.filter (fun d => decide (54 ≤ d ∧ d < 74))).flatMap port) s
      foldS (fun d s => s.marker 0x06 (halfUnit ((d - 74) / 2) ((d - 74) % 2) - 0x40)) (on.filter (fun d => decide (74 ≤ d))) s

/-! Wake and reset (12 R416, 13 R468, 14 R481, R494). -/

/-- PWR_GOOD rises (12 R416). -/
def State.goodRise (s : State) : State :=
  let was := s.pwr.good
  let s := s.onPwr (fun p => { p with good := true })
  if s.core.block = .pilot && !was then (s.onPwr (fun p => { p with cause := 1 })).enterInit else s

/-- PWR_GOOD falls (12 R416, 14 R494). -/
def State.goodFall (s : State) : State :=
  let s := s.onPwr (fun p => { p with good := false })
  if s.powered then (s.onPwr (fun p => { p with goodLost := true })).blockReset .pilot else s

/-- The always-on supply comes into regulation (12 R416, 18 R577). -/
def State.supplyOn (st : Straps) (good : Bool) (s : State) : State :=
  if s.core.block != .off then s
  else
    let s := s.onCore (fun c => { c with regs := [], pf := { PowerFail.reset with failHigh := c.pf.failHigh } })
    let s := s.onPwr (fun p => { p with
      fired := 0, cause := 0, deep := false, goodLost := false, good := good, strapAddr := st.addr, strapLeader := st.leader, strapTest := st.test })
    let s := (s.onTow (fun t => { t with wire := some [], wireRead := none })).blockReset .pilot
    if good then (s.onPwr (fun p => { p with cause := 1 })).enterInit else s

/-- The always-on supply is lost (12 R416). -/
def State.supplyOff (s : State) : State :=
  let s := (s.blockReset .off).onCore (fun c => { c with doms := 0, regs := [], pf := { PowerFail.reset with failHigh := c.pf.failHigh } })
  s.onPwr (fun p => { p with fired := 0, cause := 0, deep := false, goodLost := false, good := false, gnt := false })

/-- A wake slot sees an event of its source (13 R468). -/
def State.wakeFire (k : Nat) (s : State) : State :=
  let w := s.reg (0x30400 + k * 8)
  let src := bits w 15 8
  let seen : Bool := if s.core.doms.getLsbD 78 then true else 112 ≤ src && src < 128 && !s.pwr.absent.getLsbD 36
  if s.core.block = .off || !bit w 0 || irqReserved src || irqSoft src || !seen then s
  else
    let s := s.onPwr (fun p => { p with fired := setBit p.fired k, gated := 0, wharfGated := false })
    if s.core.block = .pilot && s.pwr.good then (s.onPwr (fun p => { p with cause := 2 })).enterInit else s

/-- A write of PL_CTL (14 R481). -/
def State.plWake (v : Word) (s : State) : State :=
  if s.core.block = .pilot && bit v 0 && s.pwr.good then (s.onPwr (fun p => { p with cause := 3 })).enterInit else s

/-- Self-test ends (15 R499, R500, 12 R416), and with it INIT: 64 command-word credits go to the streaming port's sender (18 R586). -/
def State.selftest (r : SelfTest) (s : State) : State :=
  if s.core.block != .init || !([74, 75, 76, 77, 78].all (fun d => s.core.doms.getLsbD d)) then s
  else
    let b (v : Bool) : Nat := if v then 1 else 0
    let w := at' r.lkOk.toNat 0 ||| at' (b r.voterOk) 3 ||| at' (b r.berthA) 4 ||| at' (b r.berthB) 5 ||| at' (b r.wharfA) 6 |||
      at' (b r.wharfB) 7 ||| at' r.repaired.toNat 16 ||| at' r.timeUs.toNat 32
    let s := (s.onStart (fun x => { x with initStat := w })).onCore (Core.emit (.cmdCredit 64))
    let bad := (List.range 3).filter (fun k => !r.lkOk.getLsbD k)
    if !r.voterOk || decide (2 ≤ bad.length) || (!r.berthA && !r.berthB) || (!r.wharfA && !r.wharfB) then s.onCore Core.sealBlock
    else
      let s := s.onCore (fun c => { c with block := .standby })
      let s := foldS (fun k s => s.onCore (fun c => c.lkMismatch k)) (bad.filterMap (fun k => if h : k < 3 then some ⟨k, h⟩ else none)) s
      let off (good : Bool) (element half : Nat) (s : State) : State := if good then s else s.onCore (Core.halfFails element half)
      let s := off r.wharfB 1 1 (off r.wharfA 1 0 (off r.berthB 0 1 (off r.berthA 0 0 s)))
      let fired := s.pwr.fired
      s.irqWake.marker 0x08 (s.pwr.cause + fired.toNat * 2 ^ 16)

/-- The test reset (18 R590): a block reset with its entry to INIT. -/
def State.testReset (s : State) : State := (s.onPwr (fun p => { p with wir := 0 })).enterInit

/-- A wrapper instruction update (18 R589, R590). An intrusive instruction that may not take effect leaves WS_BYPASS, which ends one in force. -/
def State.wrapper (ir : BitVec 5) (s : State) : State :=
  let v := wirActs ir
  if wirIntrusive v then
    let ok : Bool := s.pwr.strapTest && s.core.block = .standby && (List.range 6).all (fun n => decide ((s.cport n).st.code ≤ 1)) &&
      s.core.host.present = 0
    if ok then s.onPwr (fun p => { p with wir := v })
    else if wirIntrusive s.pwr.wir then s.testReset
    else s.onPwr (fun p => { p with wir := 0 })
  else if wirIntrusive s.pwr.wir then s.testReset
  else s.onPwr (fun p => { p with wir := v })

/-- TST_WRST_N at 0 (18 R590). -/
def State.wrapperReset (s : State) : State := if wirIntrusive s.pwr.wir then s.testReset else s.onPwr (fun p => { p with wir := 0 })

/-! Steps that a granted leave takes (14 R483). -/

/-- Take one step. -/
def State.leaveStep (t : Step_) (s : State) : State :=
  match t with
  | .domain d => s.onPwr (fun p => { p with ramp := setBit p.ramp d })
  | .divider p => (s.onGal p (fun g => { g with divLeave := true })).divPump p
  | .initDomains => s.onPwr (fun p => { p with ramp := setBit p.ramp 78 })
  | .train n => if (s.cport n).wait then s.culDetect n else s
  | .rebuilds => s
  | .scrub => s.onCore Core.scrubBurst
  | .generation => s.onCore (fun c => ((c.onEng (fun g => { g with genLeave := false })).task .larderPump))

/-- The grant is sampled (14 R484): the step is taken and REQ falls. A grant that meets no request takes none, nor does one that rose in the
cycle of a withdrawal: the request that was to follow waits for GNT 0 (14 R486). -/
def State.leaveGnt (raced : Bool) (s : State) : State :=
  if s.pwr.gnt then s
  else
    let s := if raced && decide (s.pwr.withdrawnAt = some s.core.tb) then s.leaveWithdraw else s
    match s.pwr.shown with
    | none => s.onPwr (fun p => { p with gnt := true, grantedAt := none, withdrawnAt := none })
    | some r =>
      let s := s.onPwr (fun p => { p with
        gnt := true
        shown := none
        req := false
        withdrawnAt := none
        grantedAt := some s.core.tb
        lastWait := Nat.min 0xFFFF ((s.core.tb - p.raisedAt) / 100)
        count := Nat.min 255 (p.count + 1) })
      foldS State.leaveStep r.steps s

/-- A scrub interval begins (05 R182, 14 R483): a burst asks leave; one that still waits is not doubled. -/
def State.scrubAsk (s : State) : State :=
  let has (r : Leave) : Bool := r.cls = lvScrub
  if s.core.eng.generation = 0 || s.core.stopped || s.core.gatePaused gateScrub || s.pwr.queue.any has || (match s.pwr.shown with
    | some r => has r
    | none => false) then s
  else s.leaveAsk ⟨lvScrub, 10, [.scrub]⟩

/-- Leave for a burst of rebuilds is asked once more than four are queued (05 R179). -/
def State.interrogReconcile (s : State) : State :=
  let many : Bool := decide (4 < (s.core.eng.larder.filter (fun j => j.phase = .queued)).length)
  if many && !s.pwr.interrog then (s.onPwr (fun p => { p with interrog := true })).leaveAsk ⟨lvInterrog, 20, [.rebuilds]⟩
  else if !many && s.pwr.interrog then s.onPwr (fun p => { p with interrog := false })
  else s

/-! The end of WAKING (12 R419, 14 R487). -/

/-- Fill SIEVE_REMAP with the ways that BIST found faulty; more of them than entries raise REMAP_FULL (05 R184). -/
def State.bistRemap (p : Nat) (faults : List WayFault) (s : State) : State :=
  let word (f : WayFault) : Word := at' 1 0 ||| at' (if f.local? then 1 else 0) 1 ||| at' f.way.val 2 ||| at' f.set.toNat 6
  let s := s.remapClear p
  let s := s.onCore (foldS (fun (e : Nat × WayFault) => Core.setReg (offRemap p e.1) (word e.2)) ((List.range 16).zip faults))
  if 16 < faults.length then s.raise famRemapFull p else s

/-- A waking slice's tests end. DESIGN CHOICE, log 76: the rewinds and the sweep correction of the comparator test are neither counted in GAL_CNT nor
raised. -/
def State.wakeEnd (p : Nat) (faults : List WayFault) (same : Bool) (s : State) : State :=
  let x := s.slice p
  if x.st != .waking || (x.forFailover && x.tested) then s
  else
    let s := if x.forFailover then s else s.bistRemap p faults
    let cmd := x.wakeTag
    let s := s.onSlice p (fun x => { x with wakeTag := none })
    if !same then
      let s := (s.onCore (Core.sealSlice p none)).raise famGalleySelftest p
      (s.completeOpt cmd tsFailed (s.sliceStat p)).workPump
    else
      let s := s.onSlice p (fun x => { x.noSieves with skl := [], warm := [], drip := [], miss := none, pred := [], last := 0, run := 1 })
      let s :=
        if x.forFailover then s.onSlice p (fun x => { x with tested := true })
        else s.onSlice p (fun y => { y with st := if x.fromSpare then .spare else .ready, fromSpare := false })
      ((s.divPump p).completeOpt cmd tsOk (s.sliceStat p)).workPump

end Sys2Proof.Machine
end

