-- ==== Sys2Proof/Machine/Drain.lean ====
section
/-!
DEFINITION. Sys2Proof/Machine/Drain.lean: the slice remap, drains, spare swaps and Trim changes (02 R66 to R69, 15 R501, R516 to R520, 12 R433
to R436, R444).
-/
namespace Sys2Proof.Machine

/-! A drain's steps (15 R516). -/

/-- Whether a line leaves a slice by the drain under way there. -/
def Core.departs (s : Core) (p : Nat) (x : LineAddr) : Bool := (s.slice p).st = .draining || s.leavesHash p (sliceHash x)

/-- A forwarded barge at the proxy returns to its berth entry, which keeps FORWARDED and what it holds of the completion (15 R516 step 1). -/
def Core.unforward (p : Nat) (b : Barge) (s : Core) : Core :=
  match b.item with
  | .req id =>
    (s.onSlice p (fun x => { x with
      barges := x.barges.filter (fun c => c.id != b.id)
      chambers := (updateWhere (fun c => c.line = b.line) (fun c => { c with order := c.order.filter (fun i => i != b.id) })
        x.chambers).filter (fun c => !c.order.isEmpty) })).onBerth id
      (fun r => { r with slice := none, fwd := true, cmp := b.cmp, got := b.gotData, gotBad := b.gotPoison })
  | _ => s

/-- Step 1 of a drain: barges of departing lines that have done nothing, and forwarded ones, go back; prefetches that wait are dropped. -/
def Core.drainClose (p : Nat) (s : Core) : Core :=
  let x := s.slice p
  let idle (b : Barge) : Bool := b.phase = .waiting && !b.sent && !b.given && !x.chambers.any (fun c => c.order.head? = some b.id)
  let s := foldS (Core.unload p) (x.barges.filter (fun b => s.departs p b.line && idle b)) s
  let s := foldS (Core.unforward p) (x.barges.filter (fun b => s.departs p b.line && b.phase = .forwarded)) s
  let out (s : Core) (i : Internal) : Bool := i.kind = .prefetch && s.departs p i.line
  s.onSlice p (fun x => { x with internals := x.internals.filter (fun i => !out s i) })

/-- The line of a Home Sieve way. -/
def Core.hsLine (s : Core) (k : Nat) (e : HsWay) : LineAddr := s.lineAtOffset (hsLineIndex (k / 16) e.tag * 256)

/-- Whether a Skillet entry's write is on its way. -/
def Core.sklWriting (s : Core) (p i : Nat) : Bool := s.mem.writes.any (fun w => w.src = .skillet p i)

/-- Step 3 of a drain, once no departing line has a barge: records go to the Larder, Local Sieve entries to the Overflow Larder as the spill buffer
has room (05 R161), dirty Skillet lines to memory, and the warming tray is dropped (07 R249). -/
def Core.drainEmpty (p : Nat) (s : Core) : Core :=
  if (s.slice p).barges.any (fun b => s.departs p b.line) then s
  else
    let s := foldS (fun (e : Nat × HsWay) s =>
      let s := if e.2.dirty then s.writeBack p (hsLineIndex (e.1 / 16) e.2.tag * 256) e.2.rcd else s
      s.onSlice p (fun x => { x with hs := merase x.hs e.1 })) ((s.slice p).hs.filter (fun e => s.departs p (s.hsLine e.1 e.2))) s
    let s := foldS (fun (e : Nat × LsWay) s => if s.spillFull p then s else (s.spillOut p e.2).onSlice p (fun x => { x with ls := merase x.ls e.1 }))
      ((s.slice p).ls.filter (fun e => s.departs p e.2.line)) s
    let s := foldS (fun (e : Nat × SklEnt) s => s.sklWrite p e.1 none)
      ((s.slice p).skl.filter (fun e => s.departs p e.2.line && e.2.dirty && !s.sklWriting p e.1)) s
    let gone := (s.slice p).warm.filter (fun e => s.departs p e.2.line)
    s.onSlice p (fun x => { x with warm := x.warm.filter (fun e => !gone.contains e) })

/-- Whether a drain has ended: no barge, record, entry or dirty line of a departing line is left in the slice, and memory has accepted every
write (15 R516). -/
def Core.drained? (s : Core) (p : Nat) : Bool :=
  let x := s.slice p
  let out := s.departs p
  !x.barges.any (fun b => out b.line) && !x.hs.any (fun e => out (s.hsLine e.1 e.2)) && !x.ls.any (fun e => out e.2.line) &&
  !x.spill.any (fun e => out e.line) && !x.skl.any (fun e => out e.2.line && e.2.dirty) && !x.drip.any (fun e => out e.2.line) &&
  !x.warm.any (fun e => out e.2.line) &&
  !s.eng.ovf.any (fun j => match j.op with
    | .insert (some (q, l)) _ => q = p && out l
    | _ => false) &&
  !s.eng.larder.any (fun j => (j.ops ++ j.ending).any (fun o => match o with
    | .writeBack q i _ => q = p && out (s.recLine j.page i.toNat)
    | _ => false))

/-! The hand-over (15 R516 step 4). -/

/-- Add spill counts set by set, saturating at 255. -/
def spillSum (a b : Map Nat) : Map Nat := b.foldl (fun m e => mset 0 m e.1 (Nat.min 255 (mget 0 m e.1 + e.2))) a

/-- Add suspect map entries to a map: one page has one entry. -/
def suspectSum (a b : List Suspect) : List Suspect :=
  b.foldl (fun l e =>
    if l.any (fun f => f.page = e.page) then
      updateWhere (fun (f : Suspect) => f.page = e.page) (fun f => { f with count := f.count + e.count, flag := f.flag || e.flag }) l
    else l ++ [e]) a

/-- A drained slice's spill counts and suspect map entries go to the slices that receive its lines. -/
def Core.handOver (p : Nat) (dest : List Nat) (s : Core) : Core :=
  let x := s.slice p
  let sus := s.suspects p
  let s := foldS (fun q s => (s.onSlice q (fun y => { y with
      spillCnt := spillSum y.spillCnt x.spillCnt
      spillAll := y.spillAll || x.spillAll })).onSuspects q (fun l => suspectSum l sus)) dest s
  if x.st = .draining then s.onSuspects p (fun _ => []) else s

/-- Map a logical slice: no two entries name one physical slice (15 R501). -/
def Core.mapTo (l q : Nat) (s : Core) : Core :=
  s.onHost (fun h => { h with remap := mput (h.remap.map (fun e => if e.2 = q then (e.1, 0x1F) else e)) l q })

/-- Take a logical slice off the map. -/
def Core.unmap (l : Nat) (s : Core) : Core := s.onHost (fun h => { h with remap := mput h.remap l 0x1F })

/-- After a change of the map from an earlier state: internal operations wait in the slice that now serves their lines, drained slices'
simmer timers move there (06 R213), and WB_Ds of this instance that no slice could take go on. -/
def Core.rehome (from_ : Core) (drained : List Nat) (s : Core) : Core :=
  let at_ (x : LineAddr) := s.physOfLine x
  let moves := s.slices.flatMap (fun e => (e.2.internals.filter (fun i => at_ i.line != e.1)))
  let s1 := s.slices.foldl (fun (k : Core) e => k.onSlice e.1 (fun x => { x with internals := x.internals.filter (fun i => at_ i.line = e.1) })) s
  let s1 := foldS (fun (i : Internal) k => k.onSlice (at_ i.line) (fun x => { x with internals := x.internals ++ [i] })) moves s1
  let s1 := foldS (fun p k =>
    let l := (k.slice p).simmer.filter (fun e => at_ e.line != p && decide (at_ e.line < 18))
    let k := k.onSlice p (fun x => { x with simmer := x.simmer.filter (fun e => !l.contains e) })
    foldS (fun (e : Simmer) k => k.onSlice (at_ e.line) (fun x => { x with simmer := x.simmer ++ [e] })) l k) drained s1
  let wbs := s.host.berths.filter (fun b => b.own && agentInst b.h.agent = s.self && !b.writing && s.homesHere b.h.line &&
    decide (18 ≤ from_.physOfLine b.h.line) && decide (at_ b.h.line < 18))
  foldS (fun (b : Berth) k => k.task (.wbArrive (at_ b.h.line) b.id)) wbs s1

/-- A slice starts to serve a logical slice: the mode event takes it into STARTUP, then SERVICE (12 R419). -/
def Core.serve (l q : Nat) (s : Core) : Core :=
  let s := s.onSlice q (fun x => { x with st := .serving, logical := some l, proofServing := false })
  { s with up := s.up ++ [Up.mode q 1, Up.mode q 0] }

/-- A drained slice leaves service: its clean lines and its predictor's counters are dropped (07 R249). A partly drained one serves on. -/
def Core.retireSlice (p : Nat) (toSpare : Bool) (s : Core) : Core :=
  let x := s.slice p
  if x.st = .draining then
    s.onSlice p (fun x => { x with st := if toSpare then .spare else .ready, logical := none, skl := [], pred := [], leaving := none })
  else
    let keep := x.skl.filter (fun e => !s.departs p e.2.line)
    s.onSlice p (fun x => { x with skl := keep, leaving := none })

/-! Commands. -/

/-- Whether a logical slice is mapped: its entry names a slice that is SERVING or in PROOF from SERVING (15 R501). -/
def Core.mapped (s : Core) (l : Nat) : Bool :=
  let p := mget 0x1F s.host.remap l
  decide (p < 18) && s.serves p

/-- Number of logical slices a Trim setting serves (02 R66). -/
def trimSize (t : Nat) : Nat := if t = 1 then 8 else if t = 2 then 4 else 16

/-- Whether a slice may be put to work: READY or hot SPARE, with an active image (12 R435, R444). -/
def Core.fit (s : Core) (readyToo : Bool) (q : Nat) : Bool :=
  let x := s.slice q
  s.sliceDoms q = (true, true, true) && (x.st = .spare || (readyToo && x.st = .ready)) && x.control.holds

/-- SLICE_SERVE (15 R501). -/
def State.sliceServe (p l : Nat) (cmd : Nat) (s : State) : State :=
  let was := s.core
  (s.onCore (fun k => Core.rehome was [] ((k.mapTo l p).serve l p))).complete cmd tsOk 0 []

/-- Begin a drain command: step 1 of each slice's drain. -/
def State.drainStart (j : DrainJob) (s : State) : State :=
  let s := s.onStart (fun x => { x with drains := x.drains ++ [j] })
  s.onCore (foldS Core.drainClose j.parts)

/-- Slices leave SERVING for a drain. -/
def State.drainMark (l : List Nat) (s : State) : State :=
  foldS (fun p s => s.onSlice p (fun x => { x with st := .draining })) l s

/-- SLICE_DRAIN and SLICE_SWAP (15 R516, R518). -/
def State.sliceDrain (p : Nat) (toSpare : Bool) (cmd : Nat) (s : State) : State :=
  (s.drainMark [p]).drainStart ⟨cmd, .drain p toSpare, s.core.tb, [p]⟩
def State.sliceSwap (p q : Nat) (toSpare : Bool) (cmd : Nat) (s : State) : State :=
  (s.drainMark [p]).drainStart ⟨cmd, .swap p q toSpare, s.core.tb, [p]⟩

/-- The slices that take the logical slices a larger setting adds, lowest-numbered first (12 R444). -/
def Core.trimAdds (s : Core) (t : Nat) : Option (List (Nat × Nat)) :=
  let need := (List.range (trimSize t)).filter (fun l => decide (trimSize s.host.trim ≤ l))
  let have_ := (List.range 18).filter (s.fit true)
  if have_.length < need.length then none else some (need.zip have_)

/-- PWR_TRIM to another setting (15 R519, R520). -/
def State.pwrTrim (t : Nat) (adds : List (Nat × Nat)) (cmd : Nat) (s : State) : State :=
  let now := trimSize s.core.host.trim
  if trimSize t < now then
    let parts := ((List.range now).filter (fun l => decide (trimSize t ≤ l))).filterMap (fun l =>
      let p := mget 0x1F s.core.host.remap l
      if p < 18 && s.core.serves p then some p else none)
    (s.drainMark parts).drainStart ⟨cmd, .trim t [], s.core.tb, parts⟩
  else
    let parts := (List.range 18).filter s.core.serves
    let s := foldS (fun p s => s.onSlice p (fun x => { x with leaving := some t })) parts s
    s.drainStart ⟨cmd, .trim t adds, s.core.tb, parts⟩

/-- Slices that a drain command puts to work at its end. -/
def DrainFor.takers (k : DrainFor) : List (Nat × Bool) := match k with
  | .drain _ _ => []
  | .swap _ q _ => [(q, false)]
  | .trim _ adds => adds.map (fun e => (e.2, true))

/-- The slices that receive a drained slice's lines. -/
def State.receivers (s : State) (k : DrainFor) (p : Nat) : List Nat := match k with
  | .drain _ _ => []
  | .swap _ q _ => [q]
  | .trim t adds =>
    let l := (s.slice p).logical.getD 0
    if adds.isEmpty then
      let q := mget 0x1F s.core.host.remap (l % trimSize t)
      if q < 18 then [q] else []
    else (adds.filter (fun e => e.1 % trimSize s.core.host.trim = l)).map (fun e => e.2)

/-- A drain command ends without its change: its slices serve on. -/
def State.drainFail (j : DrainJob) (s : State) : State :=
  let back (x : Slice) : Slice := { x with st := if x.st = .draining then .serving else x.st, leaving := none }
  let s := foldS (fun p s => s.onSlice p back) j.parts s
  (s.onStart (fun x => { x with drains := x.drains.filter (fun k => k.cmd != j.cmd) })).completeFree j.cmd tsFailed

/-- The change of the map that ends a drain command, in one host-port cycle (02 R67, R69). -/
def State.drainMap (k : DrainFor) (s : State) : State :=
  match k with
  | .drain p _ => s.onCore (fun c => match (c.slice p).logical with
      | some l => c.unmap l
      | none => c)
  | .swap p q _ => s.onCore (fun c => match (c.slice p).logical with
      | some l => (c.mapTo l q).serve l q
      | none => c)
  | .trim t adds =>
    let s := s.onCore (foldS Core.unmap ((List.range 16).filter (fun l => decide (trimSize t ≤ l))))
    let s := s.onCore (foldS (fun (e : Nat × Nat) c => (c.mapTo e.1 e.2).serve e.1 e.2) adds)
    s.onCore (Core.onHost (fun h => { h with trim := t }))

/-- Whether the drained slices become SPARE. -/
def DrainFor.toSpare (k : DrainFor) : Bool := match k with
  | .drain _ b => b
  | .swap _ _ b => b
  | .trim _ _ => false

/-- Step 4 of a drain command. A Trim change then switches its drained slices off (14 R473). -/
def State.drainFinish (j : DrainJob) (s : State) : State :=
  let was := s.core
  let wholly := j.parts.filter (fun p => (s.slice p).st = .draining)
  let s := foldS (fun p s => let dest := s.receivers j.kind p; s.onCore (Core.handOver p dest)) j.parts s
  let old := s.core.host.trim
  let s := s.drainMap j.kind
  let s := match j.kind with
    | .trim t _ => s.marker 0x03 (t * 4 + old)
    | _ => s
  let s := s.onCore (foldS (fun p => Core.retireSlice p j.kind.toSpare) j.parts)
  let s := s.onCore (Core.rehome was j.parts)
  let s := s.onStart (fun x => { x with drains := x.drains.filter (fun k => k.cmd != j.cmd) })
  let s := s.complete j.cmd tsOk (BitVec.ofNat 64 ((s.core.tb - j.began) / 100)) []
  match j.kind with
  | .trim _ _ => foldS (fun p s => s.slicePower p 0 none) wholly s
  | _ => foldS State.divPump wholly s

/-- DRAIN_COMPLETE: the writes of a drain have been accepted. A command that drains several slices ends with the last of them. -/
def State.drainComplete (p : Nat) (s : State) : State :=
  match s.start.drains.find? (fun j => j.parts.contains p) with
  | none => s
  | some j => if !s.core.stopped && j.parts.all s.core.drained? then s.drainFinish j else s

/-- Whether a drain command can still make its change: no slice of it has failed. -/
def State.drainGood (s : State) (j : DrainJob) : Bool :=
  j.parts.all (fun p => (s.slice p).st = .draining || ((s.slice p).leaving.isSome && s.core.serves p)) &&
  j.kind.takers.all (fun e => s.core.fit e.2 e.1)

/-- Drains go on: a command whose slices have failed ends, and step 3 takes what no barge uses any more. -/
def State.drainReconcile (s : State) : State :=
  if s.core.stopped then s
  else foldS (fun (j : DrainJob) s => if s.drainGood j then s.onCore (foldS Core.drainEmpty j.parts) else s.drainFail j) s.start.drains s

end Sys2Proof.Machine
end

