-- ==== Sys2Proof/Machine/Charter.lean ====
section
/-!
DEFINITION. Sys2Proof/Machine/Charter.lean: the checks of a charter, its lock and its release, and the commit exchange of a domain (02 R63,
06 R189 to R194, 09 R294, 12 R425 to R431, R599, 15 R507 to R512).
-/
namespace Sys2Proof.Machine

/-! The checks (12 R430). -/

/-- The first valid range entry that fails a test. -/
def Core.badRange (s : Core) (bad : Range → Bool) : Option Nat :=
  (List.range 64).find? (fun n => (s.range n).valid && bad (s.range n))

/-- Whether a region lies wholly inside one valid RESV entry homed here. -/
def Core.inResv (s : Core) (start size : Nat) : Bool :=
  s.ranges.any (fun e => e.resv && e.lists s.self && decide (e.base * 2 ^ 30 ≤ start) && decide (start + size ≤ (e.last + 1) * 2 ^ 30))

/-- Start and size of the Overflow Larder (02 R72). -/
def Core.ovfRegion (s : Core) : Nat × Nat := (bits (s.reg offOvfBase) 55 20 * 2 ^ 20, 2 ^ (s.ovfLog + 9))
/-- Start and size of the Larder region (02 R70). -/
def Core.larderRegion (s : Core) : Nat × Nat := (s.larderBase, s.homedSize * 17 / 512)

/-- Whether two regions overlap. -/
def overlap (a b : Nat × Nat) : Bool := decide (a.1 < b.1 + b.2) && decide (b.1 < a.1 + a.2)

/-- One check: its entry when it fails. -/
def failIf (b : Bool) : Option Nat := if b then some 0 else none

/-- The first route destination that fails a test. -/
def badRoute (bad : Nat → Bool) : Option Nat := (List.range 64).find? bad

/-- The checks on the range table and the Larder regions, by code (02 R63). -/
def Core.rangeChecks (s : Core) : List (Nat × Option Nat) :=
  let m := s.homedSize
  let l := s.larderRegion
  let o := s.ovfRegion
  [ (0x01, s.badRange (fun e => decide (e.last < e.base))),
    (0x02, s.badRange (fun e => e.gran = 3 && decide (0 < e.ways) && (e.last + 1 - e.base) % 2 ^ e.ways != 0)),
    (0x03, s.badRange (fun e => !decide ((e.wayInst.take (2 ^ e.ways)).Nodup))),
    (0x04, s.badRange (fun e => e.resv && e.ways != 0)),
    (0x05, s.badRange (fun e => e.lists s.self && !([1, 2, 4].contains (popcount (BitVec.ofNat 4 e.ports))))),
    (0x06, failIf (decide (2 ^ 42 < m))),
    (0x07, failIf (decide (0 < m) && !s.inResv l.1 l.2)),
    (0x08, failIf (!s.inResv o.1 o.2)),
    (0x09, failIf (decide (0 < m) && overlap l o)),
    (0x0A, failIf (decide (s.ovfLog < 12) || decide (22 < s.ovfLog))),
    (0x0B, (List.range 64).find? (fun l => s.defined (BitVec.ofNat 6 l) && !s.listed (agentId s.self (BitVec.ofNat 6 l)))),
    (0x0C, failIf (decide (2 ≤ bits (s.reg offDomainCfg) 1 0))),
    (0x0D, failIf (bits (s.reg offDomainCfg) 4 2 = 7)),
    (0x0E, failIf (bits (s.reg offDomainCfg) 1 0 = 0 && decide (8 < s.nMembers))),
    (0x0F, failIf (decide (4 < bits (s.reg offRsvCtl) 2 0))) ]

/-- The checks on the route table and on membership, by code (09 R294). -/
def State.routeChecks (s : State) : List (Nat × Option Nat) :=
  let me := s.self.toNat
  let isMember (d : Nat) : Bool := bit (s.reg 0x600) d
  [ (0x10, if s.primary me != 6 then some me else badRoute (fun d => d != me && s.primary d = 6)),
    (0x11, badRoute (fun d => d != me && isMember d && decide (5 < s.primary d))),
    (0x12, badRoute (fun d => decide (s.alt d < 6) && s.alt d = s.primary d)),
    (0x13, badRoute (fun d => decide (s.primary d < 6) && (s.cport (s.primary d)).st != .active)),
    (0x14, failIf (!isMember me)) ]

/-- The code and entry of the first check that fails, or 0 and 0 (12 R430). -/
def State.charterCheck (s : State) : Nat × Nat :=
  ((s.core.rangeChecks ++ s.routeChecks).findSome? (fun c => c.2.map (fun e => (c.1, e)))).getD (0, 0)

/-- RESULT of a check: code, entry, the instance named and whether it is another one (12 R430). -/
def State.checkResult (s : State) (code entry : Nat) (inst : BitVec 6) : Word :=
  if code = 0 then 0 else at' code 0 ||| at' entry 8 ||| at' inst.toNat 16 ||| at' (if inst = s.self then 0 else 1) 22

/-- The status that a check's code gives. -/
def checkStatus (code : Nat) : BitVec 8 := if code = 0 then tsOk else if code = 0x15 ∨ code = 0x16 then tsFailed else tsBadParam

/-! Lock and release. -/

/-- Grants of pool credits on a fabric port, 255 at most in one (18 R580). -/
def grantMany (f kind : Nat) : Nat → Nat → Core → Core
  | 0, _, s => s
  | k + 1, n, s => if n = 0 then s else grantMany f kind k (n - Nat.min 255 n) (s.grantFab f kind 0 0 (Nat.min 255 n))

/-- The fabric credits of a charter lock (06 R192). -/
def Core.grantAll (s : Core) : Core :=
  let ls := (List.range 64).filter (fun l => s.defined (BitVec.ofNat 6 l))
  let s := foldS (fun l s => foldS (fun c s => s.grantFab (s.fport (BitVec.ofNat 6 l)) 0 l c 0) [0, 1, 2, 3] s) ls s
  foldS (fun f s => grantMany f 2 4 (s.allot s.ownDataShare f) (grantMany f 1 64 (s.allot s.ownShare f) s)) s.usedPorts s

/-- The charter locks (12 R431): LARDER_INFO, credits, epochs, tombstones and reservations. Pool data credits of another member that has
locked already are kept (06 R193). -/
def Core.charterLock (s : Core) : Core :=
  let n := s.homedSize / 2 ^ 27
  let s := s.setReg offLarderInfo (at' (n % 2 ^ 16) 0 ||| at' (17 * n % 2 ^ 20) 16)
  let s := s.onHost (fun h => { h with epochs := [], tomb := [], far := [] })
  let others := s.members.filter (fun i => i != s.self)
  let s := foldS (fun i s => s.onCredits i (fun c => { c with moorings := BitVec.allOnes 256, header := s.share, snoop := 16 })) others s
  let s := foldS (fun i s => s.sendCredit i 2 0 s.dataShare) others s
  ({ s with block := .chartered }).grantAll

/-- CHARTER_RELEASE withdraws every credit and discards what the host port holds (12 R599). -/
def Core.charterRelease (s : Core) : Core :=
  let s := s.onHost (fun h => { h with berths := [], early := [], intake := [], waitData := [], credits := [] })
  let keep (b : Barge) : Bool := match b.item with
    | .internal _ => true
    | _ => false
  let s := foldS (fun p s => s.onSlice p (fun x =>
    let l := x.barges.filter keep
    { x with
      barges := l
      chambers := (x.chambers.map (fun c => { c with order := c.order.filter (fun i => l.any (fun b => b.id = i)) })).filter
        (fun c => !c.order.isEmpty) })) (List.range 18) s
  foldS (fun f s => s.grantFab f 3 0 0 0) s.usedPorts { s with block := .standby }

/-! The commit exchange (15 R507 to R511). -/

def opCommitReport : BitVec 8 := 0xD8
def opCommitGo : BitVec 8 := 0xD9
def opCommitAck : BitVec 8 := 0xDA
def opCommitAll : BitVec 8 := 0xDB

/-- Update the commit. -/
def State.onCommit (f : Commit → Commit) (s : State) : State := s.onStart (fun x => { x with commit := f x.commit })

/-- Header of a commit message: the identifier in PARAM and LINE, a code in TAG, an entry in PEER and an instance in AGENT. -/
def commitHdr (id : Word) (code entry : BitVec 8) (inst : BitVec 6) : Hdr :=
  { Hdr.zero with
    param := id.extractLsb' 48 16, line := id.extractLsb' 0 48, tag := code.setWidth 10, peer := entry.setWidth 12, agent := inst.setWidth 12 }
/-- The identifier of a commit message. -/
def commitId (h : Hdr) : Word := h.param ++ h.line
def commitCode (h : Hdr) : BitVec 8 := h.tag.extractLsb' 0 8
def commitEntry (h : Hdr) : BitVec 8 := h.peer.extractLsb' 0 8
def commitInst (h : Hdr) : BitVec 6 := h.agent.extractLsb' 0 6

/-- COMMIT_ALL: every member has locked. -/
def State.takeCommitAll (s : State) : State :=
  if s.start.commit.lockedId.isSome then s.onCommit (fun c => { c with all := true }) else s

/-- A COMMIT_ACK reaches the leader, which sends COMMIT_ALL when every member has acknowledged. -/
def State.takeCommitAck (i : BitVec 6) (s : State) : State :=
  if !s.start.commit.isLeader || s.start.commit.lockedId.isNone then s
  else
    let s := s.onCommit (fun c => { c with acks := setBit c.acks i.toNat })
    if s.core.members.all (fun m => s.start.commit.acks.getLsbD m.toNat) && !s.start.commit.all then
      let h := commitHdr s.start.commit.id 0 0 0
      (foldS (fun m s => s.culControl opCommitAll m h none) (s.core.members.filter (fun m => m != s.self)) s).takeCommitAll
    else s

/-- A commit under way at this instance ends with a failure. -/
def State.commitFail (code entry : Nat) (inst : BitVec 6) (s : State) : State :=
  let cmd := s.start.commit.cmd
  (s.onCommit (fun c => { c with cmd := none, deciding := false })).completeOpt cmd (checkStatus code) (s.checkResult code entry inst)

/-- COMMIT_GO reaches a member (15 R510): it locks and acknowledges, or stays in STANDBY. -/
def State.takeCommitGo (h : Hdr) (s : State) : State :=
  let c := s.start.commit
  if c.cmd.isNone || s.core.block != .standby then s
  else if commitCode h != 0 then s.commitFail (commitCode h).toNat (commitEntry h).toNat (commitInst h)
  else
    let s := (s.onCommit (fun c => { c with cmd := none, lockedId := some c.id })).onCore Core.charterLock
    let s := s.completeOpt c.cmd tsOk 0
    if c.leader = s.self then s.takeCommitAck s.self else s.culControl opCommitAck c.leader (commitHdr c.id 0 0 0) none

/-- The outcome that the leader decides (15 R509): code, entry and the instance named. -/
def State.commitOutcome (s : State) : BitVec 8 × BitVec 8 × BitVec 6 :=
  let c := s.start.commit
  let rep (m : BitVec 6) : Option Report := c.reports.find? (fun r => r.inst = m)
  let l := s.core.members.filterMap rep
  match l.find? (fun r => r.code != 0) with
  | some r => (r.code, r.entry, r.inst)
  | none =>
    match l.find? (fun r => r.id != c.id) with
    | some r => (0x15, 0, r.inst)
    | none =>
      match s.core.members.find? (fun m => (rep m).isNone) with
      | some m => (0x16, 0, m)
      | none => (0, 0, 0)

/-- The leader sends its one COMMIT_GO to every member, itself included. -/
def State.commitDecide (s : State) : State :=
  let (code, entry, inst) := s.commitOutcome
  let h := commitHdr s.start.commit.id code entry inst
  let s := s.onCommit (fun c => { c with deciding := false, reports := [] })
  (foldS (fun m s => s.culControl opCommitGo m h none) (s.core.members.filter (fun m => m != s.self)) s).takeCommitGo h

/-- The leader decides once every member has reported. -/
def State.commitTry (s : State) : State :=
  let c := s.start.commit
  if c.deciding && s.core.members.all (fun m => c.reports.any (fun r => r.inst = m)) then s.commitDecide else s

/-- A COMMIT_REPORT reaches the leader: it is kept for the decision, or answered once the leader has locked (15 R509, R511). -/
def State.takeCommitReport (r : Report) (s : State) : State :=
  if s.core.block = .standby then
    (s.onCommit (fun c => { c with reports := c.reports.filter (fun q => q.inst != r.inst) ++ [r] })).commitTry
  else if s.core.block = .chartered && s.start.commit.isLeader then
    let id := s.start.commit.id
    let code := if r.code = 0 && r.id = id then 0 else if r.id != id then 0x15 else r.code
    s.culControl opCommitGo r.inst (commitHdr id code (if code = 0 || code = 0x15 then 0 else r.entry) (if code = 0 then 0 else r.inst)) none
  else s

/-- The leader of a commit (15 R507): the lowest-numbered eligible member found, or the only member. -/
def State.commitLeader (s : State) : Option (BitVec 6) :=
  if s.core.members = [s.self] then some s.self
  else s.core.members.find? (fun m => s.start.disc.last.any (fun e => e.1 = m && e.2.getLsbD 60))

/-- CHARTER_COMMIT (12 R431, 15 R507): the local checks, and the report to the leader. -/
def State.charterCommit (cmd : Nat) (id : Word) (s : State) : State :=
  let (code, entry) := s.charterCheck
  match s.commitLeader with
  | none =>
    let n := if code = 0 then 0x16 else code
    (s.onCommit (fun c => { c with isLeader := false })).complete cmd (checkStatus n) (s.checkResult n entry s.self) []
  | some leader =>
    let r : Report := ⟨s.self, id, BitVec.ofNat 8 code, BitVec.ofNat 8 entry⟩
    let mine : Bool := leader = s.self
    let s := s.onCommit (fun c => { c with
      cmd := some cmd, id := id, leader := leader, isLeader := mine, deciding := mine, acks := 0, all := false })
    if mine then s.takeCommitReport r else s.culControl opCommitReport leader (commitHdr id r.code r.entry 0) none

/-- A member has not reported 100 ms after the leader's checks (15 R509). -/
def State.commitReportLimit (s : State) : State := if s.start.commit.deciding then s.commitDecide else s

/-- No COMMIT_GO 200 ms after the report: code 0x16 names the leader (15 R510). -/
def State.commitGoLimit (s : State) : State :=
  let c := s.start.commit
  if c.cmd.isSome && !c.isLeader then s.commitFail 0x16 0 c.leader else s

/-- COMMIT_STAT (15 R512). -/
def State.commitStat (s : State) : Word :=
  let c := s.start.commit
  at' c.leader.toNat 0 ||| at' c.isLeader.toNat 6 ||| at' (if c.isLeader then popcount c.acks else 0) 8 ||| at' c.all.toNat 16

/-- CHARTER_RELEASE (12 R599). -/
def State.charterRelease (s : State) : State :=
  (s.onCommit (fun c => { c with all := false, lockedId := none, reports := [] })).onCore Core.charterRelease

end Sys2Proof.Machine
end

