-- ==== Sys2Proof/Machine/Discover.lean ====
section
/-!
DEFINITION. Sys2Proof/Machine/Discover.lean: discovery of the domain (09 R300, 12 R432, 15 R504 to R506).
-/
namespace Sys2Proof.Machine

def opHello : BitVec 8 := 0xC1

/-- Update the discovery. -/
def State.onDisc (f : Disc → Disc) (s : State) : State := s.onStart (fun x => { x with disc := f x.disc })

/-- Port information of this instance (09 R300): each ACTIVE port with its peer, and the strap at bit 60. -/
def State.ownP (s : State) : BitVec 61 :=
  let port (k : Nat) : Nat :=
    let x := s.cport k
    if x.st = .active then (x.peerPort.toNat + 8 * x.peerInst.toNat + 512) * 2 ^ (10 * k) else 0
  BitVec.ofNat 61 ((List.range 6).foldl (fun a k => a + port k) 0 + (if s.pwr.strapLeader then 2 ^ 60 else 0))

/-- A HELLO leaves by every ACTIVE port but one. -/
def State.helloOut (c : CulMsg) (but : Nat) (s : State) : State :=
  foldS (fun n s => if n = but || (s.cport n).st != .active then s else s.culEnqueue n c) (List.range 6) s

/-- This instance's own HELLO of the round under way (15 R504): its copies that return are not passed on. -/
def State.helloSend (s : State) : State :=
  let d := s.start.disc
  let p := s.ownP.setWidth 64
  let h : Hdr :=
    { Hdr.zero with tag := d.round.setWidth 10, hint := d.send, srci := s.self, line := p.extractLsb' 0 48, param := p.extractLsb' 48 16 }
  let c : CulMsg := { culOwn ⟨opHello, h, none⟩ with vc := 7, fixed := true }
  (s.onCul (fun u => { u with hello := mput u.hello s.self.toNat (d.round, d.send) })).helloOut c 6

/-- Record an instance in the round under way. -/
def State.helloRecord (i : BitVec 6) (p : BitVec 61) (s : State) : State :=
  s.onDisc (fun d => { d with found := d.found.filter (fun e => e.1 != i) ++ [(i, p)] })

/-- DISCOVER (15 R504). -/
def State.discover (cmd : Nat) (round : BitVec 8) (s : State) : State :=
  ((s.onDisc (fun d => { d with cmd := some cmd, round := round, send := 0, resent := false, found := [] })).helloRecord s.self s.ownP).helloSend

/-- The resend of RESEND_US (15 R504). -/
def State.helloResend (s : State) : State :=
  if s.start.disc.cmd.isNone then s
  else (s.onDisc (fun d => { d with send := d.send + 1, resent := true })).helloSend

/-- A HELLO arrives (09 R300): one not seen before is passed on, and the round under way records it. -/
def State.takeHello (n hops : Nat) (h : Hdr) (s : State) : State :=
  let pair := (h.tag.extractLsb' 0 8, h.hint)
  let s :=
    if mfind s.cul.hello h.srci.toNat = some pair then s
    else
      let s := s.onCul (fun u => { u with hello := mput u.hello h.srci.toNat pair })
      if hops < 3 then
        let c : CulMsg := { m := ⟨opHello, h, none⟩, vc := 7, hops := hops, dl := false, came := true, fixed := true, cells := none }
        s.helloOut c n
      else s
  if s.start.disc.cmd.isSome && s.start.disc.round = pair.1 && h.srci != s.self then
    s.helloRecord h.srci ((h.param ++ h.line).setWidth 61)
  else s

/-- What the round has found, with this instance's own information as it stands. -/
def State.discFound (s : State) : List (BitVec 6 × BitVec 61) :=
  s.start.disc.found.map (fun e => if e.1 = s.self then (e.1, s.ownP) else e)

/-- A round ends with its payload (12 R432). -/
def State.discEnd (status : BitVec 8) (s : State) : State :=
  match s.start.disc.cmd with
  | none => s
  | some cmd =>
    let l := s.discFound
    let word (i : Nat) : Word := match l.find? (fun e => e.1.toNat = i) with
      | some e => e.2.setWidth 64 ||| at' 1 63
      | none => 0
    let first := ((List.range 64).find? (fun i => l.any (fun e => e.1.toNat = i && e.2.getLsbD 60))).getD 0x3F
    let s := s.onDisc (fun d => { d with cmd := none, last := l })
    s.complete cmd status (at' l.length 0 ||| at' first 8) ((List.range 64).map word)

/-- QUIET_US has passed without a new or changed record: the round ends once a resend has been made (15 R504). -/
def State.discQuiet (s : State) : State := if s.start.disc.resent then s.discEnd tsOk else s
/-- LIMIT_MS has passed (15 R504). -/
def State.discLimit (s : State) : State := s.discEnd tsFailed

end Sys2Proof.Machine
end

