-- ==== Sys2Proof/Machine/Service.lean ====
section
/-!
DEFINITION. Sys2Proof/Machine/Service.lean: the generation, the entry into service, agents admitted and retired, and Lockkeeper overlays (05
R146, 12 R427 to R429, R438, 15 R513 to R527, 11 R359).
-/
namespace Sys2Proof.Machine

/-- GEN_ADVANCE (05 R146, 14 R483): at once, with leave asked for the Larder engine to run at its full rate. -/
def State.genAdvance (g : BitVec 48) (s : State) : State :=
  (s.onCore (Core.onEng (fun e => { e with generation := g, genLeave := true }))).leaveAsk ⟨lvGen, 20, [.generation]⟩

/-- What keeps SERVICE_ENTER from running (12 R428): 0 nothing, 1 the generation, 2 the mapping. -/
def State.serviceBar (s : State) : Nat :=
  if s.core.eng.generation = 0 then 1
  else if !(List.range (trimSize s.core.host.trim)).all s.core.mapped then 2 else 0

/-- SERVICE_ENTER (12 R416). -/
def State.serviceEnter (s : State) : State := s.onCore (fun k => { k with block := if k.frz.st = 0 then .service else .frozen })

/-! Agents (12 R429, 15 R523 to R527). -/

/-- ADMITTED of an agent. -/
def Core.setAdmitted (a : AgentId) (v : Bool) (s : Core) : Core :=
  let off := 0x4000 + a.toNat / 16 * 8
  let n := 4 * (a.toNat % 16) + 2
  s.setReg off (withBits (s.reg off) n n v.toNat)

/-- Clear a tombstone. -/
def Core.untomb (a : AgentId) (s : Core) : Core :=
  s.onHost (fun h => { h with tomb := mset 0 h.tomb (agentInst a).toNat (clearBit (mget 0 h.tomb (agentInst a).toNat) (agentLocal a).toNat) })

/-- The first part of an admission sweep: Local Sieves, spill buffers and the stash (15 R525). -/
def Core.sweepHere (loc : BitVec 6) (s : Core) : Core :=
  let names (e : LocEnt) : Bool := e.v.getLsbD loc.toNat
  let s := foldS (fun p s =>
    let x := s.slice p
    let l := ((x.ls.map (fun e => e.2)) ++ x.spill).filter (fun e => names e.ent)
    foldS (fun (e : LsWay) s => s.sweepOne p loc e.line none) l s) (List.range 18) s
  let l := (s.eng.stash ++ s.eng.move.toList).filter (fun e => names e.ent)
  foldS (fun (e : OvfEnt) s => s.sweepOne (s.physOfLine e.line) loc e.line none) l s

/-- Whether a part of an admission sweep is still under way. -/
def Core.sweeping (s : Core) (loc : BitVec 6) : Bool :=
  s.eng.ovf.any (fun j => match j.op with
    | .sweep _ l => l = loc
    | _ => false) ||
  s.slices.any (fun e => e.2.internals.any (fun i => i.kind = .sweep loc) || e.2.barges.any (fun b => b.item = .internal (.sweep loc)))

/-- Buckets of the Overflow Larder. -/
def Core.buckets (s : Core) : Nat := 2 * 2 ^ s.ovfLog

/-- AGENT_ADMIT (12 R429, 15 R525): a tombstoned ID of this instance is swept first. -/
def State.agentAdmit (cmd : Nat) (a : AgentId) (s : State) : State :=
  if s.core.tombed a && agentInst a = s.self then
    (s.onCore (Core.sweepHere (agentLocal a))).onStart (fun x => { x with admits := x.admits ++ [⟨cmd, a, 0⟩] })
  else (s.onCore (fun k => (k.untomb a).setAdmitted a true)).complete cmd tsOk 0 []

/-- The sweep of the Overflow Larder goes on bucket by bucket. -/
def State.admitReconcile (s : State) : State :=
  foldS (fun (d : Admit) s =>
    let busy : Bool := s.core.eng.ovf.any (fun j => match j.op with
      | .sweep _ l => l = agentLocal d.agent
      | _ => false)
    if busy || decide (s.core.buckets ≤ d.next) || s.core.stopped then s
    else
      let s := s.onCore (Core.ovfAdd (.sweep d.next (agentLocal d.agent)) 0 none)
      s.onStart (fun x => { x with admits := updateWhere (fun e => e.cmd = d.cmd) (fun e => { e with next := e.next + 1 }) x.admits }))
    s.start.admits s

/-- The sweep of a tombstoned ID has ended (15 R525). -/
def State.admitDone (a : AgentId) (s : State) : State :=
  match s.start.admits.find? (fun d => d.agent = a) with
  | none => s
  | some d =>
    if decide (d.next < s.core.buckets) || s.core.sweeping (agentLocal a) then s
    else
      let s := s.onStart (fun x => { x with admits := x.admits.filter (fun e => e.cmd != d.cmd) })
      (s.onCore (fun k => (k.untomb a).setAdmitted a true)).complete d.cmd tsOk 0 []

/-- AGENT_RETIRE (12 R429): it waits at the agent's own instance, and clears ADMITTED elsewhere. -/
def State.agentRetire (cmd : Nat) (a : AgentId) (s : State) : State :=
  if agentInst a = s.self then s.onStart (fun x => { x with retires := x.retires ++ [⟨cmd, a, false, false⟩] })
  else (s.onCore (Core.setAdmitted a false)).complete cmd tsOk 0 []

/-- Retirements end: cleanly once the agent is absent with nothing outstanding, or after the freeze that its death started. ADMITTED is cleared by a
clean end and by one that the limit has forced (12 R429). -/
def State.retireReconcile (s : State) : State :=
  foldS (fun (r : Retire) s =>
    let finished (clear : Bool) (status : BitVec 8) (res : Word) (s : State) : State :=
      let s := s.onStart (fun x => { x with retires := x.retires.filter (fun e => e.cmd != r.cmd) })
      (if clear then s.onCore (Core.setAdmitted r.agent false) else s).complete r.cmd status res []
    if r.dead then (if s.core.frz.st = 0 then finished r.late tsFailed 7 s else s)
    else if s.core.tombed r.agent then
      (if s.core.frz.st = 0 then finished r.late tsFailed 7 s
       else s.onStart (fun x => { x with retires := updateWhere (fun e => e.cmd = r.cmd) (fun e => { e with dead := true }) x.retires }))
    else
      let loc := agentLocal r.agent
      let busy : Bool := s.core.agentOwes loc || s.core.host.berths.any (fun b => b.h.agent = r.agent && !b.own)
      if !s.core.host.present.getLsbD loc.toNat && !busy then finished true tsOk 0 s else s) s.start.retires s

/-- The limit of a retirement passes: the agent is declared dead with cause COMMAND (11 R390). -/
def State.retireLimit (a : AgentId) (s : State) : State :=
  if s.start.retires.any (fun r => r.agent = a && !r.dead) then
    (s.onStart (fun x => { x with retires := updateWhere (fun r => r.agent = a) (fun r => { r with dead := true, late := true }) x.retires })).onCore
      (Core.declare 7 (agentInst a) (oneHot 64 (agentLocal a).toNat))
  else s

/-! Overlays (11 R359, 12 R438). -/

/-- LK_OVERLAY: the Overlay Gate decides; a refused fetch ends the command. -/
def State.overlayStart (cmd pa : Nat) (s : State) : State :=
  if s.core.gatePermits gateOverlay gExec pa then s.onStart (fun x => { x with overlay := some ⟨cmd, pa, false, false⟩ })
  else (s.onCore (Core.gateRefuse gateOverlay gExec pa)).completeFree cmd tsFailed

/-- The fetch is issued once its Gate is not paused: from memory in a RESV range, else by an internal operation of its slice (16 R549). -/
def State.overlayReconcile (s : State) : State :=
  match s.start.overlay with
  | some o =>
    if o.asked || s.core.gatePaused gateOverlay || s.core.stopped || !s.core.lineReady o.pa then s
    else
      let x : LineAddr := BitVec.ofNat 48 (o.pa / 256)
      let inner : Bool := match s.core.ownRange o.pa with
        | some g => !g.resv
        | none => false
      let s := s.onStart (fun y => { y with overlay := some { o with asked := true } })
      if inner then
        s.onCore (fun k =>
          let (i, k) := k.fresh
          k.onSlice (k.physOfLine x) (fun y => { y with internals := y.internals ++ [⟨i, .engineRead 0, x, k.arrival⟩] }))
      else s.onCore (Core.readLine x (.overlay 0))
  | none => s

/-- The overlay's line has come. -/
def State.overlayRead (s : State) : State :=
  s.onStart (fun x => { x with overlay := x.overlay.map (fun o => { o with running := true }) })

/-- An overlay ends with its result, or fails its signature check (12 R438). -/
def State.overlayEnd (sig ok : Bool) (result : Word) (s : State) : State :=
  match s.start.overlay with
  | some o =>
    if !o.running then s
    else
      let s := s.onStart (fun x => { x with overlay := none })
      if !sig then s.completeFree o.cmd tsSignature else s.complete o.cmd (if ok then tsOk else tsFailed) result []
  | none => s

/-! The map of logical slices (12 R434, R436). -/

/-- SLICE_SPARE. -/
def State.sliceSpare (p : Nat) (s : State) : State := s.onSlice p (fun x => { x with st := .spare })

/-- LS_REBUILD: open mode and a census for logical slices (12 R436). -/
def State.lsRebuild (mask : BitVec 16) (s : State) : State := if mask = 0 then s else s.onCore (Core.openStart mask)

end Sys2Proof.Machine
end

