-- ==== Sys2Proof/Machine/RegView.lean ====
section
/-!
DEFINITION. Sys2Proof/Machine/RegView.lean: what every register reads and which of its bits a write sets (00 R13, 17 R559 to R570 and the field
tables they name).
-/
namespace Sys2Proof.Machine

/-- Ones in bits [hi:lo]. -/
def span (hi lo : Nat) : Word := BitVec.ofNat 64 ((2 ^ (hi - lo + 1) - 1) <<< lo)

/-- Bits of IRQ registers k that belong to sources that exist (13 R450). -/
def irqReal (k : Nat) : Word :=
  (List.range 64).foldl (fun (w : Word) j => if irqReserved (64 * k + j) then w else w ||| at' 1 j) 0

/-! Bits that are RW or RWL (00 R13), and those of them that are RWL. -/

/-- Writable bits in the global region (17 R564). -/
def rwGlobal (o : Nat) : Word :=
  if o = 0x10 then span 5 0 else if o = 0x100 then span 4 0 else if o = 0x108 then 1 else if o = 0x110 then span 11 0 ||| span 27 16
  else if o = 0x118 then span 8 0 else if o = 0x130 then span 4 0 else if o = 0x138 then span 2 0 else if o = 0x140 then span 5 0 ||| span 14 8
  else if o = 0x400 ∨ o = 0x410 then span 55 20 else if o = 0x418 then span 4 0 else if o = 0x420 then span 1 0
  else if o = 0x430 then span 3 0 ||| span 43 8 else if o = 0x440 then span 4 0 else if o = 0x450 then span 10 0
  else if o = 0x600 then span 63 0 else if inArray o 0x700 8 8 then span 1 0
  else if o = 0x800 then span 11 0 ||| span 27 16 ||| span 35 32
  else if inArray o 0x1000 0x10 64 then span 25 0 ||| span 57 32 ||| span 63 63
  else if inArray o 0x1008 0x10 64 then span 56 0
  else if inArray o 0x2000 8 64 then span 0 0 ||| span 3 2
  else if inArray o 0x3000 8 64 then span 2 0 ||| span 6 4
  else if inArray o 0x4000 8 256 then 0x7777777777777777 else 0

/-- RWL bits in the global region: all but those of registers that never lock. -/
def rwlGlobal (o : Nat) : Word :=
  if o = 0x108 ∨ o = 0x110 ∨ o = 0x130 ∨ o = 0x140 ∨ o = 0x430 ∨ o = 0x440 ∨ o = 0x450 ∨ (0x700 ≤ o ∧ o ≤ 0x800) then 0 else rwGlobal o

/-- Writable bits in the interrupt region (17 R565). -/
def rwIrq (o : Nat) : Word :=
  if inArray o 0x10000 8 256 then (if irqReserved ((o - 0x10000) / 8) then 0 else span 1 0 ||| span 10 4)
  else if inArray o 0x10800 8 4 then irqReal ((o - 0x10800) / 8)
  else if inArray o 0x10A00 8 16 then span 11 0
  else if 0x10C00 ≤ o ∧ o < 0x10E00 then
    let l := o % 0x40
    if l = 0 then span 15 0 else if l = 8 then span 55 2 else if l = 0x10 then span 31 0 else if l = 0x30 then span 3 0 else 0
  else 0

/-- Writable bits in the fault region (17 R566). -/
def rwFault (o : Nat) : Word :=
  if inArray o 0x20000 8 128 then span 47 0 else if o = 0x20400 then span 20 0 else if o = 0x20408 then span 10 0
  else if o = 0x20440 then span 9 0 ||| span 17 16 else if o = 0x20600 then span 33 0 else 0

/-- Writable bits in the power region (17 R567). -/
def rwPower (o : Nat) : Word :=
  if o = 0x30020 then span 15 0 else if o = 0x30030 then span 11 0 else if inArray o 0x30400 8 16 then span 2 0 ||| span 15 8 else 0

/-- Writable bits in the counter region (17 R568). -/
def rwCounter (o : Nat) : Word :=
  if inArray o 0x41000 8 408 then span 11 0 else if inArray o 0x42000 8 33 then span 1 0 else if o = 0x42200 then span 25 0
  else if o = 0x42208 then span 55 12 else if o = 0x43000 then span 2 0 ||| span 31 8 else if o = 0x43010 then span 4 0 ||| span 55 12
  else if inArray o 0x43100 0x10 18 then span 42 0 else if inArray o 0x43108 0x10 18 then span 53 0
  else if 0x44000 ≤ o ∧ o < 0x44C00 then
    let l := (o - 0x44000) % 0x200
    if l = 0 then span 3 0 else if inArray l 0x100 0x10 16 then span 6 0 ||| span 63 11 else if inArray l 0x108 0x10 16 then span 8 0 else 0
  else 0

/-- Writable bits in the port and slice regions (17 R569, R570). -/
def rwUnit (o : Nat) : Word :=
  let l := o % 0x10000
  if 0x80000 ≤ o ∧ o < 0xE0000 then (if l = 0 then span 4 0 else if l = 8 then span 9 0 else if l = 0x18 then span 31 0 ||| span 47 32 else 0)
  else if inArray o 0xE0400 8 4 then span 1 0
  else if 0x100000 ≤ o ∧ o < 0x220000 then
    (if l = 0xA00 then span 8 0 else if l = 0xA28 then span 2 1 else if l = 0xA30 then span 16 0 ||| span 31 20 else 0)
  else 0

/-- Bits of a register that are RW or RWL. -/
def rwMask (o : Nat) : Word :=
  if o < 0x10000 then rwGlobal o else if o < 0x20000 then rwIrq o else if o < 0x30000 then rwFault o else if o < 0x40000 then rwPower o
  else if o < 0x50000 then rwCounter o else rwUnit o

/-- Bits of a register that are RWL (17 R564, R569). -/
def rwlMask (o : Nat) : Word :=
  if o < 0x10000 then rwlGlobal o
  else if 0x80000 ≤ o ∧ o < 0xE0000 then (if o % 0x10000 = 0 then span 3 3 else if o % 0x10000 = 8 then span 9 0 else 0)
  else if inArray o 0xE0400 8 4 then span 1 1 else 0

/-! What registers read. -/

/-- Whether the charter is locked (12 R417). -/
def State.locked (s : State) : Bool := s.start.commit.lockedId.isSome

/-- BLK_STAT (12 R417). -/
def State.blkStat (s : State) : Word :=
  at' s.core.block.code 0 ||| (s.reg 8 &&& span 8 8) ||| at' s.locked.toNat 9

/-- Pool header entries and data slots in use, across all shares (06 R191). -/
def Core.poolUsed (s : Core) : Nat := (s.host.berths.filter (fun b => b.pool)).length
def Core.slotsUsed (s : Core) : Nat :=
  (s.host.berths.filter (fun b => b.poolData && b.data.isSome && !b.own)).length +
  (s.host.early.filter (fun e => !(e.op = opDatM && !e.credit))).length + s.reserveUsed

/-- BERTH_STAT (06 R191): 0 before charter commit. -/
def State.berthStat (s : State) : Word :=
  if !s.locked then 0
  else at' s.core.share 0 ||| at' s.core.dataShare 16 ||| at' (8192 - s.core.poolUsed) 32 ||| at' (512 - s.core.slotsUsed) 48

/-- SLICE_MAP_LO and SLICE_MAP_HI (02 R68). -/
def State.sliceMap (s : State) (b : Nat) : Word :=
  (List.range 8).foldl (fun (w : Word) k => w ||| at' (mget 0x1F s.core.host.remap (b + k)) (8 * k)) 0

/-- DIR_STAT (05 R186). -/
def State.dirStat (s : State) : Word :=
  let e := s.core.eng
  at' e.stash.length 0 ||| at' e.taints.length 8 ||| at' e.lsOpen.toNat 16 ||| at' e.censusSeq.toNat 32

/-- ROUTE(d) (09 R293). -/
def State.routeStat (s : State) (d : Nat) : Word :=
  s.reg (0x3000 + 8 * d) ||| at' (s.cul.onAlt.getLsbD d).toNat 8 ||| at' (s.cul.held.getLsbD d).toNat 9

/-- What the global region reads. -/
def State.viewGlobal (s : State) (o : Nat) : Word :=
  if o = 8 then s.blkStat else if o = 0x18 then s.start.initStat else if o = 0x120 then s.berthStat
  else if o = 0x128 then s.core.host.tick.setWidth 64
  else if o = 0x200 then s.sliceMap 0 else if o = 0x208 then s.sliceMap 8 else if o = 0x210 then at' s.core.host.trim 0
  else if o = 0x428 then s.core.eng.generation.setWidth 64 else if o = 0x438 then at' s.core.eng.scrubPage 0 ||| at' s.core.eng.scrubBucket 32
  else if o = 0x500 then s.reg o ||| at' Config.keysPresent.toNat 4 else if o = 0x448 then s.dirStat else if o = 0x808 then s.commitStat
  else if inArray o 0x3000 8 64 then s.routeStat ((o - 0x3000) / 8) else s.reg o

/-- What the interrupt region reads. A read of IRQ_CLAIM is given by `State.irqClaim`; here it has no effect. -/
def State.viewIrq (s : State) (o : Nat) : Word :=
  if inArray o 0x10800 8 4 then s.reg o &&& irqReal ((o - 0x10800) / 8)
  else if inArray o 0x10820 8 4 then irqWord s.irq.pend ((o - 0x10820) / 8)
  else if inArray o 0x10840 8 4 then irqWord s.irq.level ((o - 0x10840) / 8)
  else if inArray o 0x10900 8 32 then s.irqCount ((o - 0x10900) / 8)
  else if inArray o 0x10A00 8 16 then s.reg o ||| at' (s.holdRemain ((o - 0x10A00) / 8)) 16
  else if 0x10C00 ≤ o ∧ o < 0x10E00 then
    let t := (o - 0x10C00) / 0x40
    let l := o % 0x40
    if l = 0x18 then s.tgtStat t else if l = 0x20 then (s.irqClaim t).1 else if l = 0x28 then 0
    else if l = 0x38 then s.tgtPrios t else s.reg o
  else s.reg o

/-- FLT_ESC(k) (11 R367). -/
def State.escStat (s : State) (k : Nat) : Word :=
  match mget none s.core.flt.slots k with
  | some x =>
    let us := if x.stopped then 0 else (x.expiry - s.core.tb + 99) / 100
    at' 1 0 ||| at' x.src 1 ||| at' x.sev 12 ||| at' x.stopped.toNat 15 ||| at' us 16
  | none => 0

/-- SEAL_STAT (11 R400). -/
def State.sealStat (s : State) : Word :=
  let f := s.core.flt
  at' ((List.range 18).foldl (fun n p => n + if (s.slice p).st = .sealed_ then 2 ^ p else 0) 0) 0 ||| at' f.sealCul.toNat 18 |||
    at' f.sealFab.toNat 24 ||| at' f.sealMem.toNat 28 ||| at' (if s.core.block = .sealed_ then 1 else 0) 32 ||| at' f.sealDrain.toNat 33

/-- FLT_STAT, FLT_PTR, ERR_OUT_CTL's STATE bits, FRZ_STAT, EPOCH_STAT and LK_STAT. -/
def State.fltStat (s : State) : Word :=
  let f := s.core.flt
  at' f.lost 0 ||| at' f.lostSev 32 ||| at' f.firstValid.toNat 35 ||| at' f.escFull.toNat 36
def State.fltPtr (s : State) : Word := at' s.core.flt.wr.toNat 0 ||| at' s.core.flt.rd.toNat 16
def State.pinStat (s : State) : Word := at' s.core.flt.pin0.asserted.toNat 32 ||| at' s.core.flt.pin1.asserted.toNat 33
def State.frzStat (s : State) : Word :=
  let f := s.core.frz
  at' f.st 0 ||| at' f.number.toNat 8 ||| at' f.coord.toNat 16 ||| at' f.lastUs 24 ||| at' f.count 40
def State.epochStat (s : State) : Word :=
  (List.range 16).foldl (fun (w : Word) l => w ||| at' (mget 0 s.core.host.epochs l).toNat (4 * l)) 0
def State.lkStat (s : State) : Word :=
  let run : Bool := match s.start.overlay with
    | some o => o.running
    | none => false
  at' s.core.flt.masked.toNat 0 ||| at' run.toNat 3

/-- A word of a 256-bit record. -/
def recPart (v : BitVec 256) (w : Nat) : Word := v.extractLsb' (64 * w) 64

/-- What the fault region reads. -/
def State.viewFault (s : State) (o : Nat) : Word :=
  let f := s.core.flt
  if o = 0x20410 then s.fltPtr else if o = 0x20418 then s.fltStat
  else if inArray o 0x20420 8 4 then recPart f.first ((o - 0x20420) / 8)
  else if o = 0x20440 then s.reg o ||| s.pinStat
  else if inArray o 0x20480 8 16 then s.escStat ((o - 0x20480) / 8)
  else if inArray o 0x20500 8 32 then mget 0 f.missed ((o - 0x20500) / 8)
  else if o = 0x20608 then s.frzStat else if o = 0x20800 then s.epochStat else if o = 0x20810 then s.sealStat
  else if o = 0x20818 then s.lkStat
  else if inArray o 0x20A00 8 64 then mget 0 s.core.host.tomb ((o - 0x20A00) / 8)
  else if inArray o 0x28000 8 4096 then recPart (mget 0 f.ring ((o - 0x28000) / 32)) ((o - 0x28000) / 8 % 4)
  else s.reg o

/-- PF_STAT (08 R275). -/
def State.pfStat (s : State) : Word :=
  let f := s.core.pf
  at' f.seen.toNat 0 ||| at' f.drainDone.toNat 1 ||| at' f.drainLate.toNat 2 ||| at' f.restDone.toNat 3 ||| at' f.hold.toNat 4 |||
    at' f.lines 16 ||| at' f.drainTb 32

/-- Whether PWR_TRIM, PWR_IDLE or PWR_HALF is changing domains or gating (14 R472). -/
def State.transit (s : State) : Bool :=
  s.pwr.leaving.isSome || s.pwr.work.any (fun w => decide (0x40 ≤ w.unit ∧ w.unit < 0x44)) ||
  s.tow.running.any (fun r => r.op = 0x90)

/-- PWR_STAT (14 R472). -/
def State.pwrStat (s : State) : Word :=
  let lp := if s.core.block != .service && s.core.block != .frozen then 0 else if s.pwr.idle then 2 else if s.core.host.trim != 0 then 1 else 0
  let gated := (List.range 18).foldl (fun n p => n + if s.clockGated p then 2 ^ p else 0) 0
  at' lp 0 ||| at' s.transit.toNat 2 ||| at' ((s.core.doms >>> 74).toNat % 16) 3 ||| at' s.pwr.wharfGated.toNat 7 ||| at' gated 8

/-- PWR_LEAVE_STAT (14 R486). -/
def State.leaveStat (s : State) : Word :=
  let p := s.pwr
  let shown := match p.shown with
    | some r => (r.cls, r.amt)
    | none => (0, 0)
  let pend : BitVec 16 := p.queue.foldl (fun (v : BitVec 16) r => setBit v r.cls) 0
  at' shown.1 0 ||| at' p.req.toNat 4 ||| at' p.gnt.toNat 5 ||| at' shown.2 6 ||| at' pend.toNat 16 ||| at' p.lastWait 32 ||| at' p.count 48

/-- CLK_SLICE(p) (14 R490). -/
def State.clkStat (s : State) (p : Nat) : Word :=
  s.reg (0x30200 + p * 8) ||| at' (s.gal p).div 4 ||| at' (s.clockGated p).toNat 6

/-- What the power region reads. -/
def State.viewPower (s : State) (o : Nat) : Word :=
  if o = 0x30000 then s.pwrStat else if o = 0x30008 then s.core.doms.extractLsb' 0 64 else if o = 0x30010 then (s.core.doms >>> 64).setWidth 64
  else if o = 0x30028 then s.leaveStat else if o = 0x30100 then s.reg o &&& span 15 0 else if o = 0x30108 then s.pfStat
  else if inArray o 0x30200 8 18 then s.clkStat ((o - 0x30200) / 8)
  else if o = 0x30300 then at' s.pwr.absent.toNat 0 ||| at' s.pwr.fallback.toNat 40
  else if o = 0x30480 then s.pwr.fired.setWidth 64 ||| (s.reg o &&& span 16 16)
  else if o = 0x30500 then at' s.pwr.cause 0 ||| at' s.pwr.deep.toNat 3 ||| at' s.pwr.goodLost.toNat 4
  else s.reg o

/-- DUMP_STAT (16 R540) and LOG_STAT (16 R548). -/
def State.dumpStat (s : State) : Word :=
  let w := s.watch
  at' w.dumpSeq.toNat 0 ||| at' w.skipped 32 ||| at' w.done.toNat 48 ||| at' w.dumpFault.toNat 49
def State.logStat (s : State) : Word := at' s.watch.lost 0 ||| at' s.logStopped.toNat 32 ||| at' s.watch.spillFault.toNat 33

/-- Whether an engine has an access that it has issued and that is not complete (16 R553). -/
def State.gateBusy (s : State) (e : Nat) : Bool :=
  s.core.mem.reads.any (fun r => match r.use with
    | .larder _ _ => e = gateLarder || e = gateScrub
    | .overflow _ _ => e = gateOvf || e = gateScrub
    | .overlay _ => e = gateOverlay
    | _ => false) ||
  s.core.mem.writes.any (fun w => match w.src with
    | .larder _ => e = gateLarder || e = gateScrub
    | .overflow _ => e = gateOvf || e = gateScrub
    | .dump => e = gateDump
    | .logbook => e = gateLogbook
    | _ => false)

/-- GATE_STAT(e) (16 R553). -/
def State.gateStat (s : State) (e : Nat) : Word :=
  (s.reg (offGate e + 8) &&& span 16 1) ||| at' (s.core.gatePaused e && !s.gateBusy e).toNat 0

/-- What the counter region reads. -/
def State.viewCounter (s : State) (o : Nat) : Word :=
  let w := s.watch
  if inArray o 0x40000 8 408 then at' (mget 0 w.val ((o - 0x40000) / 8)) 0
  else if inArray o 0x42140 8 7 then mget 0 w.wrap ((o - 0x42140) / 8)
  else if o = 0x42210 then s.dumpStat else if o = 0x43008 then at' w.wr.toNat 0 ||| at' w.rd.toNat 16
  else if o = 0x43018 then at' w.memWr.toNat 0 ||| at' w.memRd.toNat 32 else if o = 0x43020 then s.logStat
  else if 0x44000 ≤ o ∧ o < 0x44C00 ∧ (o - 0x44000) % 0x200 = 8 then s.gateStat ((o - 0x44000) / 0x200)
  else s.reg o

/-- MEM_CFG(m) (08 R267). -/
def State.memCfg (s : State) (m : Nat) : Word := s.reg (0xE0400 + 8 * m) ||| at' (s.core.postedOn m).toNat 2

/-- What a Culvert port's region reads. -/
def State.viewPort (s : State) (n l : Nat) : Word :=
  let x := s.cport n
  if l = 0x10 then x.stat else if l = 0x20 then x.mapWord x.rxMap 0 else if l = 0x28 then x.mapWord x.rxMap 9
  else if l = 0x30 then x.mapWord x.txMap 0 else if l = 0x38 then x.mapWord x.txMap 9 else if l = 0x40 then x.laneWord
  else if l = 0x48 then x.cntWord else if inArray l 0x100 8 18 then x.lerrWord ((l - 0x100) / 8) else s.reg (0x80000 + n * 0x10000 + l)

/-- SKL_STAT (07 R251). DESIGN CHOICE, log 69: a reserved entry that is being filled does not count. -/
def Slice.sklStat (x : Slice) : Word :=
  at' (x.skl.filter (fun e => !e.2.filling)).length 0 ||| at' (x.skl.filter (fun e => e.2.dirty)).length 8 ||| at' x.warm.length 16 |||
    at' x.drip.length 20 ||| at' x.run 24 ||| at' x.miss.isSome.toNat 30

/-- What a slice's region reads. -/
def State.viewSlice (s : State) (p l : Nat) : Word :=
  let x := s.slice p
  let r := s.reg (0x100000 + p * 0x10000 + l)
  if l = 0 then s.sliceStat p else if l = 0x900 then x.sklStat else if l = 0xA08 then s.galStat p else if l = 0xA10 then x.control.describe
  else if l = 0xA18 then x.standby.describe else if l = 0xA20 then s.galCnt p
  else if l = 0xA28 then (r &&& span 2 1) ||| at' (s.gal p).inject.toNat 0
  else if l = 0xA38 then s.proofStat p else r

/-- Registers that are read and written in PILOT and INIT (12 R424). -/
def pilotReg (o : Nat) : Bool := o = 0x30108 || inArray o 0x30400 8 16 || o = 0x30480 || o = 0x30500 || o = 0x30508

/-- Whether only the Pilot Light's registers are reached (12 R424). -/
def State.pilotOnly (s : State) : Bool := s.core.block = .off || s.core.block = .pilot || s.core.block = .init

/-- What a register reads, with no effect (17 R559 to R570): 0 where no table names it. -/
def State.view (s : State) (o : Nat) : Word :=
  if s.pilotOnly && !pilotReg o then 0
  else if o < 0x10000 then s.viewGlobal o
  else if o < 0x20000 then s.viewIrq o
  else if o < 0x30000 then s.viewFault o
  else if o < 0x40000 then s.viewPower o
  else if o < 0x50000 then s.viewCounter o
  else if 0x80000 ≤ o ∧ o < 0xE0000 then s.viewPort ((o - 0x80000) / 0x10000) (o % 0x10000)
  else if inArray o 0xE0400 8 4 then s.memCfg ((o - 0xE0400) / 8)
  else if 0x100000 ≤ o ∧ o < 0x220000 then s.viewSlice ((o - 0x100000) / 0x10000) (o % 0x10000)
  else s.reg o

end Sys2Proof.Machine
end

