-- ==== Sys2Proof/Machine/Regs.lean ====
section
/-!
DEFINITION. Sys2Proof/Machine/Regs.lean: reads with their side effects, and writes, of every register (00 R13 to R16, 12 R418, R424, 17 R559 to
R574).
-/
namespace Sys2Proof.Machine

/-! Reads (17 R563). -/

/-- What a read of IRQ_COUNT, a claim, or a read of another register with an RC field changes in the interrupt and fault regions. -/
def State.readFxLow (o : Nat) (s : State) : State :=
  if inArray o 0x10900 8 32 then s.irqCountClear ((o - 0x10900) / 8)
  else if inArray o 0x10C20 0x40 8 then (s.irqClaim ((o - 0x10C20) / 0x40)).2
  else if o = 0x20418 then s.onCore (fun k => { k with flt := { k.flt with lost := 0, lostSev := 0 } })
  else if o = 0x20608 then s.onCore (fun k => { k with frz := { k.frz with count := 0 } })
  else if o = 0x20808 then s.onCore (fun k => k.setReg o (withBits (k.reg o) 39 32 0))
  else s

/-- What a read changes in the other regions. -/
def State.readFxHigh (o : Nat) (s : State) : State :=
  if o = 0x30028 then s.onPwr (fun p => { p with count := 0 })
  else if o = 0x42210 then s.onWatch (fun w => { w with skipped := 0 })
  else if o = 0x43020 then s.onWatch (fun w => { w with lost := 0 })
  else if inArray o 0x44008 0x200 6 then s.onCore (fun k => k.setReg o (withBits (k.reg o) 16 1 0))
  else if inArray o 0x80048 0x10000 6 then s.culCntClear ((o - 0x80048) / 0x10000)
  else if 0x80000 ≤ o ∧ o < 0xE0000 ∧ inArray (o % 0x10000) 0x100 8 18 then s.culLerrClear ((o - 0x80000) / 0x10000) ((o % 0x10000 - 0x100) / 8)
  else if inArray o 0x100A20 0x10000 18 then s.galCntClear ((o - 0x100A20) / 0x10000)
  else s

/-- A read of a register: its value, and what the read clears or claims (17 R563). -/
def State.regRead (o : Nat) (s : State) : Word × State :=
  (s.view o, if s.pilotOnly then s else if o < 0x30000 then s.readFxLow o else s.readFxHigh o)

/-! Writes. -/

/-- A write that a locked or write-once field refused: WO_VIOL and LOCK_VIOL (00 R13, 12 R418). -/
def State.lockViol (s : State) : State := (s.onCore (fun k => k.setReg 8 (k.reg 8 ||| span 8 8))).raise famLockViol 0

/-- Set the RW and RWL fields of a register; after charter lock an RWL field keeps its value, and a write that would change one is refused. -/
def State.storeFields (o : Nat) (v : Word) (s : State) : Bool × State :=
  let old := s.reg o
  let lock := if s.locked then rwlMask o else 0
  let m := rwMask o &&& ~~~lock
  let s' := s.onCore (Core.setReg o ((old &&& ~~~m) ||| (v &&& m)))
  if (old ^^^ v) &&& lock = 0 then (false, s') else (true, s'.lockViol)

/-- Resume what a Gate's pause held: page and bucket operations, write-backs and dumps (16 R556). -/
def State.gateResume (s : State) : State :=
  (s.onCore (fun k => foldS (fun p k => k.task (.kick p)) (List.range 18) ((k.task .larderPump).task .ovfPump))).dumpPump 4

/-- What follows from new values of the fields of a global, interrupt or fault register. -/
def State.afterLow (o : Nat) (old : Word) (v : Word) (s : State) : State :=
  if o = 0x440 then s.onCore (Core.task .larderPump)
  else if inArray o 0x3000 8 64 then s.culRehold
  else if inArray o 0x10C00 0x40 8 then
    let t := (o - 0x10C00) / 0x40
    if bit (s.reg o) 1 = bit old 1 then s else s.putTgt t { s.tgt t with sent := false }
  else if inArray o 0x10C30 0x40 8 then (if bit v 4 then s.irqRaise ((o - 0x10C30) / 0x40) (bits v 3 0) else s)
  else if o = 0x20408 then (if bit v 16 then s.onCore (Core.fltAck (bits v 10 0)) else s)
  else if o = 0x20440 then
    let s := if bit v 24 then s.onCore (Core.pinRelease 0) else s
    if bit v 25 then s.onCore (Core.pinRelease 1) else s
  else s

/-- What follows from new values of the fields of another register. -/
def State.afterHigh (o : Nat) (v : Word) (s : State) : State :=
  if inArray o 0x44000 0x200 6 then (if bit v 2 then s else s.gateResume)
  else if inArray o 0x80000 0x10000 6 then
    let n := (o - 0x80000) / 0x10000
    if bit v 0 then (s.onCul (fun c => { c with used := true })).culEnable n else s.culDisable n
  else if inArray o 0x100A28 0x10000 18 then
    let p := (o - 0x100A28) / 0x10000
    if bit v 0 && !(s.gal p).split then s.galInject p else s
  else s

/-- Clear the bits of a word that are 1 in the value written. -/
def clears (old v : Word) : Word := old &&& ~~~v

/-- Registers below 0x03_0000 whose writes are more than setting fields: none where the answer is none. -/
def State.writeOwnLow (o : Nat) (v : Word) (s : State) : Option State :=
  if o = 8 then some (s.onCore (fun k => k.setReg 8 (clears (k.reg 8) (v &&& span 8 8))))
  else if o = 0x500 then some (s.onCore (fun k => k.setReg o (k.reg o ||| (v &&& span 3 0))))
  else if inArray o 0x10820 8 4 then some (s.irqPendWrite ((o - 0x10820) / 8) v)
  else if inArray o 0x10C18 0x40 8 then
    let t := (o - 0x10C18) / 0x40
    some (if bit v 29 then s.putTgt t { s.tgt t with under := false } else s)
  else if inArray o 0x10C28 0x40 8 then some (if bit v 0 then s.irqEoi ((o - 0x10C28) / 0x40) else s)
  else if o = offIrqFlt then some (s.onCore (fun k => k.setReg o (clears (k.reg o) (v &&& span 1 0))))
  else if o = 0x20410 then some (s.onCore (Core.fltRd (BitVec.ofNat 11 (bits v 26 16))))
  else if o = 0x20418 then some (s.onCore (fun k => { k with flt := { k.flt with
    firstValid := k.flt.firstValid && !bit v 35
    escFull := k.flt.escFull && !bit v 36 } }))
  else if inArray o 0x20500 8 32 then some (s.onCore (fun k =>
    let i := (o - 0x20500) / 8
    { k with flt := { k.flt with missed := mset 0 k.flt.missed i (clears (mget 0 k.flt.missed i) v) } }))
  else none

/-- A write of PF_STAT, PL_WAKE_STAT, PL_RST or PL_CTL, which the Pilot Light holds. -/
def State.writePilot (o : Nat) (v : Word) (s : State) : State :=
  if o = 0x30108 then s.onCore (fun k => { k with pf := { k.pf with
    seen := k.pf.seen && !bit v 0
    drainDone := k.pf.drainDone && !bit v 1
    drainLate := k.pf.drainLate && !bit v 2
    restDone := k.pf.restDone && !bit v 3 } })
  else if o = 0x30480 then
    (s.onPwr (fun p => { p with fired := p.fired &&& ~~~(v.setWidth 16) })).onCore (fun k => k.setReg o (clears (k.reg o) (v &&& span 16 16)))
  else if o = 0x30500 then s.onPwr (fun p => { p with deep := p.deep && !bit v 3, goodLost := p.goodLost && !bit v 4 })
  else s.plWake v

/-- Registers from 0x03_0000 up whose writes are more than setting fields. -/
def State.writeOwnHigh (o : Nat) (v : Word) (s : State) : Option State :=
  if o = 0x30108 ∨ o = 0x30480 ∨ o = 0x30500 ∨ o = 0x30508 then some (s.writePilot o v)
  else if inArray o 0x30200 8 18 then some (s.clkWrite ((o - 0x30200) / 8) v)
  else if inArray o 0x40000 8 408 then some (s.cntValWrite ((o - 0x40000) / 8) v)
  else if inArray o 0x42140 8 7 then
    let k := (o - 0x42140) / 8
    some (s.onWatch (fun w => { w with wrap := mset 0 w.wrap k (clears (mget 0 w.wrap k) v) }))
  else if o = 0x42210 then some (s.onWatch (fun w => { w with done := w.done && !bit v 48, dumpFault := w.dumpFault && !bit v 49 }))
  else if o = 0x43008 then some (s.logRd (BitVec.ofNat 12 (bits v 27 16)))
  else if o = 0x43018 then some (s.logMemRd (BitVec.ofNat 32 (bits v 63 32)))
  else if o = 0x43020 then some (s.onWatch (fun w => { w with spillFault := w.spillFault && !bit v 33 }))
  else if 0x44000 ≤ o ∧ o < 0x44C00 ∧ 0x100 ≤ (o - 0x44000) % 0x200 ∧ !s.core.gateUpdate ((o - 0x44000) / 0x200) then some s
  else if 0x100000 ≤ o ∧ o < 0x220000 ∧ inArray (o % 0x10000) 0x800 8 16 then
    let p := (o - 0x100000) / 0x10000
    some (if s.core.doms.getLsbD (3 * p) then s.onCore (Core.remapWrite p ((o % 0x10000 - 0x800) / 8) v) else s)
  else if inArray o 0x100A38 0x10000 18 then
    let p := (o - 0x100A38) / 0x10000
    some (s.onGal p (fun g => { g with expired := g.expired && !bit v 9, abandoned := g.abandoned && !bit v 10 }))
  else none

/-- HOLDUP_US, write-once (08 R266): bit 16 of the stored word says that it has been written. -/
def State.writeHoldup (v : Word) (s : State) : Bool × State :=
  if bit (s.reg 0x30100) 16 then (true, s.lockViol)
  else (false, s.onCore (Core.setReg 0x30100 ((v &&& span 15 0) ||| at' 1 16)))

/-- A write of a register, and whether a field of it refused (00 R13, 12 R418). Only the Pilot Light's registers are written in PILOT and INIT
(12 R424). -/
def State.regWrite (o : Nat) (v : Word) (s : State) : Bool × State :=
  if s.core.block = .off || (s.pilotOnly && !pilotReg o) then (false, s)
  else if o = 0x30100 then s.writeHoldup v
  else
    match (if o < 0x30000 then s.writeOwnLow o v else s.writeOwnHigh o v) with
    | some s => (false, s)
    | none =>
      if rwMask o = 0 then (false, s)
      else
        let old := s.reg o
        let (r, s) := s.storeFields o v
        (r, if o < 0x30000 then s.afterLow o old v else s.afterHigh o v)

/-- REG_WRITE_MASKED: the register is read with no side effect, and written with the masked bits replaced (12 R424). -/
def State.regMask (o : Nat) (v m : Word) (s : State) : Bool × State :=
  s.regWrite o ((s.view o &&& ~~~m) ||| (v &&& m))

/-- Registers that HOST may write (17 R562). -/
def hostWrites (o : Nat) : Bool := (0x10000 ≤ o && o ≤ 0x1FFF8) || (0x40000 ≤ o && o ≤ 0x43FF8)

end Sys2Proof.Machine
end

