-- ==== Sys2Proof/Machine/Maint.lean ====
section
/-!
DEFINITION. Sys2Proof/Machine/Maint.lean: maintenance by address and by entry, the reads and rebuilds of a Larder page, and the dump of a
slice's arrays (07 R247, R248, 12 R439 to R441).
-/
namespace Sys2Proof.Machine

/-- The operation a code names (12 R441). -/
def maintOf (n : Nat) : Option MaintOp := if n = 0 then some .clean else if n = 1 then some .invalidate else if n = 2 then some .cleanInvalidate else none

/-- MAINT_ADDR: an internal operation of the slice that serves the line (07 R247). -/
def State.maintAddr (o : MaintOp) (x : LineAddr) (cmd : Nat) (s : State) : State :=
  s.onCore (fun k =>
    let (i, k) := k.fresh
    let t := k.arrival
    k.onSlice (k.physOfLine x) (fun y => { y with internals := y.internals ++ [⟨i, .maint o cmd, x, t⟩] }))

/-- Write a MAINT_ENTRY's standing. -/
def State.putMaint (j : MaintJob) (s : State) : State :=
  s.onStart (fun x => { x with maints := updateWhere (fun k => k.cmd = j.cmd) (fun _ => j) x.maints })
/-- A MAINT_ENTRY has ended. -/
def State.maintEnd (j : MaintJob) (status : BitVec 8) (res : Word) (s : State) : State :=
  ((s.onStart (fun x => { x with maints := x.maints.filter (fun k => k.cmd != j.cmd) })).onCore (Core.task (.kick j.p))).complete j.cmd status res []

/-- Whether a write of a Skillet entry is under way. -/
def Core.sklBusy (s : Core) (p i : Nat) : Bool := s.mem.writes.any (fun w => w.src = .skillet p i)

/-- A MAINT_ENTRY goes on (07 R248): it waits while the entry is pinned, pins it, writes it where it is dirty, and invalidates it where the
operation says so. A slice that has failed ends it with FAILED. -/
def State.maintGo (j : MaintJob) (s : State) : State :=
  let x := s.slice j.p
  if !s.core.serves j.p && x.st != .draining then
    let s := s.onStart (fun y => { y with maints := y.maints.filter (fun k => k.cmd != j.cmd) })
    s.completeFree j.cmd tsFailed
  else match mfind x.skl j.idx, j.line with
    | none, none => s.maintEnd j tsOk 0
    | none, some l => s.maintEnd j tsOk (l.setWidth 64)
    | some e, none =>
      if e.pinned then s
      else if e.dirty then
        let s := s.onCore (Core.sklPin j.p j.idx true)
        let s := if s.core.sklBusy j.p j.idx then s else s.onCore (Core.sklWrite j.p j.idx none)
        s.putMaint { j with line := some e.line }
      else if j.op = .clean then s.maintEnd j tsOk (e.line.setWidth 64)
      else (s.onSlice j.p (fun y => { y with skl := merase y.skl j.idx })).maintEnd j tsOk (e.line.setWidth 64)
    | some e, some l =>
      if e.dirty then (if s.core.sklBusy j.p j.idx then s else s.onCore (Core.sklWrite j.p j.idx none))
      else if j.op = .clean then (s.onCore (Core.sklPin j.p j.idx false)).maintEnd j tsOk (l.setWidth 64)
      else (s.onSlice j.p (fun y => { y with skl := merase y.skl j.idx })).maintEnd j tsOk (l.setWidth 64)

/-- MAINT_ENTRYs under way go on, unless the block's work has stopped. -/
def State.maintReconcile (s : State) : State := if s.core.stopped then s else foldS State.maintGo s.start.maints s
/-- MAINT_ENTRY. -/
def State.maintEntry (p idx : Nat) (o : MaintOp) (cmd : Nat) (s : State) : State :=
  (s.onStart (fun x => { x with maints := x.maints ++ [⟨cmd, p, idx, o, none⟩] })).maintReconcile

/-- LARDER_READ: before the first generation it reads no memory (15 R513). -/
def State.larderRead (page cmd : Nat) (s : State) : State :=
  if s.core.eng.generation = 0 then s.complete cmd tsOk 1 (List.replicate 136 0) else s.onCore (Core.larderOp page (.towRead cmd))
/-- DIR_REBUILD: a forced interrogation (05 R174). -/
def State.dirRebuild (page cmd : Nat) (s : State) : State := s.onCore (Core.larderOp page (.towRebuild cmd))

/-! DIR_DUMP (12 R439). -/

/-- Entries of an array by its code (05 R152, R158, 07 R239). -/
def dumpSize (a : Nat) : Nat := if a = 0 then 2048 * 16 else if a = 1 then 2 ^ Config.lsLog2Sets * 16 else if a = 2 then 48 else 0

/-- A Home Sieve entry (05 R153). Its check bits, and what an invalid entry holds but for VALID, are open: taken from f. -/
def hsDump (w : Option HsWay) (f : Nat) : Nat :=
  match w with
  | some e => 1 + (if e.dirty then 2 else 0) + e.tag.toNat * 2 ^ 2 + e.rcd.encode.toNat * 2 ^ 25 + f % 256 * 2 ^ 89
  | none => f % 2 ^ 96 * 2
/-- A Local Sieve entry (05 R159), with the same left open. -/
def lsDump (w : Option LsWay) (f : Nat) : Nat :=
  match w with
  | some e => 1 + e.ent.st.code * 2 + e.ent.rights.code * 2 ^ 4 + e.ent.owner.toNat * 2 ^ 6 + e.ent.v.toNat * 2 ^ 12 +
      (lsTag e.line).toNat * 2 ^ 76 + f % 256 * 2 ^ 114
  | none => f % 2 ^ 121 * 2
/-- A Skillet entry (07 R239); LINE and OLDEST of an invalid entry are open. DESIGN CHOICE, log 69: a reserved entry that is being filled has
VALID 0. -/
def sklDump (w : Option SklEnt) (f : Nat) : Nat :=
  match w with
  | some e => (if e.filling then 0 else 1) + (if e.dirty then 2 else 0) + (if e.poison then 4 else 0) + (if e.filling then 8 else 0) +
      (if e.pinned then 16 else 0) + e.line.toNat * 2 ^ 8 + e.oldest.toNat * 2 ^ 56
  | none => f % 2 ^ 72 * 2 ^ 8

/-- The two words of a number below 2^128. -/
def twoWords (n : Nat) : List Word := [BitVec.ofNat 64 n, BitVec.ofNat 64 (n / 2 ^ 64)]

/-- Entry i of an array of a slice, in words. -/
def State.dumpEntry (p a i : Nat) (s : State) : List Word × State :=
  let x := s.slice p
  let (u, s) := s.freeWord
  let (v, s) := s.freeWord
  let f := u.toNat + 2 ^ 64 * v.toNat
  let k := wayKey (i / 16) (i % 16)
  (twoWords (if a = 0 then hsDump (mfind x.hs k) f else if a = 1 then lsDump (mfind x.ls k) f else sklDump (mfind x.skl i) f), s)

/-- Entries i upwards. -/
def State.dumpFrom (p a : Nat) : Nat → Nat → State → List Word × State
  | 0, _, s => ([], s)
  | n + 1, i, s =>
    let (l, s) := s.dumpEntry p a i
    let (m, s) := State.dumpFrom p a n (i + 1) s
    (l ++ m, s)

/-- A command ends with OK and a payload, where the spec gives it no RESULT. -/
def State.completePay (id : Nat) (l : List Word) (s : State) : State :=
  let (w, s) := s.freeWord
  s.complete id tsOk w l

/-- DIR_DUMP. -/
def State.dirDump (p a first n cmd : Nat) (s : State) : State :=
  let (l, s) := s.dumpFrom p a n first
  s.completePay cmd l

end Sys2Proof.Machine
end

