-- ==== Sys2Proof/Machine/Towpath.lean ====
section
/-!
DEFINITION. Sys2Proof/Machine/Towpath.lean: what every Towpath command shares: its row in the command tables, the checks in their order, its
replies, and the order of one transport's commands (12 R402 to R423).
-/
namespace Sys2Proof.Machine

/-- A row of the command tables (12 R420). -/
structure TowRow where
  op : BitVec 8
  /-- Least privilege: 0 SERVICE, 1 HOST, 2 USER. -/
  least : Nat
  long : Bool
  /-- TARGET codes it accepts. -/
  target : BitVec 8 → Bool
  /-- LENGTHs it accepts. -/
  length : Nat → Bool
  /-- Bits of PARAM that a field names. -/
  param : Word
  /-- Block states, with PILOT where the table lists it. -/
  states : List BlockSt
  /-- Words of its reply's payload. -/
  reply : State → TowCmd → Nat
  /-- It is DENIED though the transport's privilege suffices. -/
  denied : State → TowCmd → Bool
  /-- Its parameter or payload is not legal. -/
  bad : State → TowCmd → Bool
  /-- It is legal, but not in the present state of its unit; and RESULT where the table gives one for that. -/
  wrong : State → TowCmd → Bool
  wrongResult : State → TowCmd → Option Word
  /-- Slices, Culvert ports and memory ports that it names or changes, by target code (12 R409). -/
  units : State → TowCmd → List Nat
  /-- Another resource that it needs is held. -/
  busy : State → TowCmd → Bool
  /-- What it does, by its name in the model: it ends by `State.complete`, now or later. -/
  run : Nat → TowCmd → State → State

/-- Block states of "Any" (12 R420). -/
def anySt : List BlockSt := [.init, .standby, .chartered, .service, .frozen, .sealed_]
/-- STANDBY, CHARTERED, SERVICE and FROZEN, and other lists of the tables. -/
def upSt : List BlockSt := [.standby, .chartered, .service, .frozen]
def lockedSt : List BlockSt := [.chartered, .service, .frozen]
def frozenSt : List BlockSt := [.service, .frozen]

/-- A row whose target is the block, with no parameter and no payload; other fields are set by the rows. -/
def blockRow (op : BitVec 8) (least : Nat) (long : Bool) (states : List BlockSt) (run : Nat → TowCmd → State → State) : TowRow :=
  { op := op, least := least, long := long, target := fun t => t = 0xFF, length := fun n => n = 0, param := 0, states := states
    reply := fun _ _ => 0, denied := fun _ _ => false, bad := fun _ _ => false, wrong := fun _ _ => false, wrongResult := fun _ _ => none
    units := fun _ _ => [], busy := fun _ _ => false, run := run }

/-- Target codes of physical slices, Culvert, fabric and memory ports (12 R403). -/
def isSlice (t : BitVec 8) : Bool := decide (t.toNat < 18)
def isCul (t : BitVec 8) : Bool := decide (0x20 ≤ t.toNat ∧ t.toNat < 0x26)
def isFab (t : BitVec 8) : Bool := decide (0x28 ≤ t.toNat ∧ t.toNat < 0x2C)
def isMem (t : BitVec 8) : Bool := decide (0x2C ≤ t.toNat ∧ t.toNat < 0x30)

/-- A row whose target is a slice in one of some states. -/
def sliceRow (op : BitVec 8) (least : Nat) (long : Bool) (states : List BlockSt) (st : List SliceSt) (run : Nat → TowCmd → State → State) : TowRow :=
  { blockRow op least long states run with
    target := isSlice
    wrong := fun s c => !st.contains (s.slice c.target.toNat).st
    units := fun _ c => [c.target.toNat] }

/-- A row whose target is a Culvert port. -/
def culRow (op : BitVec 8) (least : Nat) (long : Bool) (states : List BlockSt) (run : Nat → TowCmd → State → State) : TowRow :=
  { blockRow op least long states run with
    target := isCul
    units := fun _ c => [c.target.toNat] }

/-- The privilege stamped on a transport's commands (12 R411 to R413): 0 SERVICE, 1 HOST, 2 USER. -/
def State.towPriv (s : State) (v : Via) : Nat := match v with
  | .stream | .wire => 0
  | .window w => if bit (s.reg (0x700 + 8 * w.val)) 1 then 2 else 1

/-- Whether a command belongs to the charter group (12 R409). -/
def TowRow.charter (r : TowRow) : Bool := decide (0x20 ≤ r.op.toNat ∧ r.op.toNat ≤ 0x28)

/-- Commands that run in a power-fail hold (12 R416). -/
def holdOps : List (BitVec 8) := [0x00, 0x01, 0x02, 0x10, 0x12, 0xB0, 0x94]

/-- Whether a transport is a doorbell window, whose payloads hold 256 words (12 R412). -/
def isWindow (v : Via) : Bool := match v with
  | .window _ => true
  | _ => false

/-- The checks of LENGTH, PARAM and state (12 R406). -/
def TowRow.lengthBad (r : TowRow) (s : State) (c : TowCmd) : Bool :=
  !r.length c.payload.length || (isWindow c.via && (decide (256 < c.payload.length) || decide (256 < r.reply s c)))
def TowRow.paramBad (r : TowRow) (s : State) (c : TowCmd) : Bool :=
  !r.target c.target || c.flags &&& 0xFE != 0 || c.resv != 0 || c.param &&& ~~~r.param != 0 || r.bad s c
def TowRow.stateBad (r : TowRow) (s : State) (c : TowCmd) : Bool :=
  !r.states.contains s.core.block || wirIntrusive s.pwr.wir || (s.core.pf.hold && !holdOps.contains r.op) || r.wrong s c

/-- Long commands between ACCEPTED and completion, of a transport and of the block (12 R408, R423). -/
def State.longs (s : State) : List Running := s.tow.running.filter (fun q => q.long)
def State.longsOf (s : State) (v : Via) : List Running := s.longs.filter (fun q => q.live && viaSame q.via v)

/-- Whether a resource that a command needs is held (12 R408, R409). -/
def TowRow.isBusy (r : TowRow) (s : State) (c : TowCmd) : Bool :=
  s.tagUsed c.via c.tag || (r.long && (decide (8 ≤ (s.longsOf c.via).length) || decide (16 ≤ s.longs.length))) ||
  (r.charter && s.tow.running.any (fun q => q.charter)) ||
  (r.units s c).any (fun u => s.longs.any (fun q => q.units.contains u)) || r.busy s c

/-- The chain condition (12 R403). -/
def State.chainHolds (s : State) (v : Via) : Bool := decide (mget Prev.none s.tow.prev (viaCode v) = .ok)

/-- The first status that applies before a command runs, with its RESULT where one is given (12 R406). -/
def State.towCheck (r : TowRow) (c : TowCmd) (s : State) : Option (BitVec 8 × Option Word) :=
  if decide (r.least < s.towPriv c.via) || r.denied s c then some (tsDenied, none)
  else if r.lengthBad s c then some (tsBadLength, none)
  else if r.paramBad s c then some (tsBadParam, none)
  else if r.stateBad s c then some (tsWrongState, r.wrongResult s c)
  else if r.isBusy s c then some (tsBusy, none)
  else if c.flags.getLsbD 0 && !s.chainHolds c.via then some (tsFailed, none)
  else none

/-- A command is answered without running: its RESULT is open where no rule gives it. -/
def State.towError (op tag : BitVec 8) (v : Via) (status : BitVec 8) (res : Option Word) (s : State) : State :=
  let (w, s) := match res with
    | some w => (w, s)
    | none => s.freeWord
  s.sendReply v ⟨op, tag, status, 0, w, []⟩

/-- A command that passed every check runs: a long one answers ACCEPTED first (12 R407). -/
def State.towRun (r : TowRow) (c : TowCmd) (s : State) : State :=
  let id := s.tow.nextCmd
  let s := s.onTow (fun t => { t with
    nextCmd := id + 1
    running := t.running ++ [⟨id, c.via, r.op, c.tag, r.units s c, r.charter, r.long, true⟩] })
  let s := s.setPrev c.via (.run id)
  let s := if r.long then s.sendReply c.via ⟨r.op, c.tag, tsAccepted, 1, 0, []⟩ else s
  r.run id c s

/-- The Lockkeeper, or the Pilot Light in PILOT, takes a command (12 R406, R415). -/
def State.towTake (r : TowRow) (c : TowCmd) (s : State) : State :=
  if s.core.block = .pilot && !r.states.contains .pilot then (s.towError r.op c.tag c.via tsWrongState none).setPrev c.via .bad
  else match s.towCheck r c with
    | some (st, res) => (s.towError r.op c.tag c.via st res).setPrev c.via .bad
    | none => s.towRun r c

/-- A command whose opcode no table lists. -/
def State.towUnknown (op : BitVec 8) (c : TowCmd) (s : State) : State :=
  (s.towError op c.tag c.via (if s.core.block = .pilot then tsWrongState else tsBadOpcode) none).setPrev c.via .bad

/-- Whether a short command of a transport has its reply still to come: the next one waits (12 R410). -/
def State.towHeld (s : State) (v : Via) : Bool := s.tow.running.any (fun q => !q.long && viaSame q.via v)

/-- Whether the two-wire port answers on its strap address (18 R577). -/
def State.wireOn (s : State) : Bool :=
  s.core.block != .off && decide (8 ≤ s.pwr.strapAddr.toNat) && decide (s.pwr.strapAddr.toNat < 0x78)

/-- Whether a transport takes a command packet now (12 R411 to R415). -/
def State.viaOpen (s : State) (v : Via) : Bool := match v with
  | .stream => !s.pilotOnly
  | .window w => !s.pilotOnly && bit (s.reg (0x700 + 8 * w.val)) 0 && !(s.window w.val).busy
  | .wire => s.wireOn

/-- Word 0 of a command packet (12 R402). -/
def headWord (op : BitVec 8) (c : TowCmd) : Word :=
  c.resv ++ BitVec.ofNat 16 c.payload.length ++ c.flags ++ c.target ++ c.tag ++ op

/-- A transport has taken a command packet: a window stands as its writes and its ring leave it, and the two-wire port has no reply ready. -/
def State.viaTaken (op : BitVec 8) (c : TowCmd) (s : State) : State := match c.via with
  | .stream => s
  | .window w =>
    let x := s.window w.val
    s.putWindow w.val { x with cmd0 := headWord op c, cmd1 := c.param, data := dataWords x.data (c.payload.take 256), busy := true }
  | .wire => s.onTow (fun t => { t with wire := none })

/-- A command packet arrives: a ring of a busy window is a protocol error (12 R412), a closed transport takes nothing, and a command behind one
whose reply is still to come waits (12 R410). -/
def State.towArrive (op : BitVec 8) (take : State → State) (c : TowCmd) (s : State) : State :=
  if !s.viaOpen c.via then
    match c.via with
    | .window w => if !s.pilotOnly && bit (s.reg (0x700 + 8 * w.val)) 0 then s.raise famTowProto 1 else s
    | _ => s
  else
    let s := s.viaTaken op c
    if s.towHeld c.via then s.onTow (fun t => { t with waiting := t.waiting ++ [(op, c)] }) else take s

/-- A command of the tables arrives. -/
def State.towRow (r : TowRow) (c : TowCmd) (s : State) : State := s.towArrive r.op (State.towTake r c) c

/-- A command ends at once, with OK. -/
def State.towOk (id : Nat) (res : Word) (s : State) : State := s.complete id tsOk res []

end Sys2Proof.Machine
end

