-- ==== Sys2Proof/Machine/TowSession.lean ====
section
/-!
DEFINITION. Sys2Proof/Machine/TowSession.lean: the session and register commands (12 R421 to R424).
-/
namespace Sys2Proof.Machine

/-! NOP, IDENTIFY, TAG_QUERY and TRANSPORT_RESET. -/

def rowNop : TowRow := blockRow 0x00 2 false (.pilot :: anySt) (fun id _ s => s.towOk id 0)

/-- Code and window number of a transport (12 R421). -/
def viaWord (v : Via) : Nat := match v with
  | .stream => 0
  | .window w => 16 + 256 * w.val
  | .wire => 32

/-- The IDENTIFY payload (12 R421). -/
def State.identity (s : State) (v : Via) : List Word :=
  let small : Bool := s.core.block = .pilot || s.core.block = .init
  let straps := at' s.core.block.code 8 ||| at' s.pwr.strapLeader.toNat 16 ||| at' s.pwr.strapAddr.toNat 24
  [0x20000, if small then straps else straps ||| at' s.self.toNat 0, if small then 0 else Config.digest,
    at' (s.towPriv v) 0 ||| at' (viaWord v) 0]

def rowIdentify : TowRow :=
  { blockRow 0x01 2 false (.pilot :: anySt) (fun id c s => s.completePay id (s.identity c.via)) with reply := fun _ _ => 4 }

/-- The completion held for a tag of a transport. -/
def State.heldFor (s : State) (c : TowCmd) : Option Held := s.tow.held.find? (fun h => viaSame h.via c.via && h.tag = c.param.setWidth 8)

/-- Free a completed tag; its window has no completion to read when it was the last (12 R422). -/
def State.freeHeld (h : Held) (s : State) : State :=
  let s := s.onTow (fun t => { t with held := t.held.erase h })
  match h.via with
  | .window w => if s.tow.held.any (fun k => k.via = h.via) then s else s.putWindow w.val { s.window w.val with done := false }
  | _ => s

/-- TAG_QUERY (12 R422). -/
def State.tagQuery (id : Nat) (c : TowCmd) (s : State) : State :=
  match s.heldFor c with
  | some h => (s.freeHeld h).complete id tsOk (at' 2 0 ||| at' h.status.toNat 8 ||| (h.result <<< 16)) h.payload
  | none =>
    s.towOk id (if s.tagUsed c.via (c.param.setWidth 8) then 1 else 0)

def rowTagQuery : TowRow :=
  { blockRow 0x02 2 false anySt State.tagQuery with
    param := 0xFF
    reply := fun s c => match s.heldFor c with
      | some h => h.payload.length
      | none => 0 }

/-- TRANSPORT_RESET (12 R423): its RESULT is the number of tags freed. -/
def State.transportReset (id : Nat) (c : TowCmd) (s : State) : State :=
  let mine (r : Running) : Bool := r.long && r.live && viaSame r.via c.via
  let gone (h : Held) : Bool := viaSame h.via c.via
  let sent := if c.via = .stream then (s.tow.replies.filter (fun e => e.1.isSome)).length else 0
  let n := (s.tow.running.filter mine).length + (s.tow.held.filter gone).length + sent
  let s := s.onTow (fun t => { t with
    running := updateWhere mine (fun r => { r with live := false }) t.running
    held := t.held.filter (fun h => !gone h)
    replies := if c.via = .stream then t.replies.map (fun e => (none, e.2)) else t.replies })
  s.towOk id (at' n 0)

def rowTransportReset : TowRow := blockRow 0x03 2 false anySt State.transportReset

/-! Registers (12 R424). -/

/-- The offset that PARAM names. -/
def paramOff (c : TowCmd) : Nat := bits c.param 23 0
/-- OK, or LOCKED when a field of the write was refused (12 R418). -/
def lockedOr (r : Bool) : BitVec 8 := if r then tsLocked else tsOk

def State.towRegRead (id : Nat) (c : TowCmd) (s : State) : State :=
  let (v, s) := s.regRead (paramOff c)
  s.towOk id v

def rowRegRead : TowRow :=
  { blockRow 0x10 1 false (.pilot :: anySt) State.towRegRead with
    param := 0xFFFFFF
    bad := fun _ c => paramOff c % 8 != 0 }

/-- Whether a HOST write is denied (12 R414). -/
def hostDenied (s : State) (c : TowCmd) : Bool := s.towPriv c.via = 1 && !hostWrites (paramOff c)

def State.towRegWrite (id : Nat) (c : TowCmd) (s : State) : State :=
  let (r, s) := s.regWrite (paramOff c) (c.payload.headD 0)
  s.complete id (lockedOr r) 0 []

def rowRegWrite : TowRow :=
  { blockRow 0x11 1 false [.pilot, .init, .standby, .chartered, .service, .frozen] State.towRegWrite with
    length := fun n => n = 1
    param := 0xFFFFFF
    denied := hostDenied
    bad := fun _ c => paramOff c % 8 != 0 }

/-- Read a run of registers, each whole, in ascending order. -/
def State.regReads : Nat → Nat → State → List Word × State
  | 0, _, s => ([], s)
  | n + 1, o, s =>
    let (v, s) := s.regRead o
    let (l, s) := State.regReads n (o + 8) s
    (v :: l, s)

/-- The count of REG_READ_BLOCK. -/
def blockCount (c : TowCmd) : Nat := bits c.param 47 32

def State.towRegReadBlock (id : Nat) (c : TowCmd) (s : State) : State :=
  let (l, s) := s.regReads (blockCount c) (paramOff c)
  s.completePay id l

def rowRegReadBlock : TowRow :=
  { blockRow 0x12 1 false anySt State.towRegReadBlock with
    param := 0xFFFF00FFFFFF
    reply := fun _ c => blockCount c
    bad := fun _ c => paramOff c % 8 != 0 || blockCount c = 0 || decide (4096 < blockCount c) ||
      decide (0xFFFFF8 < paramOff c + 8 * (blockCount c - 1)) }

def State.towRegWriteMasked (id : Nat) (c : TowCmd) (s : State) : State :=
  let old := s.view (paramOff c)
  let (r, s) := s.regMask (paramOff c) (c.payload.getD 0 0) (c.payload.getD 1 0)
  s.complete id (lockedOr r) old []

def rowRegWriteMasked : TowRow :=
  { blockRow 0x13 1 false [.init, .standby, .chartered, .service, .frozen] State.towRegWriteMasked with
    length := fun n => n = 2
    param := 0xFFFFFF
    denied := hostDenied
    bad := fun _ c => paramOff c % 8 != 0 }

end Sys2Proof.Machine
end

