-- ==== Sys2Proof/Machine/TowDomain.lean ====
section
/-!
DEFINITION. Sys2Proof/Machine/TowDomain.lean: the charter and domain commands (12 R425 to R432), and the slice lifecycle commands (12 R433 to
R436).
-/
namespace Sys2Proof.Machine

/-! Charter and domain. -/

/-- Apply pairs in order as register writes: the index of the first bad pair, if any, whether a field refused, and the pairs applied (12 R426). -/
def State.loadPairs : List Word → Nat → Bool → State → Option Nat × Bool × Nat × State
  | o :: v :: l, n, r, s =>
    if bits o 63 24 != 0 || bits o 23 0 % 8 != 0 then (some n, r, n, s)
    else
      let (q, s) := s.regWrite (bits o 23 0) v
      State.loadPairs l (n + 1) (r || q) s
  | _, n, r, s => (none, r, n, s)

/-- CHARTER_LOAD. -/
def State.charterLoad (id : Nat) (c : TowCmd) (s : State) : State :=
  let (bad, r, n, s) := s.loadPairs c.payload 0 false
  match bad with
  | some k => s.complete id tsBadParam (at' k 0) []
  | none => s.complete id (lockedOr r) (at' n 0) []

def rowCharterLoad : TowRow :=
  { blockRow 0x20 0 false [.standby] State.charterLoad with
    length := fun n => decide (2 ≤ n ∧ n ≤ 4096) && n % 2 = 0 }

/-- CHARTER_CHECK (12 R430). -/
def State.towCharterCheck (id : Nat) (_ : TowCmd) (s : State) : State :=
  let (code, entry) := s.charterCheck
  s.complete id (if code = 0 then tsOk else tsBadParam) (s.checkResult code entry s.self) []

def rowCharterCheck : TowRow := blockRow 0x21 0 false [.standby] State.towCharterCheck

def rowCharterCommit : TowRow :=
  { blockRow 0x22 0 true [.standby] (fun id c s => s.charterCommit id c.param) with param := BitVec.allOnes 64 }

def rowCharterRelease : TowRow := blockRow 0x23 0 false [.chartered] (fun id _ s => s.charterRelease.towOk id 0)

def rowDiscover : TowRow :=
  { blockRow 0x24 0 true [.standby] (fun id c s => s.discover id (c.param.setWidth 8)) with param := 0xFF }

/-- The generation that GEN_ADVANCE names. -/
def newGen (c : TowCmd) : BitVec 48 := c.param.setWidth 48

def rowGenAdvance : TowRow :=
  { blockRow 0x25 0 false [.chartered] (fun id c s => (s.genAdvance (newGen c)).towOk id (s.core.eng.generation.setWidth 64)) with
    param := 0xFFFFFFFFFFFF
    bad := fun s c => newGen c = 0 || newGen c = s.core.eng.generation }

def rowServiceEnter : TowRow :=
  { blockRow 0x26 0 false [.chartered] (fun id _ s => s.serviceEnter.towOk id 0) with
    wrong := fun s _ => s.serviceBar != 0
    wrongResult := fun s _ => if s.serviceBar = 0 then none else some (at' s.serviceBar 0) }

/-- The agent that PARAM names in [11:0]. -/
def paramAgent (c : TowCmd) : AgentId := c.param.setWidth 12

def rowAgentAdmit : TowRow :=
  { blockRow 0x27 0 true [.chartered, .service] (fun id c s => s.agentAdmit id (paramAgent c)) with
    param := 0xFFF
    bad := fun s c => !s.core.listed (paramAgent c)
    wrong := fun s c => s.core.silent (agentInst (paramAgent c)) }

def rowAgentRetire : TowRow :=
  { blockRow 0x28 0 true [.chartered, .service] (fun id c s => s.agentRetire id (paramAgent c)) with
    param := 0xFFFF00000FFF
    bad := fun _ c => bits c.param 47 32 = 0 }

/-! Slices. -/

/-- Whether SLICE_POWER takes a mask in a slice's present state (12 R433). -/
def State.powerMask (s : State) (p mask : Nat) : Bool :=
  let hot := s.domMask p = 7
  match (s.slice p).st with
  | .dark => mask = 7
  | .ready => mask = 0
  | .spare => mask = 0 || (if hot then mask = 5 else mask = 7)
  | .sealed_ => mask = 0
  | _ => false

def rowSlicePower : TowRow :=
  { blockRow 0x40 0 true upSt (fun id c s => s.slicePower c.target.toNat (bits c.param 2 0) (some id)) with
    target := isSlice
    param := 7
    wrong := fun s c => !s.powerMask c.target.toNat (bits c.param 2 0)
    units := fun _ c => [c.target.toNat] }

def rowSliceSpare : TowRow :=
  sliceRow 0x41 0 false upSt [.ready] (fun id c s => (s.sliceSpare c.target.toNat).towOk id 0)

/-- The logical slice that SLICE_SERVE names. -/
def serveLogical (c : TowCmd) : Nat := bits c.param 3 0

def rowSliceServe : TowRow :=
  { blockRow 0x42 0 true [.standby, .chartered] (fun id c s => s.sliceServe c.target.toNat (serveLogical c) id) with
    target := isSlice
    param := 0xF
    bad := fun s c => decide (trimSize s.core.host.trim ≤ serveLogical c)
    wrong := fun s c => !s.core.fit true c.target.toNat || s.core.mapped (serveLogical c)
    units := fun _ c => [c.target.toNat] }

def rowSliceDrain : TowRow :=
  { sliceRow 0x43 0 true [.standby, .chartered] [.serving] (fun id c s => s.sliceDrain c.target.toNat (bit c.param 0) id) with param := 1 }

/-- The spare that SLICE_SWAP names. -/
def swapSpare (c : TowCmd) : Nat := bits c.param 4 0

def rowSliceSwap : TowRow :=
  { blockRow 0x44 0 true [.chartered, .service] (fun id c s => s.sliceSwap c.target.toNat (swapSpare c) (bit c.param 8) id) with
    target := isSlice
    param := 0x11F
    bad := fun _ c => decide (17 < swapSpare c) || swapSpare c = c.target.toNat
    wrong := fun s c => (s.slice c.target.toNat).st != .serving || !s.core.fit false (swapSpare c)
    units := fun _ c => [c.target.toNat, swapSpare c] }

/-- SLICE_FAILOVER (12 R436): a slice in PROOF from SPARE serves no logical slice, and is only sealed. -/
def State.sliceFailover (id : Nat) (c : TowCmd) (s : State) : State :=
  let p := c.target.toNat
  if s.core.serves p then s.onCore (Core.sealSlice p (some id))
  else
    let s := s.onCore (Core.sealSlice p none)
    s.towOk id (s.view 0x20808)

def rowSliceFailover : TowRow :=
  { sliceRow 0x45 0 true frozenSt [.serving, .proof] State.sliceFailover with
    param := 1
    bad := fun _ c => !bit c.param 0 }

/-- The logical slices that a Trim setting does not serve. -/
def unserved (t : Nat) (m : BitVec 16) : Bool := (setBits m 16).any (fun l => decide (trimSize t ≤ l))

/-- LS_REBUILD (12 R436). -/
def State.towLsRebuild (id : Nat) (c : TowCmd) (s : State) : State :=
  let s := s.lsRebuild (c.param.setWidth 16)
  s.towOk id (at' s.core.eng.censusSeq.toNat 0)

def rowLsRebuild : TowRow :=
  { blockRow 0x46 0 false frozenSt State.towLsRebuild with
    param := 0xFFFF
    bad := fun s c => unserved s.core.host.trim (c.param.setWidth 16) }

end Sys2Proof.Machine
end

