-- ==== Sys2Proof/Machine/TowImage.lean ====
section
/-!
DEFINITION. Sys2Proof/Machine/TowImage.lean: the microcode commands (12 R437, R438, 10 R347 to R354).
-/
namespace Sys2Proof.Machine

/-! Image loads. -/

/-- A load command's target: a slice or 0xFF. -/
def loadTarget (t : BitVec 8) : Bool := isSlice t || t = 0xFF
/-- Slices in which a load of a target may be opened now (12 R437). -/
def State.loadSlices (s : State) (c : TowCmd) : List Nat :=
  (if c.target = 0xFF then List.range 18 else [c.target.toNat]).filter (fun p => loadLegal (s.slice p).st)
/-- Slices that a load of a target skips. -/
def State.loadSkips (s : State) (c : TowCmd) : BitVec 18 :=
  if c.target = 0xFF then ((List.range 18).filter (fun p => !loadLegal (s.slice p).st)).foldl setBit 0 else 0
/-- The length that MC_LOAD_OPEN names. -/
def loadLen (c : TowCmd) : Nat := bits c.param 16 0

/-- MC_LOAD_OPEN. -/
def State.mcLoadOpen (id : Nat) (c : TowCmd) (s : State) : State :=
  let skip := s.loadSkips c
  (s.loadOpen c.target.toNat (s.loadSlices c) skip (loadLen c)).towOk id (at' skip.toNat 0)

/-- A slice whose standby store runs in PROOF takes no load: it is in the state PROOF. -/
def rowMcLoadOpen : TowRow :=
  { blockRow 0x60 0 false upSt State.mcLoadOpen with
    target := loadTarget
    param := 0x1FFFF
    bad := fun _ c => decide (loadLen c < 912) || decide (66432 < loadLen c)
    wrong := fun s c => c.target != 0xFF && (s.loadSlices c).isEmpty
    units := fun s c => s.loadSlices c }

/-- The open load of a command's target, before its close. -/
def State.openLoad (s : State) (c : TowCmd) : Option Load := s.start.loads.find? (fun l => l.target = c.target.toNat && l.cmd.isNone)
/-- Slices of an open load that are still LOADING; a load of one slice goes on only in a legal state of it (10 R348). -/
def State.loading (s : State) (c : TowCmd) : List Nat := match s.openLoad c with
  | some l => l.slices.filter (fun p => (s.slice p).standby.st = .loading && (c.target = 0xFF || loadLegal (s.slice p).st))
  | none => []
/-- Bytes that an open load has received. -/
def State.loadGot (s : State) (c : TowCmd) : Nat := match s.loading c with
  | p :: _ => (s.slice p).standby.next
  | [] => 0
/-- Whether a load of a command's target is open and LOADING in a slice, or has lost every slice and awaits its close. -/
def State.loadOpened (s : State) (c : TowCmd) : Bool := match s.openLoad c with
  | some l => !(s.loading c).isEmpty || l.slices.isEmpty
  | none => false

/-- MC_LOAD_DATA. -/
def State.mcLoadData (id : Nat) (c : TowCmd) (s : State) : State :=
  let got := s.loadGot c + 8 * c.payload.length
  (s.loadData (s.loading c) c.payload).towOk id (at' got 0)

def rowMcLoadData : TowRow :=
  { blockRow 0x61 0 false upSt State.mcLoadData with
    target := loadTarget
    length := fun n => decide (1 ≤ n ∧ n ≤ 4096)
    param := 0x1FFFF
    bad := fun s c => loadLen c % 8 != 0 || (!(s.loading c).isEmpty && loadLen c != s.loadGot c)
    wrong := fun s c => (s.loading c).isEmpty
    units := fun s c => s.loading c }

/-- MC_LOAD_CLOSE. -/
def State.mcLoadClose (id : Nat) (c : TowCmd) (s : State) : State := match s.openLoad c with
  | some l => s.loadClose l id
  | none => s.completeFree id tsFailed

def rowMcLoadClose : TowRow :=
  { blockRow 0x62 0 true upSt State.mcLoadClose with
    target := loadTarget
    wrong := fun s c => !s.loadOpened c
    units := fun s c => match s.openLoad c with
      | some l => l.slices
      | none => [] }

/-! Cut-over and PROOF. -/

/-- Whether a slice's two images differ in FORMAT (10 R350, R351). -/
def Slice.formatsDiffer (x : Slice) : Bool := x.standby.st = .verified && x.standby.format != x.control.format

def rowMcActivate : TowRow :=
  { blockRow 0x63 0 true [.standby, .chartered, .service] (fun id c s => s.galActivate c.target.toNat id) with
    target := isSlice
    bad := fun s c => (s.slice c.target.toNat).st = .serving && (s.slice c.target.toNat).formatsDiffer
    wrong := fun s c => let x := s.slice c.target.toNat; !loadLegal x.st || x.standby.st != .verified
    units := fun _ c => [c.target.toNat] }

def rowMcProofStart : TowRow :=
  { blockRow 0x64 0 false [.service] (fun id c s => (s.galProof c.target.toNat).towOk id 0) with
    target := isSlice
    bad := fun s c => (s.slice c.target.toNat).st = .serving && (s.slice c.target.toNat).formatsDiffer
    wrong := fun s c => let x := s.slice c.target.toNat; !(x.st = .serving || x.st = .spare) || x.standby.st != .verified
    units := fun _ c => [c.target.toNat] }

def rowMcProofEnd : TowRow :=
  { sliceRow 0x65 0 true frozenSt [.proof] (fun id c s => s.onGal c.target.toNat (fun g => { g with wants := g.wants ++ [.proofEnd (bit c.param 0) (some id)] })) with
    param := 1 }

/-- First entry and count of MC_PROOF_LOG_READ. -/
def proofFirst (c : TowCmd) : Nat := bits c.param 7 0
def proofCount (c : TowCmd) : Nat := bits c.param 16 8

/-- Words of a proof log entry; an entry that no divergence has written is open. -/
def State.proofEntry (p i : Nat) (s : State) : List Word × State :=
  match (s.gal p).log[i]? with
  | some e => ([recPart e 0, recPart e 1, recPart e 2, recPart e 3], s)
  | none =>
    let (a, s) := s.freeWord
    let (b, s) := s.freeWord
    let (c, s) := s.freeWord
    let (d, s) := s.freeWord
    ([a, b, c, d], s)

/-- Entries i upwards. -/
def State.proofEntries (p : Nat) : Nat → Nat → State → List Word × State
  | 0, _, s => ([], s)
  | n + 1, i, s =>
    let (l, s) := s.proofEntry p i
    let (m, s) := State.proofEntries p n (i + 1) s
    (l ++ m, s)

/-- MC_PROOF_LOG_READ. -/
def State.mcProofLogRead (id : Nat) (c : TowCmd) (s : State) : State :=
  let (l, s) := s.proofEntries c.target.toNat (proofCount c) (proofFirst c)
  s.completePay id l

def rowMcProofLogRead : TowRow :=
  { blockRow 0x66 0 false anySt State.mcProofLogRead with
    target := isSlice
    param := 0x1FFFF
    reply := fun _ c => 4 * proofCount c
    bad := fun _ c => proofCount c = 0 || decide (256 < proofFirst c + proofCount c)
    wrong := fun s c => (s.slice c.target.toNat).st = .dark }

def rowMcDiscard : TowRow :=
  { blockRow 0x67 0 false [.init, .standby, .chartered, .service, .frozen]
      (fun id c s => (s.onSlice c.target.toNat (fun x => { x with standby := Store.none })).towOk id 0) with
    target := isSlice
    wrong := fun s c => (s.slice c.target.toNat).standby.st = .inProof
    units := fun _ c => [c.target.toNat] }

def rowLkOverlay : TowRow :=
  { blockRow 0x68 0 true upSt (fun id c s => s.overlayStart id (c.param.toNat)) with
    param := 0xFFFFFFFFFFF000
    busy := fun s _ => s.start.overlay.isSome }

end Sys2Proof.Machine
end

