-- ==== Sys2Proof/Machine/TowMaint.lean ====
section
/-!
DEFINITION. Sys2Proof/Machine/TowMaint.lean: the directory, maintenance and Culvert commands (12 R439 to R443).
-/
namespace Sys2Proof.Machine

/-! Directory and maintenance. -/

/-- Array, first index and count of DIR_DUMP. -/
def dumpArray (c : TowCmd) : Nat := bits c.param 1 0
def dumpFirst (c : TowCmd) : Nat := bits c.param 24 8
def dumpCount (c : TowCmd) : Nat := bits c.param 47 32

def rowDirDump : TowRow :=
  { sliceRow 0x70 0 false [.standby, .chartered, .service, .frozen, .sealed_] [.ready, .serving, .draining, .spare, .proof, .sealed_]
      (fun id c s => s.dirDump c.target.toNat (dumpArray c) (dumpFirst c) (dumpCount c) id) with
    param := 0xFFFF01FFFF03
    reply := fun _ c => 2 * dumpCount c
    bad := fun _ c => dumpArray c = 3 || dumpCount c = 0 || decide (2048 < dumpCount c) || decide (dumpSize (dumpArray c) < dumpFirst c + dumpCount c)
    units := fun _ _ => [] }

/-- The Larder page that PARAM names. -/
def paramPage (c : TowCmd) : Nat := bits c.param 26 0
/-- Whether a page lies beyond the memory homed here (12 R440). -/
def State.pageBeyond (s : State) (c : TowCmd) : Bool := decide (bits (s.view offLarderInfo) 15 0 * 4096 ≤ paramPage c)

def rowDirRebuild : TowRow :=
  { blockRow 0x71 0 true frozenSt (fun id c s => s.dirRebuild (paramPage c) id) with
    param := 0x7FFFFFF
    bad := State.pageBeyond }

def rowLarderRead : TowRow :=
  { blockRow 0x72 0 false lockedSt (fun id c s => s.larderRead (paramPage c) id) with
    param := 0x7FFFFFF
    reply := fun _ _ => 136
    bad := State.pageBeyond }

/-- The line that MAINT_ADDR names. -/
def maintLine (c : TowCmd) : LineAddr := c.param.extractLsb' 8 48

/-- MAINT_ADDR (12 R441). -/
def State.towMaintAddr (id : Nat) (c : TowCmd) (s : State) : State := match maintOf (bits c.param 1 0) with
  | some o => s.maintAddr o (maintLine c) id
  | none => s

def rowMaintAddr : TowRow :=
  { blockRow 0x73 1 true frozenSt State.towMaintAddr with
    param := 0xFFFFFFFFFFFF03
    bad := fun s c => bits c.param 1 0 = 3 || !s.core.homesHere (maintLine c) }

/-- MAINT_ENTRY (12 R441). -/
def State.towMaintEntry (id : Nat) (c : TowCmd) (s : State) : State := match maintOf (bits c.param 9 8) with
  | some o => s.maintEntry c.target.toNat (bits c.param 5 0) o id
  | none => s

def rowMaintEntry : TowRow :=
  { sliceRow 0x74 0 true frozenSt [.serving, .draining, .proof] State.towMaintEntry with
    param := 0x33F
    bad := fun _ c => decide (47 < bits c.param 5 0) || bits c.param 9 8 = 3 }

/-! Culvert. -/

/-- Culvert port that TARGET names. -/
def culPort (c : TowCmd) : Nat := c.target.toNat - 0x20
/-- Whether a port is ACTIVE and not sealed. -/
def State.culUp (s : State) (n : Nat) : Bool := (s.cport n).st = .active && !s.core.flt.sealCul.getLsbD n

def rowCulRetrain : TowRow :=
  { culRow 0x80 0 true lockedSt (fun id c s => s.culRetrain (culPort c) (some id)) with
    wrong := fun s c => !s.culUp (culPort c) }

/-- Lane and spare of CUL_SPARE. -/
def spareLane (c : TowCmd) : Nat := bits c.param 3 0
def spareNo (c : TowCmd) : Nat := bits c.param 4 4
/-- Whether the named spare carries no logical lane and is not marked bad (12 R442). -/
def CPort.spareFree (x : CPort) (k : Nat) : Bool := laneOf x.rxMap (16 + k) != 0x1F && !x.rxBad.getLsbD (laneOf x.rxMap (16 + k))

def rowCulSpare : TowRow :=
  { culRow 0x81 0 true upSt (fun id c s => s.culSpare (culPort c) (spareLane c) (spareNo c) id) with
    param := 0x1F
    wrong := fun s c => !s.culUp (culPort c) || (s.cport (culPort c)).rxSwitch.isSome || (s.cport (culPort c)).txSwitch.isSome || !(s.cport (culPort c)).spareFree (spareNo c) }

def rowCulRouteReturn : TowRow :=
  { blockRow 0x82 0 true frozenSt (fun id c s => s.routeReturn id c.param) with param := BitVec.allOnes 64 }

/-- The nine registers of CUL_STATUS, with no side effect (12 R443). -/
def State.culStatus (s : State) (n : Nat) : List Word :=
  [0x00, 0x08, 0x10, 0x20, 0x28, 0x30, 0x38, 0x40, 0x48].map (fun l => s.view (0x80000 + n * 0x10000 + l))

def rowCulStatus : TowRow :=
  { culRow 0x83 1 false anySt (fun id c s => s.completePay id (s.culStatus (culPort c))) with
    reply := fun _ _ => 9
    units := fun _ _ => [] }

end Sys2Proof.Machine
end

