-- ==== Sys2Proof/Machine/TowPower.lean ====
section
/-!
DEFINITION. Sys2Proof/Machine/TowPower.lean: the power commands (12 R444, R445), observability (12 R446), and the fault and log commands (12
R447, R448).
-/
namespace Sys2Proof.Machine

/-! Power. -/

/-- The Trim setting that PWR_TRIM names. -/
def trimTo (c : TowCmd) : Nat := bits c.param 1 0
/-- Whether a setting serves more logical slices than the present one. -/
def State.trimGrows (s : State) (t : Nat) : Bool := decide (trimSize s.core.host.trim < trimSize t)
/-- Slices that a Trim change drains, wholly or partly, or puts to work. -/
def State.trimUnits (s : State) (t : Nat) : List Nat :=
  if t = s.core.host.trim then []
  else if s.trimGrows t then
    (List.range 18).filter s.core.serves ++ (match s.core.trimAdds t with
      | some l => l.map (fun e => e.2)
      | none => [])
  else ((List.range 16).filter (fun l => decide (trimSize t ≤ l))).filterMap (fun l =>
    let p := mget 0x1F s.core.host.remap l
    if p < 18 then some p else none)
/-- A slice in PROOF is not drained (12 R419), so a change that would drain one is not legal now. -/
def State.trimBar (s : State) (t : Nat) : Bool :=
  (s.trimUnits t).any (fun p => (s.slice p).st = .proof) || (s.trimGrows t && (s.core.trimAdds t).isNone)

/-- PWR_TRIM (12 R444). -/
def State.towPwrTrim (id : Nat) (c : TowCmd) (s : State) : State :=
  if trimTo c = s.core.host.trim then s.towOk id 0
  else s.pwrTrim (trimTo c) (if s.trimGrows (trimTo c) then (s.core.trimAdds (trimTo c)).getD [] else []) id

def rowPwrTrim : TowRow :=
  { blockRow 0x90 0 true [.service] State.towPwrTrim with
    param := 3
    bad := fun _ c => trimTo c = 3
    wrong := fun s c => s.trimBar (trimTo c)
    units := fun s c => s.trimUnits (trimTo c) }

def rowPwrIdle : TowRow :=
  { blockRow 0x91 0 true [.service] (fun id c s => s.pwrIdle (bit c.param 0) id) with param := 1 }

def rowPwrDeep : TowRow := blockRow 0x92 0 true [.standby] (fun id _ s => s.pwrDeep id)

/-- Element, half and direction of PWR_HALF. -/
def halfElement (c : TowCmd) : Nat := bits c.param 0 0
def halfHalf (c : TowCmd) : Nat := bits c.param 1 1
/-- Whether a half may not be switched off: outside Idle, or with the other half out of service (12 R444, 01 R54). -/
def State.halfBar (s : State) (c : TowCmd) : Bool :=
  !bit c.param 2 && (!s.pwr.idle || !s.core.halfOn (halfElement c) (1 - halfHalf c))

def rowPwrHalf : TowRow :=
  { blockRow 0x93 0 true [.chartered, .service] (fun id c s => s.pwrHalf (halfElement c) (halfHalf c) (bit c.param 2) id) with
    param := 7
    wrong := State.halfBar }

/-- Whether a release of a power-fail hold is legal (08 R274). -/
def State.mayRelease (s : State) : Bool :=
  s.core.pf.hold && s.core.pf.left.isEmpty && s.core.pf.failHigh && s.pwr.good

/-- PF_RELEASE: what the hold deferred goes on. -/
def State.pfRelease (s : State) : State := (((s.onCore Core.pfResume).marker 0x0A 0).culLate).arriveAll

/-- Its RESULT is PF_STAT. -/
def State.towPfRelease (id : Nat) (_ : TowCmd) (s : State) : State :=
  let s := s.pfRelease
  s.towOk id s.pfStat

def rowPfRelease : TowRow :=
  { blockRow 0x94 0 false lockedSt State.towPfRelease with wrong := fun s _ => !s.mayRelease }

/-- Whether a port is sealed, by target code. -/
def State.portSealed (s : State) (t : BitVec 8) : Bool :=
  if isCul t then s.core.flt.sealCul.getLsbD (t.toNat - 0x20)
  else if isFab t then s.core.flt.sealFab.getLsbD (t.toNat - 0x28)
  else s.core.flt.sealMem.getLsbD (t.toNat - 0x2C)
/-- Whether a fabric port carries a present agent. -/
def State.fabInUse (s : State) (f : Nat) : Bool := (setBits s.core.host.present 64).any (fun l => s.core.fport (BitVec.ofNat 6 l) = f)
/-- Whether PORT_POWER may not switch a port now (12 R445). -/
def State.portBar (s : State) (c : TowCmd) : Bool :=
  let t := c.target
  if bit c.param 0 then (unitDoms t.toNat).all (fun d => s.core.doms.getLsbD d)
  else if s.portSealed t then false
  else if isCul t then let st := (s.cport (t.toNat - 0x20)).st; !(st = .reset || st = .down)
  else if isFab t then s.fabInUse (t.toNat - 0x28)
  else s.core.block != .standby

/-- PORT_POWER: a port whose domains are off already has nothing to switch off. -/
def State.towPortPower (id : Nat) (c : TowCmd) (s : State) : State :=
  let u := c.target.toNat
  if !bit c.param 0 && (unitDoms u).all (fun d => !s.core.doms.getLsbD d) then s.towOk id 0
  else s.portPower u (bit c.param 0) id

def rowPortPower : TowRow :=
  { blockRow 0x95 0 true upSt State.towPortPower with
    target := fun t => isCul t || isFab t || isMem t
    param := 1
    wrong := State.portBar
    units := fun _ c => if isFab c.target then [] else [c.target.toNat] }

/-! Observability. -/

/-- First counter and count of CNT_READ. -/
def cntFrom (c : TowCmd) : Nat := bits c.param 8 0
def cntCount (c : TowCmd) : Nat := bits c.param 17 9
/-- A USER read of a counter whose group USER may not read is denied (12 R446). -/
def cntDenied (s : State) (c : TowCmd) : Bool :=
  s.towPriv c.via = 2 && (List.range (cntCount c)).any (fun k => decide (cntFrom c + k < 408) && !bit (s.cntGrp (cntGroup (cntFrom c + k))) 0)
/-- Values of counters. -/
def State.cntWords (s : State) (c : TowCmd) : List Word := (List.range (cntCount c)).map (fun k => s.view (0x40000 + 8 * (cntFrom c + k)))

def rowCntRead : TowRow :=
  { blockRow 0xA0 2 false anySt (fun id c s => s.completePay id (s.cntWords c)) with
    param := 0x3FFFF
    reply := fun _ c => cntCount c
    denied := cntDenied
    bad := fun _ c => cntCount c = 0 || decide (408 < cntFrom c + cntCount c) }

/-- Words of records of a ring. -/
def recWords (m : Map (BitVec 256)) (first n size : Nat) : List Word :=
  (List.range n).flatMap (fun k => let e := mget 0 m ((first + k) % size); [recPart e 0, recPart e 1, recPart e 2, recPart e 3])

/-- First record and count of LOGBOOK_READ. -/
def logFrom (c : TowCmd) : Nat := bits c.param 15 0
def logCount (c : TowCmd) : Nat := bits c.param 27 16

def rowLogbookRead : TowRow :=
  { blockRow 0xA1 1 false anySt (fun id c s => s.completePay id (recWords s.watch.sram (logFrom c) (logCount c) 2048)) with
    param := 0xFFFFFFF
    reply := fun _ c => 4 * logCount c
    bad := fun _ c => logCount c = 0 || decide (1024 < logCount c) || decide (2048 < logFrom c + logCount c) }

/-- DUMP_NOW: one that meets a dump in progress waits for it (16 R538). -/
def State.dumpNow (id : Nat) (s : State) : State := match s.watch.dump with
  | some d => s.onWatch (fun w => { w.skip with dump := some { d with cmds := d.cmds ++ [id] } })
  | none => s.dumpStart [id]

def rowDumpNow : TowRow := blockRow 0xA2 1 true lockedSt (fun id _ s => s.dumpNow id)

/-! Faults and log. -/

/-- First entry and count of LOG_READ. -/
def ringFrom (c : TowCmd) : Nat := bits c.param 9 0
def ringCount (c : TowCmd) : Nat := bits c.param 26 16

/-- LOG_READ (12 R447). -/
def State.logRead (id : Nat) (c : TowCmd) (s : State) : State :=
  let l := recWords s.core.flt.ring (ringFrom c) (ringCount c) 1024
  let s := if bit c.param 32 then s.onCore (Core.fltRd (s.core.flt.rd + BitVec.ofNat 11 (ringCount c))) else s
  s.complete id tsOk s.fltPtr l

def rowLogRead : TowRow :=
  { blockRow 0xB0 1 false anySt State.logRead with
    param := 0x107FF03FF
    reply := fun _ c => 4 * ringCount c
    bad := fun s c => ringCount c = 0 || decide (1024 < ringCount c) || (bit c.param 32 && ringFrom c != s.core.flt.rd.toNat % 1024) }

/-- The source that FLT_INJECT names, and whether its unit is agent. -/
def injSource (c : TowCmd) : Nat := bits c.param 10 0
def injAgent (c : TowCmd) : Bool := unitOf (injSource c / 32) (injSource c % 32) = .agent
/-- The agent that it names, and the mask of its instance's agents. -/
def injId (c : TowCmd) : AgentId := c.param.extractLsb' 16 12
def injMask (c : TowCmd) : BitVec 64 := if bit c.param 28 then BitVec.allOnes 64 else oneHot 64 (agentLocal (injId c)).toNat

/-- The event that FLT_INJECT reports (12 R448). Its DATA is open where the source would give a detail of a real event. -/
def injEvent (c : TowCmd) (d : BitVec 64) : FltEvent :=
  if injAgent c then
    ⟨injSource c, 0, if bit c.param 28 then 0 else injId c, BitVec.ofNat 24 (0xA50000 + (agentInst (injId c)).toNat * 16), injMask c,
      some (agentInst (injId c), injMask c)⟩
  else ⟨injSource c, 0, 0, 0xA50000, d, none⟩

/-- FLT_INJECT: its RESULT is the number of its log entry. -/
def State.fltInject (id : Nat) (c : TowCmd) (s : State) : State :=
  let seq := match s.core.seqFor (injSource c) with
    | some n => n.toNat
    | none => 0xFFFFFFFF
  let (d, s) := s.freeWord
  (s.onCore (Core.raiseEv (injEvent c d))).towOk id (at' seq 0)

def rowFltInject : TowRow :=
  { blockRow 0xB1 0 false lockedSt State.fltInject with
    param := 0x1FFF07FF
    bad := fun s c => !famUses (injSource c / 32) (injSource c % 32) ||
      (if injAgent c then (if bit c.param 28 then !(s.reg 0x600).getLsbD (agentInst (injId c)).toNat else !s.core.listed (injId c))
       else bits c.param 28 16 != 0) }

def rowSealBlock : TowRow :=
  { blockRow 0xB2 0 false [.init, .standby, .chartered, .service, .frozen] (fun id _ s => (s.towOk id 0).onCore Core.sealBlock) with
    param := 1
    bad := fun _ c => !bit c.param 0 }

end Sys2Proof.Machine
end

