-- ==== Sys2Proof/Machine/TowPort.lean ====
section
/-!
DEFINITION. Sys2Proof/Machine/TowPort.lean: the command table by opcode, command packets as the transports deliver them, the two-wire port's reads,
and the fabric MMIO window (12 R402, R411 to R413, 17 R571 to R574, 18 R582, R586).
-/
namespace Sys2Proof.Machine

/-- Rows of opcodes below 0x60. -/
def rowLow (o : Nat) : Option TowRow :=
  match o with
  | 0x00 => some rowNop | 0x01 => some rowIdentify | 0x02 => some rowTagQuery | 0x03 => some rowTransportReset
  | 0x10 => some rowRegRead | 0x11 => some rowRegWrite | 0x12 => some rowRegReadBlock | 0x13 => some rowRegWriteMasked
  | 0x20 => some rowCharterLoad | 0x21 => some rowCharterCheck | 0x22 => some rowCharterCommit | 0x23 => some rowCharterRelease
  | 0x24 => some rowDiscover | 0x25 => some rowGenAdvance | 0x26 => some rowServiceEnter | 0x27 => some rowAgentAdmit | 0x28 => some rowAgentRetire
  | 0x40 => some rowSlicePower | 0x41 => some rowSliceSpare | 0x42 => some rowSliceServe | 0x43 => some rowSliceDrain | 0x44 => some rowSliceSwap
  | 0x45 => some rowSliceFailover | 0x46 => some rowLsRebuild
  | _ => none

/-- Rows of the other opcodes. -/
def rowHigh (o : Nat) : Option TowRow :=
  match o with
  | 0x60 => some rowMcLoadOpen | 0x61 => some rowMcLoadData | 0x62 => some rowMcLoadClose | 0x63 => some rowMcActivate
  | 0x64 => some rowMcProofStart | 0x65 => some rowMcProofEnd | 0x66 => some rowMcProofLogRead | 0x67 => some rowMcDiscard | 0x68 => some rowLkOverlay
  | 0x70 => some rowDirDump | 0x71 => some rowDirRebuild | 0x72 => some rowLarderRead | 0x73 => some rowMaintAddr | 0x74 => some rowMaintEntry
  | 0x80 => some rowCulRetrain | 0x81 => some rowCulSpare | 0x82 => some rowCulRouteReturn | 0x83 => some rowCulStatus
  | 0x90 => some rowPwrTrim | 0x91 => some rowPwrIdle | 0x92 => some rowPwrDeep | 0x93 => some rowPwrHalf | 0x94 => some rowPfRelease
  | 0x95 => some rowPortPower
  | 0xA0 => some rowCntRead | 0xA1 => some rowLogbookRead | 0xA2 => some rowDumpNow
  | 0xB0 => some rowLogRead | 0xB1 => some rowFltInject | 0xB2 => some rowSealBlock
  | _ => none

/-- The row of an opcode, if the tables list it. -/
def rowOf (op : BitVec 8) : Option TowRow := if op.toNat < 0x60 then rowLow op.toNat else rowHigh op.toNat

/-- Take a command by its opcode (12 R406). -/
def State.towTakeOp (op : BitVec 8) (c : TowCmd) (s : State) : State :=
  match rowOf op with
  | some r => s.towTake r c
  | none => s.towUnknown op c

/-- A command packet arrives, whatever its opcode. -/
def State.towPacket (op : BitVec 8) (c : TowCmd) (s : State) : State := s.towArrive op (State.towTakeOp op c) c

/-- Whether a waiting command may be taken: none of its transport has a reply still to come. -/
def State.towNext (s : State) : Option (BitVec 8 × TowCmd) := s.tow.waiting.find? (fun e => !s.towHeld e.2.via)
/-- Take the first command that waits and need wait no more (12 R410). -/
def State.towResume (s : State) : State :=
  match s.towNext with
  | some (op, c) => (s.onTow (fun t => { t with waiting := t.waiting.erase (op, c) })).towTakeOp op c
  | none => s

/-! Packets. -/

/-- Fields of word 0 of a command (12 R402). -/
def headOp (w : Word) : BitVec 8 := w.extractLsb' 0 8
def headTag (w : Word) : BitVec 8 := w.extractLsb' 8 8
def headLen (w : Word) : Nat := bits w 47 32
/-- The command that a header and a payload spell. -/
def packet (v : Via) (w p : Word) (l : List Word) : TowCmd :=
  ⟨v, headTag w, w.extractLsb' 16 8, w.extractLsb' 24 8, w.extractLsb' 48 16, p, l⟩

/-- Command-word credits go back on TOW_CMD_CRD (18 R586). -/
def State.cmdCredit (n : Nat) (s : State) : State := s.onCore (Core.emit (.cmdCredit n))

/-- A packet on the streaming port (12 R411): one that its LENGTH does not match is discarded. The words' credits return as they are taken (18
R586). -/
def State.streamPacket (l : List Word) (s : State) : State :=
  if s.pilotOnly then s
  else
    let s := s.cmdCredit l.length
    match l with
    | [] => s
    | w :: r =>
      match r with
      | p :: d => if d.length = headLen w then s.towPacket (headOp w) (packet .stream w p d) else (s.raise famTowProto 0).towError (headOp w) (headTag w) .stream tsBadLength none
      | [] => (s.raise famTowProto 0).towError (headOp w) (headTag w) .stream tsBadLength none

/-- A write to DB_RING (12 R412): the payload is the first LENGTH words of DB_DATA, and one word more than the window holds stands for every
LENGTH above it. -/
def State.ring (w : Fin 8) (s : State) : State :=
  let x := s.window w.val
  let d := (List.range (Nat.min 257 (headLen x.cmd0))).map (fun i => mget 0 x.data i)
  s.towPacket (headOp x.cmd0) (packet (.window w) x.cmd0 x.cmd1 d)

/-- Eight bytes as a word, the first lowest. -/
def wordOfBytes (l : List (BitVec 8)) : Word := BitVec.ofNat 64 (l.foldr (fun b n => b.toNat + 256 * n) 0)
/-- Bytes as words; a last part of fewer than eight bytes has zeros above. -/
def wordsOfBytes : Nat → List (BitVec 8) → List Word
  | 0, _ => []
  | n + 1, l => if l.isEmpty then [] else wordOfBytes (l.take 8) :: wordsOfBytes n (l.drop 8)

/-- A packet of the wrong length on the two-wire port (12 R413): bytes of OPCODE and TAG that did not arrive are open in its reply. -/
def State.wireBad (l : List (BitVec 8)) (s : State) : State :=
  let (f, s) := s.freeWord
  let h : Word := match l with
    | [] => f
    | [b] => f.extractLsb' 8 56 ++ b
    | _ => wordOfBytes (l.take 8)
  let s := if s.powered then s.raise famTowProto 2 else s
  (s.onTow (fun t => { t with wire := none })).towError (headOp h) (headTag h) .wire tsBadLength none

/-- A write transfer on the two-wire port, at its STOP condition (12 R413). -/
def State.wireWrite (l : List (BitVec 8)) (s : State) : State :=
  if !s.wireOn then s
  else
    match wordsOfBytes l.length l with
    | w :: p :: d => if l.length = 16 + 8 * headLen w then s.towPacket (headOp w) (packet .wire w p d) else s.wireBad l
    | _ => s.wireBad l

/-- A read transfer of n bytes on the two-wire port: SCL is stretched while the reply is not ready (12 R413). -/
def State.wireRead (n : Nat) (s : State) : State :=
  if !s.wireOn then s
  else match s.tow.wire with
    | some l => s.wireOut l n
    | none => s.onTow (fun t => { t with wireRead := some n })

/-- 1 ms has passed since the address byte of a read transfer that stretches SCL (12 R413). -/
def State.wireTimeout (s : State) : State :=
  match s.tow.wireRead with
  | some n => (s.onTow (fun t => { t with wireRead := none })).wireOut [] n
  | none => s

/-! The MMIO window (17 R571 to R574). -/

/-- DB_WSTAT (12 R412). -/
def Window.wstat (x : Window) : Word := at' x.busy.toNat 0 ||| at' x.reply.toNat 1 ||| at' x.done.toNat 2

/-- A read of a doorbell window's word at offset l. -/
def Window.read (x : Window) (l : Nat) : Word :=
  if l = 0x000 then x.cmd0 else if l = 0x008 then x.cmd1 else if l = 0x010 then x.rpl0 else if l = 0x018 then x.rpl1
  else if l = 0x028 then x.wstat else if 0x800 ≤ l then mget 0 x.data ((l - 0x800) / 8) else 0

/-- A write of a doorbell window's word. -/
def Window.write (x : Window) (l : Nat) (v : Word) : Window :=
  if l = 0x000 then { x with cmd0 := v } else if l = 0x008 then { x with cmd1 := v }
  else if l = 0x028 then { x with reply := x.reply && !bit v 1, done := x.done && !bit v 2 }
  else if 0x800 ≤ l then { x with data := mset 0 x.data ((l - 0x800) / 8) v } else x

/-- The register that an offset of the interrupt page names, if any. -/
def irqPage (o : Nat) : Option Nat :=
  if 0x8000 ≤ o ∧ o < 0x8200 ∧ [0x18, 0x20, 0x28, 0x30].contains (o % 0x40) then some (0x10C00 + (o - 0x8000)) else none

/-- A read of the window. -/
def State.mmioRead (o : Nat) (s : State) : Word × State :=
  if o < 0x8000 then ((s.window (o / 0x1000)).read (o % 0x1000), s)
  else match irqPage o with
    | some r => s.regRead r
    | none =>
      if inArray o 0xC000 8 408 then
        let c := (o - 0xC000) / 8
        (if bit (s.cntGrp (cntGroup c)) 0 then s.view (0x40000 + 8 * c) else 0, s)
      else if inArray o 0xD000 8 408 then (s.view (0x40000 + (o - 0xD000)), s)
      else (0, s)

/-- A write to the window. -/
def State.mmioWrite (o : Nat) (v : Word) (s : State) : State :=
  if h : o < 0x8000 then
    let w : Fin 8 := ⟨o / 0x1000, by omega⟩
    if o % 0x1000 = 0x020 then s.ring w
    else if (s.window w.val).busy then s
    else s.putWindow w.val ((s.window w.val).write (o % 0x1000) v)
  else match irqPage o with
    | some r => if o % 0x40 = 0x28 || o % 0x40 = 0x30 then (s.regWrite r v).2 else s
    | none => s

/-- Whether a fabric port takes MMIO accesses: its domain is on, and it is not sealed. -/
def State.mmioOpen (s : State) (f : Nat) : Bool := !s.pilotOnly && s.core.doms.getLsbD (66 + f) && !s.core.flt.sealFab.getLsbD f

/-- An MMIO access and its answer (17 R572, 18 R582). -/
def State.mmio (f : Fin 4) (write : Bool) (size : BitVec 2) (off : BitVec 16) (v : Word) (id : BitVec 8) (s : State) : State :=
  if !s.mmioOpen f.val then s
  else if size != 3 || off.toNat % 8 != 0 then s.onCore (Core.emit (.mmio f.val id.toNat 0))
  else if write then (s.mmioWrite off.toNat v).onCore (Core.emit (.mmio f.val id.toNat 0))
  else
    let (w, s) := s.mmioRead off.toNat
    s.onCore (Core.emit (.mmio f.val id.toNat w))

end Sys2Proof.Machine
end

