-- ==== Sys2Proof/Machine/Finish.lean ====
section
/-!
DEFINITION. Sys2Proof/Machine/Finish.lean: what follows a command's own effect in the same step: the engine's work, messages between the units of
the block, procedures that can go on, and the interrupt controller's cycle.
-/
namespace Sys2Proof.Machine

/-! Messages of other instances (09 R298, 03 R89). -/

/-- Control opcodes that no rule defines (09 R298). -/
def culReserved (o : Nat) : Bool := (decide (0xC6 ≤ o) && decide (o ≤ 0xCF)) || o = 0xD6 || o = 0xD7 || (decide (0xDC ≤ o) && decide (o ≤ 0xDF))

/-- The commit and link messages that the Lockkeeper takes: none for another opcode. -/
def State.culService (c : CulMsg) (s : State) : Option State :=
  let h := c.m.h
  let o := c.m.op.toNat
  if o = 0xC3 then some (match c.m.beats with
    | some d => s.takeSalvage h d
    | none => s)
  else if o = 0xC4 then some (s.takeFence c.vc h)
  else if o = 0xC5 then some (s.takeFenceAck h)
  else if o = 0xD8 then some (s.takeCommitReport ⟨h.srci, commitId h, commitCode h, commitEntry h⟩)
  else if o = 0xD9 then some (s.takeCommitGo h)
  else if o = 0xDA then some (s.takeCommitAck h.srci)
  else if o = 0xDB then some s.takeCommitAll
  else none

/-- A message that a Culvert port has delivered, or one of this instance to itself (port 6). -/
def State.culRecv (n : Nat) (c : CulMsg) (s : State) : State :=
  if c.m.op = 0xC1 then (if n < 6 then s.takeHello n c.hops c.m.h else s)
  else if c.m.h.dsti != s.self then (if n < 6 then s.culTransit n { c with cells := none } else s)
  else if culReserved c.m.op.toNat then (if n < 6 then s.raise famCulProto (unitCul n) else s)
  else match s.culService c with
    | some t => t
    | none => s.onCore (Core.takes (Core.recvChip (if h : n < 6 then some ⟨n, h⟩ else none) c.m))

/-! One round of what units hand each other. -/

/-- What the engine hands to another unit. -/
def State.doUp (u : Up) (s : State) : State :=
  match u with
  | .maint cmd => s.complete cmd tsOk 0 []
  | .page cmd words cls => s.complete cmd tsOk (at' cls 0) words
  | .rebuilt cmd n => s.complete cmd tsOk (at' n 0) []
  | .dumpLine _ => s.dumpLine
  | .spillLine _ => s
  | .overlay _ _ _ => s.overlayRead
  | .blockSealed => s.culBlockSealed
  | .culSeal n => s.culSealed n
  | .admitted p m => s.offer p false m
  | .released m => (s.galSends (s.core.physOfLine m.h.line) m).offer (s.core.physOfLine m.h.line) true m
  | .failover cmd spare => s.complete cmd (if spare.isSome then tsOk else tsFailed) (s.view offFoStat) []
  | .wakeSpare q => s.workOn none q [3 * q + 1] true
  | .mode p code => s.galMode p code

/-- Messages for the Culvert go to their ports. -/
def State.moveOut (s : State) : State :=
  foldS State.culRoute s.core.toSend (s.onCore (fun k => { k with toSend := [] }))
/-- What the engine has handed on is done. -/
def State.moveUp (s : State) : State := foldS State.doUp s.core.up (s.onCore (fun k => { k with up := [] }))
/-- Take a message that came over the Culvert: it leaves the receive side, but data that waits for a chamber data reserve slot keeps its cells
(06 R190, 09 R297). -/
def State.takeIn (n : Nat) (c : CulMsg) (s : State) : State :=
  let s := s.culRecv n c
  match c.cells with
  | none => s
  | some k =>
    if s.core.host.waitData.any (fun w => w.2 = c.m) && !s.cul.parked.any (fun e => e.1 = c.m) then
      s.onCul (fun u => { u with parked := u.parked ++ [(c.m, k)] })
    else s.cellsFree k
/-- Messages that came over the Culvert are taken. -/
def State.moveIn (s : State) : State :=
  foldS (fun (e : Nat × CulMsg) => State.takeIn e.1 e.2) s.cul.inbox (s.onCul (fun u => { u with inbox := [] }))
/-- Data that has its slot leaves the receive side (09 R297). -/
def State.unpark (s : State) : State :=
  let waits (e : Msg × Cells) : Bool := s.core.host.waitData.any (fun w => w.2 = e.1)
  foldS (fun (e : Msg × Cells) => State.cellsFree e.2) (s.cul.parked.filter (fun e => !waits e))
    (s.onCul (fun u => { u with parked := u.parked.filter waits }))

/-- Whether nothing is left to hand on. -/
def State.quiet (s : State) : Bool :=
  s.core.toSend.isEmpty && s.core.up.isEmpty && s.cul.inbox.isEmpty && s.core.flt.raised.isEmpty && (s.core.nextTask).isNone

/-- Rounds until nothing is left. -/
def State.pump : Nat → State → State
  | 0, s => s
  | n + 1, s => if s.quiet then s else (s.onCore Core.settle).moveOut.moveUp.moveIn.pump n

/-- Most rounds of one command; what is left goes on with the next. -/
def pumpFuel : Nat := 4096

/-! Procedures that go on. -/

/-- A dump that has ended (16 R538, R539). -/
def State.dumpReconcile (s : State) : State :=
  match s.watch.dump with
  | none => s
  | some d =>
    if !d.ended then s
    else if d.lines.isEmpty then
      foldS (fun c => State.completeFree c tsFailed) d.cmds (s.onWatch (fun w => { w with dump := none }))
    else
      foldS (fun c s => s.complete c tsOk (at' d.base 0) []) d.cmds (s.onWatch (fun w => { w with dump := none, done := true }))

/-- Everything that may go on without a command. -/
def State.reconcile (s : State) : State :=
  let s := s.unpark.dumpReconcile.fenceReconcile
  let s := foldS State.galReconcile (List.range 18) s
  let s := s.loadReconcile.leaveReconcile.gateReconcile
  s.interrogReconcile.workPump.drainReconcile.admitReconcile.retireReconcile.overlayReconcile.maintReconcile.deepReconcile

/-- Commands that waited for an earlier reply of their transport are taken. -/
def State.resumeAll : Nat → State → State
  | 0, s => s
  | n + 1, s => if s.towNext.isNone then s else ((s.towResume).pump pumpFuel).resumeAll n

/-- Whether nothing may go on without a command but the interrupt controller's cycle: no unit has work, and no procedure that goes on by itself
is under way. -/
def State.calm (s : State) : Bool :=
  s.quiet && s.watch.dump.isNone && s.cul.parked.isEmpty && s.cul.fences.isEmpty && s.cul.fenceIns.isEmpty &&
  s.gals.all (fun e => !e.2.split && e.2.wants.isEmpty) && decide (s.core.eng.larder.length ≤ 4) &&
  s.pwr.queue.isEmpty && s.pwr.work.isEmpty && !s.pwr.idle && !s.pwr.interrog && !(s.core.pf.hold && s.pwr.req) &&
  s.start.loads.isEmpty && s.start.drains.isEmpty && s.start.admits.isEmpty && s.start.retires.isEmpty && s.start.maints.isEmpty &&
  s.start.overlay.isNone && s.tow.waiting.isEmpty

/-- The procedures' part of a step's end. -/
def State.goOn (s0 s : State) : State :=
  let s := (s.pump pumpFuel).reconcile.pump pumpFuel
  let s := s.resumeAll s0.tow.waiting.length
  s.reconcile.pump pumpFuel

/-- The end of a step from s0. Without power to the main domains nothing more happens. -/
def State.finish (s0 s : State) : State :=
  if !s.powered then s
  else
    let s := State.commitAll s0 (if s.calm then s else State.goOn s0 s)
    let s := if s.quiet then s else s.pump pumpFuel
    if s.powered then State.irqCycle s0 s else s

/-! An unchecked error of the host's, the integrator's or the software's own making (00 R4). -/

/-- One of the states of a list, or the present one. -/
def anyOf {α : Type} (l : List α) (x : α) (w : Nat) : α := l.getD w x

/-- Any block or slice state, and any data of the lines that the block holds. -/
def Core.upset (s : Core) : Core :=
  let i := s.freeCtr
  let w (k : Nat) : Nat := (Config.freeWord (i + k)).toNat
  let block := anyOf [.off, .pilot, .init, .standby, .chartered, .service, .frozen, .sealed_] s.block (w 0)
  let s := { s with block := block, freeCtr := i + 128 }
  let s := s.onHost (fun h => { h with berths := h.berths.zipIdx.map (fun e =>
    { e.1 with data := e.1.data.map (fun d => { d with data := Config.freeLine (i + e.2) }) }) })
  foldS (fun p s => s.onSlice p (fun x => { x with
    st := anyOf [.dark, .waking, .ready, .spare, .serving, .draining, .proof, .sealed_] x.st (w (p + 1))
    skl := x.skl.map (fun (e : Nat × SklEnt) => (e.1, { e.2 with data := Config.freeLine (i + 2048 * (p + 1) + e.1) })) })) (List.range 18) s

/-- What R4 allows the block after such an error, beside the command's ordinary effect: any error source is raised, any block or slice state
entered, any data returned. Which of it happens is free. Write-once fields, the control stores and the retention bits stay. -/
def State.upset (s : State) : State :=
  let (w, s) := s.freeWord
  let src := bits w 10 0
  let s := if bit w 11 && famUses (src / 32) (src % 32) then s.raise (src / 32) (src % 32) else s
  let (v, s) := s.freeWord
  if bit v 0 then s.onCore Core.upset else s

/-! The outcome of a command. -/

/-- From s to t INST_ID has changed, with a port enabled before and since: the result is unpredictable (09 R302, 12 R449). -/
def State.idMoved (s t : State) : Bool := s.cul.used && t.cul.used && s.self != t.self

/-- The outcome of a step from s to t that writes no register unless a command that waited does. -/
def State.ended (s t : State) : Host.Outcome State Fault Refusal :=
  .next (if !s.tow.waiting.isEmpty && State.idMoved s t then t.upset else t)

/-- A command that acts whatever power the block has. -/
def State.does (f : State → State) (s : State) : Host.Outcome State Fault Refusal := s.ended (State.finish s (f s))

/-- A command that may write registers. -/
def State.writes (f : State → State) (s : State) : Host.Outcome State Fault Refusal :=
  if State.idMoved s (f s) then s.does (fun s => (f s).upset) else s.does f

/-- A command that acts only while the main domains have power. -/
def State.doesOn (f : State → State) (s : State) : Host.Outcome State Fault Refusal := if s.powered then s.does f else .next s

end Sys2Proof.Machine
end

