-- ==== Sys2Proof/Machine/Entry.lean ====
section
/-!
DEFINITION. Sys2Proof/Machine/Entry.lean: what the commands of one shape share: accesses of a register that name no transport, messages as they
arrive, power-fail recognition, and a tick of the age counter.
-/
namespace Sys2Proof.Machine

/-! Registers. -/

/-- A read of the register at an offset: its value leaves the block, and its RC fields are cleared (17 R563). -/
def State.readOut (o : Nat) (s : State) : State :=
  let (w, s) := s.regRead o
  s.onCore (Core.emit (.value o w))

/-- A write of the register at an offset. -/
def State.writeAt (o : Nat) (v : Word) (s : State) : State := (s.regWrite o v).2

/-- A register write by no named transport: offsets that are not a multiple of 8 name no register (17 R559). -/
def State.writeGeneric (o : Nat) (v : Word) (s : State) : State := if o % 8 = 0 then s.writeAt o v else s

/-! Messages of agents (18 R578, 08 R259). -/

/-- Whether a fabric port's domains are on, so that messages on it arrive. -/
def State.fabOn (s : State) (f : Nat) : Bool := s.powered && s.core.doms.getLsbD (66 + f)

/-- Whether a transaction of a local agent is outstanding with a TAG (08 R259): its entry has not been completed, its completion or data has
not left, or its request has not been taken. -/
def State.tagHeld (f : Fin 4) (h : Hdr) (s : State) : Bool :=
  let a := agentId s.self (agentLocal h.agent)
  let mine (k : Hdr) : Bool := k.agent = a && k.tag = h.tag
  let port := mget FabPort.reset s.core.fab f.val
  s.core.host.berths.any (fun b => mine b.h && b.port.isSome && !b.own && !b.posted && !b.discard) ||
  port.cmpQ.any (fun m => mine m.h) ||
  port.datQ.any (fun m => mine m.h && agentLocal m.h.peer = agentLocal h.agent) ||
  s.arrivals.any (fun x => match x with
    | .request g _ k => g = f && agentLocal k.agent = agentLocal h.agent && k.tag = h.tag
    | _ => false)

/-- A message on a fabric port. -/
def State.fabricArrive (f : Fin 4) (a : Arrival) (s : State) : Host.Outcome State Fault Refusal :=
  if s.fabOn f.val then s.does (State.arrive a) else .next s

/-! Messages of other instances (09 R284, R295). -/

/-- A message from a Culvert port that is ACTIVE: one for this instance is taken, another passes on. It takes no cells: those are the business
of FLIT and of TRANSIT_MESSAGE. -/
def State.culArrive (n : Fin 6) (c : CulMsg) (s : State) : State :=
  if (s.cport n.val).st != .active then s
  else if c.m.h.dsti = s.self || c.m.op = 0xC1 then s.arrive (.culvert n.val c)
  else s.culTransit n.val c

/-- A message on its own virtual channel, as the port's link layer delivers it. -/
def culIn (op : BitVec 8) (h : Hdr) (d : Option Beats) : CulMsg :=
  { culOwn ⟨op, h, d⟩ with vc := classVc ⟨op, h, d⟩, came := true }

/-- A message on a Culvert port. -/
def State.chipArrive (n : Fin 6) (op : BitVec 8) (h : Hdr) (d : Option Beats) (s : State) : Host.Outcome State Fault Refusal :=
  s.doesOn (State.culArrive n (culIn op h d))

/-- A request. A TAG that is outstanding is a breach of a duty, with an unpredictable result (08 R259). -/
def State.requestIn (op : BitVec 8) (src : Src) (h : Hdr) (s : State) : Host.Outcome State Fault Refusal :=
  match src with
  | .fabric f =>
    if s.fabOn f.val && s.core.agentOk f (agentLocal h.agent) && s.tagHeld f h then s.does (fun s => (s.arrive (.request f op h)).upset)
    else s.fabricArrive f (.request f op h)
  | .culvert n => s.chipArrive n op h none

/-- A response. -/
def State.responseIn (op : BitVec 8) (src : Src) (h : Hdr) (s : State) : Host.Outcome State Fault Refusal :=
  match src with
  | .fabric f => s.fabricArrive f (.response f op h)
  | .culvert n => s.chipArrive n op h none

/-- A data message. -/
def State.dataIn (op : BitVec 8) (src : Src) (h : Hdr) (d : Beats) (s : State) : Host.Outcome State Fault Refusal :=
  match src with
  | .fabric f => s.fabricArrive f (.data f op h d)
  | .culvert n => s.chipArrive n op h (some d)

/-- A message that passes through this instance (09 R295, R296), with the cells it takes. -/
def State.transitIn (n : Fin 6) (hops : Fin 4) (dl : Bool) (op : BitVec 8) (h : Hdr) (d : Option Beats) (s : State) : State :=
  if (s.cport n.val).st != .active then s
  else s.culTake n.val { culOwn ⟨op, h, d⟩ with vc := if dl then 9 else 8, hops := hops.val, dl := dl, came := true }

/-! Power failure (08 R270, 10 R355, 16 R547). -/

/-- PWR_FAIL_N is recognised low: the drain starts, pairs in PROOF re-join, and the Logbook marks the lines to drain. -/
def State.powerFail (s : State) : State :=
  let was := s.core.pf.hold
  let s := s.onCore Core.pfRecognise
  if was || !s.core.pf.hold then s
  else
    let s := s.onPwr (fun p => { p with gated := 0, wharfGated := false })
    let s := foldS (fun p s => if (s.gal p).split then s.galAbandon p else s) (List.range 18) s
    s.marker 0x09 s.core.pf.lines

/-! Presence (15 R523). -/

/-- A present agent that the locked charter lists and has not admitted: the result is unpredictable (15 R523). -/
def State.badPresence (l : BitVec 6) (up : Bool) (s : State) : Bool :=
  let a := agentId s.self l
  up && s.locked && s.core.defined l && s.core.listed a && !s.core.admitted a

/-- A presence bit is sampled while its agent is DEFINED (18 R581). -/
def State.presence (l : BitVec 6) (up : Bool) (s : State) : State := if s.core.defined l then s.onCore (Core.presenceChange l up) else s

/-! Interrupt inputs (13 R452). -/

/-- The level of a PL_IRQ_IN input changes. -/
def State.extChange (i : Nat) (up : Bool) (s : State) : State := s.onIrq (fun k => { k with ext := putBit k.ext i up })

/-! A tick (06 R198, 16 R531). -/

/-- Cycle counts of a slice in the four CLK_CORE cycles of a tick: cycles of its own clock and barges in use in each, or gated cycles (events
0x001, 0x006, 0x042). -/
def State.tickSlice (p : Nat) (s : State) : State :=
  if !s.core.doms.getLsbD (3 * p) || s.pwr.absent.getLsbD p then s
  else if s.clockGated p then s.onCore (Core.bump p 0x042 4)
  else
    let n := 4 / 2 ^ (s.gal p).div
    let s := (s.onSlice p (fun x => { x with clock := x.clock + n })).galTick p
    s.onCore (fun k => (k.bump p 0x001 n).bump p 0x006 (n * (s.slice p).barges.length))

/-- A port unit's clock has no ratio to CLK_CORE in the spec: how many of its cycles fall in a tick is open. -/
def State.tickPort (u : Nat) (s : State) : State :=
  let on : Bool := if u < 24 then decide (1 < (s.cport (u - 18)).st.code) else s.core.doms.getLsbD (66 + (u - 24))
  if !on then s
  else
    let (w, s) := s.freeWord
    let n := w.toNat % 4096
    let s := s.onCore (Core.bump u 0x001 n)
    if 24 ≤ u && u < 28 then
      let q := mget FabPort.reset s.core.fab (u - 24)
      if q.snpQ.isEmpty && q.datQ.isEmpty && q.cmpQ.isEmpty then s else s.onCore (Core.bump u 0x114 n)
    else if 28 ≤ u then
      s.onCore (Core.bump u 0x123 (n * (s.core.mem.reads.filter (fun r => r.port = u - 28 && r.tag.isSome)).length))
    else s

/-- AGE_NOW.TICK advances, four cycles of CLK_CORE after the last. -/
def State.ageTick (s : State) : State :=
  let s := s.onCore (fun k => { k with host := { k.host with tick := k.host.tick + 1 }, cycles := k.cycles + 4 })
  let s := foldS State.tickSlice (List.range 18) s
  let s := s.onCore (if s.pwr.wharfGated then Core.bump 32 0x205 4 else Core.bump 32 0x001 4)
  foldS State.tickPort ((List.range 14).map (fun i => 18 + i)) s

end Sys2Proof.Machine
end

