-- ==== Sys2Proof/Machine/CmdDomain.lean ====
section
/-!
DEFINITION. Sys2Proof/Machine/CmdDomain.lean: charter, discovery, Galley pairs, failover and service procedures, one meaning a command.
-/
namespace Sys2Proof.Machine

/-- COMMIT_REPORT (15 R509). -/
def execCommitReport (n : Fin 6) (h : Hdr) (s : State) : Host.Outcome State Fault Refusal := s.chipArrive n 0xD8 h none

/-- COMMIT_GO (15 R510). -/
def execCommitGo (n : Fin 6) (h : Hdr) (s : State) : Host.Outcome State Fault Refusal := s.chipArrive n 0xD9 h none

/-- COMMIT_ACK (15 R512). -/
def execCommitAck (n : Fin 6) (h : Hdr) (s : State) : Host.Outcome State Fault Refusal := s.chipArrive n 0xDA h none

/-- COMMIT_ALL (15 R512). -/
def execCommitAll (n : Fin 6) (h : Hdr) (s : State) : Host.Outcome State Fault Refusal := s.chipArrive n 0xDB h none

/-- COMMIT_REPORT_TIMEOUT (15 R509). -/
def execCommitReportTimeout (s : State) : Host.Outcome State Fault Refusal := s.doesOn (State.commitReportLimit)

/-- COMMIT_GO_TIMEOUT (15 R510). -/
def execCommitGoTimeout (s : State) : Host.Outcome State Fault Refusal := s.doesOn (State.commitGoLimit)

/-- HELLO_RESEND (15 R504). -/
def execHelloResend (s : State) : Host.Outcome State Fault Refusal := s.doesOn (State.helloResend)

/-- DISCOVER_QUIET_END (15 R504). -/
def execDiscoverQuietEnd (s : State) : Host.Outcome State Fault Refusal := s.doesOn (State.discQuiet)

/-- DISCOVER_LIMIT (15 R504). -/
def execDiscoverLimit (s : State) : Host.Outcome State Fault Refusal := s.doesOn (State.discLimit)

/-- GALLEY_WINDOW_CLOSE (10 R336). -/
def execGalleyWindowClose (p : Fin 18) (v : WinSeen) (s : State) : Host.Outcome State Fault Refusal :=
  s.doesOn (State.galWindow p.val v)

/-- REGISTER_SWEEP (10 R341). -/
def execRegisterSweep (p : Fin 18) (r : SweepSeen) (s : State) : Host.Outcome State Fault Refusal :=
  s.doesOn (fun s => (s.ungate p.val).galSweep p.val r)

/-- GALLEY_STALL (10 R334). -/
def execGalleyStall (p : Fin 18) (s : State) : Host.Outcome State Fault Refusal := s.doesOn (State.galStall p.val)

/-- QUIESCE_POINT (10 R349). -/
def execQuiescePoint (p : Fin 18) (s : State) : Host.Outcome State Fault Refusal := s.doesOn (State.quiesce p.val)

/-- PROOF_LIMIT_EXPIRY (10 R354). -/
def execProofLimitExpiry (p : Fin 18) (s : State) : Host.Outcome State Fault Refusal := s.doesOn (State.galLimit p.val)

/-- PROOF_FORCE_RESYNC (10 R352). -/
def execProofForceResync (p : Fin 18) (s : State) : Host.Outcome State Fault Refusal := s.doesOn (State.galForce p.val)

/-- IMAGE_VERIFY_DONE (10 R347). -/
def execImageVerifyDone (p : Fin 18) (sig : Bool) (s : State) : Host.Outcome State Fault Refusal :=
  s.doesOn (State.imageDone p.val sig)

/-- WAKING_COMPLETE (12 R419). -/
def execWakingComplete (p : Fin 18) (faults : List WayFault) (same : Bool) (s : State) : Host.Outcome State Fault Refusal :=
  s.doesOn (State.wakeEnd p.val faults same)

/-- DRAIN_COMPLETE (15 R516). -/
def execDrainComplete (p : Fin 18) (s : State) : Host.Outcome State Fault Refusal :=
  s.doesOn (State.drainComplete p.val)

/-- FAILOVER_SETTLE_DONE (11 R383). -/
def execFailoverSettleDone (l : Fin 16) (bad : List LineAddr) (s : State) : Host.Outcome State Fault Refusal :=
  s.doesOn (State.onCore (Core.settleDone l.val bad))

/-- FAILOVER_TAKEOVER (11 R383). -/
def execFailoverTakeover (l : Fin 16) (s : State) : Host.Outcome State Fault Refusal :=
  s.doesOn (State.onCore (Core.takeover l.val))

/-- AGENT_RETIRE_LIMIT (12 R429). -/
def execAgentRetireLimit (a : AgentId) (s : State) : Host.Outcome State Fault Refusal := s.doesOn (State.retireLimit a)

/-- AGENT_ADMIT_SWEEP_DONE (15 R525). -/
def execAgentAdmitSweepDone (a : AgentId) (s : State) : Host.Outcome State Fault Refusal := s.doesOn (State.admitDone a)

/-- OVERLAY_END (12 R438). -/
def execOverlayEnd (sig : Bool) (ok : Bool) (result : Word) (s : State) : Host.Outcome State Fault Refusal :=
  s.doesOn (State.overlayEnd sig ok result)

end Sys2Proof.Machine
end

