-- ==== Sys2Proof/Machine/CmdEngine.lean ====
section
/-!
DEFINITION. Sys2Proof/Machine/CmdEngine.lean: steps of the slices, the Wharf, the memory ports and the directory engines, one meaning a command.
-/
namespace Sys2Proof.Machine

/-- ADMISSION (06 R202), with an error that the read of the item finds in a half of the berth array (01 R44). -/
def execAdmission (p : Fin 18) (select : Bool) (read : CsRead) (err : Option HalfErr) (s : State) : Host.Outcome State Fault Refusal :=
  s.doesOn (State.admission p.val select read err)

/-- CHAMBER_HEAD (06 R206). -/
def execChamberHead (p : Fin 18) (line : LineAddr) (errs : List LookErr) (s : State) : Host.Outcome State Fault Refusal :=
  s.doesOn (State.onCore (Core.takes (Core.headStart p.val line errs)))

/-- SIMMER_EXPIRY (06 R213). -/
def execSimmerExpiry (p : Fin 18) (line : LineAddr) (t : Target) (s : State) : Host.Outcome State Fault Refusal :=
  s.doesOn (State.onCore (Core.takes (Core.simmerEnd p.val line t)))

/-- WHARF_GRANT (06 R204), with an error that the transfer finds in a half (01 R44). In a hold the Wharf carries the drain, and the messages that are passed on (08 R271, 09 R296). -/
def execWharfGrant (dst : Fin 32) (err : Option HalfErr) (s : State) : Host.Outcome State Fault Refusal :=
  s.doesOn (State.onCore (fun k => (if (k.wharfPick dst.val).isSome then k.halfErr 1 err else k).wharfGrant dst.val))

/-- STAMP_SWEEP (06 R199). -/
def execStampSweep (s : State) : Host.Outcome State Fault Refusal := s.doesOn (State.onCore (Core.sweep))

/-- MEM_READ_DATA (18 R584). -/
def execMemReadData (m : Fin 4) (tag : Tag) (d : LineData) (poison : Bool) (bad : BitVec 8) (s : State) : Host.Outcome State Fault Refusal :=
  s.doesOn (State.onCore (Core.memReadReturn m.val tag.toNat d poison bad))

/-- MEM_WACK (08 R262). -/
def execMemWack (m : Fin 4) (tag : Tag) (err : Bool) (s : State) : Host.Outcome State Fault Refusal :=
  s.doesOn (State.onCore (Core.memWackReturn m.val tag.toNat err))

/-- MEM_PACK (08 R262). -/
def execMemPack (m : Fin 4) (tag : Tag) (s : State) : Host.Outcome State Fault Refusal :=
  s.doesOn (State.onCore (Core.memPackReturn m.val tag.toNat))

/-- OVERFLOW_INSERT (05 R166). -/
def execOverflowInsert (p : Fin 18) (s : State) : Host.Outcome State Fault Refusal :=
  s.doesOn (State.onCore (Core.takes (Core.insertStart p.val)))

/-- SKILLET_BACKGROUND_WRITE (07 R242). -/
def execSkilletBackgroundWrite (p : Fin 18) (s : State) : Host.Outcome State Fault Refusal :=
  s.doesOn (State.onCore (Core.takes (Core.sklBackground p.val)))

/-- HOME_SIEVE_BACKGROUND_WB (05 R155). -/
def execHomeSieveBackgroundWb (p : Fin 18) (s : State) : Host.Outcome State Fault Refusal :=
  s.doesOn (State.onCore (Core.takes (Core.hsBackground p.val)))

/-- SIEVE_PATROL (05 R181). -/
def execSievePatrol (p : Fin 18) (errs : List PatrolErr) (s : State) : Host.Outcome State Fault Refusal :=
  if s.clockGated p.val then .next s else s.doesOn (State.onCore (Core.patrol p.val errs))

/-- SCRUB_BURST (05 R182). -/
def execScrubBurst (s : State) : Host.Outcome State Fault Refusal := s.doesOn (State.scrubAsk)

/-- CENSUS_REQ (05 R171). -/
def execCensusReq (n : Fin 6) (h : Hdr) (s : State) : Host.Outcome State Fault Refusal := s.chipArrive n 0xC2 h none

/-- CENSUS_WALK_PAGE (05 R171). -/
def execCensusWalkPage (chip : BitVec 6) (s : State) : Host.Outcome State Fault Refusal :=
  s.doesOn (State.onCore (Core.takes (Core.censusStep chip)))

/-- CREDIT (09 R299). -/
def execCredit (n : Fin 6) (h : Hdr) (s : State) : Host.Outcome State Fault Refusal := s.chipArrive n 0xC0 h none

/-- FABRIC_CREDIT_RETURN (18 R579). -/
def execFabricCreditReturn (f : Fin 4) (kind : Fin 3) (s : State) : Host.Outcome State Fault Refusal :=
  s.doesOn (State.onCore (if s.fabOn f.val then Core.fabricCredit f.val kind.val else id))

end Sys2Proof.Machine
end

