-- ==== Sys2Proof/Machine/CmdFault.lean ====
section
/-!
DEFINITION. Sys2Proof/Machine/CmdFault.lean: freeze, liveness and fault collection, one meaning a command.
-/
namespace Sys2Proof.Machine

/-- FRZ_PING (11 R392). -/
def execFrzPing (n : Fin 6) (h : Hdr) (s : State) : Host.Outcome State Fault Refusal := s.chipArrive n opFrzPing h none

/-- FRZ_PONG (11 R390). -/
def execFrzPong (n : Fin 6) (h : Hdr) (s : State) : Host.Outcome State Fault Refusal := s.chipArrive n opFrzPong h none

/-- FRZ_START (11 R394). -/
def execFrzStart (n : Fin 6) (h : Hdr) (s : State) : Host.Outcome State Fault Refusal :=
  s.chipArrive n opFrzStart h none

/-- FRZ_DEAD (11 R393). -/
def execFrzDead (n : Fin 6) (h : Hdr) (s : State) : Host.Outcome State Fault Refusal := s.chipArrive n opFrzDead h none

/-- FRZ_READY (11 R394). -/
def execFrzReady (n : Fin 6) (h : Hdr) (s : State) : Host.Outcome State Fault Refusal :=
  s.chipArrive n opFrzReady h none

/-- FRZ_THAW (11 R394). -/
def execFrzThaw (n : Fin 6) (h : Hdr) (s : State) : Host.Outcome State Fault Refusal := s.chipArrive n opFrzThaw h none

/-- SNOOP_TIMEOUT (11 R390). -/
def execSnoopTimeout (t : Target) (s : State) : Host.Outcome State Fault Refusal :=
  s.doesOn (State.onCore (Core.takes (Core.snoopTimeout t)))

/-- PING_TIMEOUT (11 R390). -/
def execPingTimeout (t : Target) (s : State) : Host.Outcome State Fault Refusal :=
  s.doesOn (State.onCore (Core.takes (Core.pingTimeout t)))

/-- HEARTBEAT_TIMEOUT (11 R390). -/
def execHeartbeatTimeout (l : BitVec 6) (s : State) : Host.Outcome State Fault Refusal :=
  s.doesOn (State.onCore (Core.heartbeatLost l))

/-- QUIET_PERIOD_END (11 R394). -/
def execQuietPeriodEnd (s : State) : Host.Outcome State Fault Refusal := s.doesOn (State.onCore (Core.quietEnd))

/-- THAW_WAIT_TIMEOUT (11 R394). -/
def execThawWaitTimeout (s : State) : Host.Outcome State Fault Refusal := s.doesOn (State.onCore (Core.thawWait))

/-- FREEZE_LATE (11 R397). -/
def execFreezeLate (s : State) : Host.Outcome State Fault Refusal := s.doesOn (State.onCore (Core.freezeLate))

/-- PRESENCE_CHANGE (18 R581). -/
def execPresenceChange (l : BitVec 6) (up : Bool) (s : State) : Host.Outcome State Fault Refusal :=
  s.doesOn (fun s => if s.badPresence l up then (s.presence l up).upset else s.presence l up)

/-- PING_ANSWER (11 R390). -/
def execPingAnswer (l : BitVec 6) (s : State) : Host.Outcome State Fault Refusal :=
  s.doesOn (State.onCore (Core.pingAnswer l))

/-- ESCALATION_EXPIRY (11 R367). -/
def execEscalationExpiry (k : Fin 16) (s : State) : Host.Outcome State Fault Refusal :=
  s.doesOn (State.onCore (Core.escExpiry k.val))

/-- COALESCE_WINDOW_CLOSE (11 R371). -/
def execCoalesceWindowClose (src : BitVec 11) (s : State) : Host.Outcome State Fault Refusal :=
  s.doesOn (State.onCore (Core.coalClose src.toNat))

/-- LOG_ENTRY_WRITE (11 R372). -/
def execLogEntryWrite (s : State) : Host.Outcome State Fault Refusal := s.doesOn (State.onCore (Core.logWrite))

/-- ERR_PULSE_END (11 R373). -/
def execErrPulseEnd (k : Fin 2) (s : State) : Host.Outcome State Fault Refusal :=
  s.doesOn (State.onCore (Core.pulseEnd k))

/-- LK_VOTE_MISMATCH (11 R358). -/
def execLkVoteMismatch (k : Fin 3) (s : State) : Host.Outcome State Fault Refusal :=
  s.doesOn (State.onCore (Core.lkMismatch k))

/-- HEARTBEAT_TOGGLE (18 R581). -/
def execHeartbeatToggle (l : BitVec 6) (s : State) : Host.Outcome State Fault Refusal :=
  s.doesOn (State.onCore (fun k => { k with host := { k.host with hb := k.host.hb ^^^ oneHot 64 l.toNat } }))

end Sys2Proof.Machine
end

