-- ==== Sys2Proof/Machine/CmdLink.lean ====
section
/-!
DEFINITION. Sys2Proof/Machine/CmdLink.lean: the Culvert, one meaning a command.
-/
namespace Sys2Proof.Machine

/-- FLIT (09 R285). -/
def execFlit (n : Fin 6) (words : List (List (BitVec 64))) (s : State) : Host.Outcome State Fault Refusal :=
  s.doesOn (State.flitIn n.val words)

/-- ACK_TO_EXPIRY (09 R285). -/
def execAckToExpiry (n : Fin 6) (rx : Bool) (s : State) : Host.Outcome State Fault Refusal := s.doesOn (State.ackTo n.val rx)

/-- ALIGNMENT_MARKER (09 R310). -/
def execAlignmentMarker (n : Fin 6) (words : List (List (BitVec 64))) (s : State) : Host.Outcome State Fault Refusal :=
  s.doesOn (State.alignment n.val words)

/-- SPARE_SWITCH_CODEWORD (09 R312). -/
def execSpareSwitchCodeword (n : Fin 6) (rx : Bool) (s : State) : Host.Outcome State Fault Refusal :=
  s.doesOn (State.switchCodeword n.val rx)

/-- SPARE_SWITCH_END (09 R313). -/
def execSpareSwitchEnd (n : Fin 6) (s : State) : Host.Outcome State Fault Refusal := s.doesOn (State.switchEnd n.val)

/-- LOSS_TIMER_EXPIRY (09 R316). -/
def execLossTimerExpiry (n : Fin 6) (s : State) : Host.Outcome State Fault Refusal := s.doesOn (State.lossTimer n.val)

/-- SALVAGE (09 R319). -/
def execSalvage (n : Fin 6) (h : Hdr) (d : Beats) (s : State) : Host.Outcome State Fault Refusal :=
  s.chipArrive n 0xC3 h (some d)

/-- FENCE (09 R319). -/
def execFence (n : Fin 6) (vc : Fin 10) (h : Hdr) (s : State) : Host.Outcome State Fault Refusal :=
  s.doesOn (State.culArrive n { culIn 0xC4 h none with vc := vc.val })

/-- FENCE_ACK (09 R319). -/
def execFenceAck (n : Fin 6) (h : Hdr) (s : State) : Host.Outcome State Fault Refusal := s.chipArrive n 0xC5 h none

/-- FENCE_LIMIT_EXPIRY (09 R319). -/
def execFenceLimitExpiry (port : Fin 8) (s : State) : Host.Outcome State Fault Refusal :=
  s.doesOn (State.fenceLimit port.val)

/-- TRANSIT_MESSAGE (09 R296). -/
def execTransitMessage (n : Fin 6) (hops : Fin 4) (dl : Bool) (op : BitVec 8) (h : Hdr) (d : Option Beats) (s : State) : Host.Outcome State Fault Refusal :=
  s.doesOn (State.transitIn n hops dl op h d)

/-- CULVERT_SEND (09 R290). -/
def execCulvertSend (n : Fin 6) (s : State) : Host.Outcome State Fault Refusal := s.doesOn (State.culSend n.val)

/-- HELLO (09 R300). -/
def execHello (n : Fin 6) (hops : Fin 4) (h : Hdr) (s : State) : Host.Outcome State Fault Refusal :=
  s.doesOn (State.culArrive n { culIn 0xC1 h none with hops := hops.val })

/-- SERDES_READY (09 R304). -/
def execSerdesReady (n : Fin 6) (signal lock : BitVec 18) (s : State) : Host.Outcome State Fault Refusal :=
  s.doesOn (State.serdesReady n.val signal lock)

/-- LANE_SIGNAL_CHANGE (09 R305). -/
def execLaneSignalChange (n : Fin 6) (lane : Fin 18) (signal lock : Bool) (s : State) : Host.Outcome State Fault Refusal :=
  s.doesOn (State.laneSignal n.val lane.val signal lock)

/-- TRAINING_ADVANCE (09 R303). -/
def execTrainingAdvance (n : Fin 6) (blocks : List TrainSeen) (late : BitVec 18) (sent : Nat) (s : State) : Host.Outcome State Fault Refusal :=
  s.doesOn (State.trainAdvance n.val blocks late sent)

/-- TRAINING_BUDGET_EXPIRY (09 R308). -/
def execTrainingBudgetExpiry (n : Fin 6) (s : State) : Host.Outcome State Fault Refusal :=
  s.doesOn (State.trainBudget n.val)

/-- TEST_WINDOW_END (09 R304). -/
def execTestWindowEnd (n : Fin 6) (errs : List (Fin 18 × Nat)) (bits : Nat) (s : State) : Host.Outcome State Fault Refusal :=
  s.doesOn (State.testEnd n.val errs bits)

/-- RETRAIN_TIMEOUT (09 R304). -/
def execRetrainTimeout (n : Fin 6) (s : State) : Host.Outcome State Fault Refusal :=
  s.doesOn (State.retrainTimeout n.val)

/-- IDLE_FLIT_SEND (09 R285). -/
def execIdleFlitSend (n : Fin 6) (s : State) : Host.Outcome State Fault Refusal := s.doesOn (State.culIdle n.val)

end Sys2Proof.Machine
end

