-- ==== Sys2Proof/Machine/CmdMsg.lean ====
section
/-!
DEFINITION. Sys2Proof/Machine/CmdMsg.lean: coherence messages, one meaning a command.
-/
namespace Sys2Proof.Machine

/-- RD_S (03 R101). -/
def execRdS (src : Src) (h : Hdr) (s : State) : Host.Outcome State Fault Refusal := s.requestIn opRdS src h

/-- RD_F (04 R125). -/
def execRdF (src : Src) (h : Hdr) (s : State) : Host.Outcome State Fault Refusal := s.requestIn opRdF src h

/-- RD_O (03 R101). -/
def execRdO (src : Src) (h : Hdr) (s : State) : Host.Outcome State Fault Refusal := s.requestIn opRdO src h

/-- UPG (04 R128). -/
def execUpg (src : Src) (h : Hdr) (s : State) : Host.Outcome State Fault Refusal := s.requestIn opUpg src h

/-- RD_NA (04 R129). -/
def execRdNa (src : Src) (h : Hdr) (s : State) : Host.Outcome State Fault Refusal := s.requestIn opRdNa src h

/-- WR_FULL (04 R133). -/
def execWrFull (src : Src) (h : Hdr) (s : State) : Host.Outcome State Fault Refusal := s.requestIn opWrFull src h

/-- WR_PART (04 R134). -/
def execWrPart (src : Src) (h : Hdr) (s : State) : Host.Outcome State Fault Refusal := s.requestIn opWrPart src h

/-- ATOM (07 R227). -/
def execAtom (src : Src) (h : Hdr) (s : State) : Host.Outcome State Fault Refusal := s.requestIn opAtom src h

/-- WB_D (04 R135). -/
def execWbD (src : Src) (h : Hdr) (s : State) : Host.Outcome State Fault Refusal := s.requestIn opWbD src h

/-- SETTLE (04 R136). -/
def execSettle (src : Src) (h : Hdr) (s : State) : Host.Outcome State Fault Refusal := s.requestIn opSettle src h

/-- UNDEFINED_MESSAGE (03 R94). -/
def execUndefinedMessage (f : Fin 4) (ch : Chan) (op : BitVec 8) (h : Hdr) (s : State) : Host.Outcome State Fault Refusal :=
  s.fabricArrive f (.undefined f ch op h)

/-- SNP_S (03 R107). -/
def execSnpS (n : Fin 6) (h : Hdr) (s : State) : Host.Outcome State Fault Refusal := s.chipArrive n opSnpS h none

/-- SNP_FS (03 R107). -/
def execSnpFs (n : Fin 6) (h : Hdr) (s : State) : Host.Outcome State Fault Refusal := s.chipArrive n opSnpFs h none

/-- SNP_FO (03 R107). -/
def execSnpFo (n : Fin 6) (h : Hdr) (s : State) : Host.Outcome State Fault Refusal := s.chipArrive n opSnpFo h none

/-- SNP_I (03 R107). -/
def execSnpI (n : Fin 6) (h : Hdr) (s : State) : Host.Outcome State Fault Refusal := s.chipArrive n opSnpI h none

/-- SNP_NA (03 R107). -/
def execSnpNa (n : Fin 6) (h : Hdr) (s : State) : Host.Outcome State Fault Refusal := s.chipArrive n opSnpNa h none

/-- SNP_Q (05 R175). -/
def execSnpQ (n : Fin 6) (h : Hdr) (s : State) : Host.Outcome State Fault Refusal := s.chipArrive n opSnpQ h none

/-- RSP_I (03 R103). -/
def execRspI (src : Src) (h : Hdr) (s : State) : Host.Outcome State Fault Refusal := s.responseIn opRspI src h

/-- RSP_S (03 R103). -/
def execRspS (src : Src) (h : Hdr) (s : State) : Host.Outcome State Fault Refusal := s.responseIn opRspS src h

/-- RSP_FWD (03 R108). -/
def execRspFwd (src : Src) (h : Hdr) (s : State) : Host.Outcome State Fault Refusal := s.responseIn opRspFwd src h

/-- RSP_D (04 R122). -/
def execRspD (src : Src) (h : Hdr) (s : State) : Host.Outcome State Fault Refusal := s.responseIn opRspD src h

/-- RSP_ABSENT (03 R103). -/
def execRspAbsent (src : Src) (h : Hdr) (s : State) : Host.Outcome State Fault Refusal := s.responseIn opRspAbsent src h

/-- RSP_WBX (03 R109). -/
def execRspWbx (src : Src) (h : Hdr) (s : State) : Host.Outcome State Fault Refusal := s.responseIn opRspWbx src h

/-- RSP_Q (05 R177). -/
def execRspQ (n : Fin 6) (h : Hdr) (s : State) : Host.Outcome State Fault Refusal := s.chipArrive n opRspQ h none

/-- DAT_S (04 R118). -/
def execDatS (src : Src) (h : Hdr) (d : Beats) (s : State) : Host.Outcome State Fault Refusal := s.dataIn opDatS src h d

/-- DAT_F (04 R118). -/
def execDatF (src : Src) (h : Hdr) (d : Beats) (s : State) : Host.Outcome State Fault Refusal := s.dataIn opDatF src h d

/-- DAT_E (04 R118). -/
def execDatE (src : Src) (h : Hdr) (d : Beats) (s : State) : Host.Outcome State Fault Refusal :=
  match src with
  | .fabric f => s.fabricArrive f (.undefined f .dat opDatE h)
  | .culvert n => s.chipArrive n opDatE h (some d)

/-- DAT_M (04 R122). -/
def execDatM (src : Src) (h : Hdr) (d : Beats) (s : State) : Host.Outcome State Fault Refusal := s.dataIn opDatM src h d

/-- DAT_NA (04 R119). -/
def execDatNa (src : Src) (h : Hdr) (d : Beats) (s : State) : Host.Outcome State Fault Refusal :=
  s.dataIn opDatNa src h d

/-- CMP (04 R118). -/
def execCmp (n : Fin 6) (h : Hdr) (s : State) : Host.Outcome State Fault Refusal := s.chipArrive n opCmp h none

/-- CMP_NEAR (07 R231). -/
def execCmpNear (n : Fin 6) (h : Hdr) (s : State) : Host.Outcome State Fault Refusal := s.chipArrive n opCmpNear h none

/-- CMP_ATOM (07 R225). -/
def execCmpAtom (n : Fin 6) (h : Hdr) (s : State) : Host.Outcome State Fault Refusal := s.chipArrive n opCmpAtom h none

/-- CMP_SETTLE (08 R264). -/
def execCmpSettle (n : Fin 6) (h : Hdr) (s : State) : Host.Outcome State Fault Refusal :=
  s.chipArrive n opCmpSettle h none

/-- CMP_TRAP (11 R375). -/
def execCmpTrap (n : Fin 6) (h : Hdr) (s : State) : Host.Outcome State Fault Refusal := s.chipArrive n opCmpTrap h none

/-- CMP_HALT (11 R375). -/
def execCmpHalt (n : Fin 6) (h : Hdr) (s : State) : Host.Outcome State Fault Refusal := s.chipArrive n opCmpHalt h none

/-- CMP_POISON (11 R375). -/
def execCmpPoison (n : Fin 6) (h : Hdr) (s : State) : Host.Outcome State Fault Refusal :=
  s.chipArrive n opCmpPoison h none

end Sys2Proof.Machine
end

