-- ==== Sys2Proof/Machine/CmdPort.lean ====
section
/-!
DEFINITION. Sys2Proof/Machine/CmdPort.lean: what arrives on the transports and the MMIO window, and a register write by no named transport, one meaning a command.
-/
namespace Sys2Proof.Machine

/-- STREAM_PACKET (12 R411). -/
def execStreamPacket (words : List Word) (s : State) : Host.Outcome State Fault Refusal :=
  s.writes (State.streamPacket words)

/-- DB_RING (12 R412). -/
def execDbRing (w : Fin 8) (s : State) : Host.Outcome State Fault Refusal := s.writes (State.ring w)

/-- TWO_WIRE_WRITE (12 R413). -/
def execTwoWireWrite (bytes : List (BitVec 8)) (s : State) : Host.Outcome State Fault Refusal :=
  s.writes (State.wireWrite bytes)

/-- TWO_WIRE_READ (12 R413). -/
def execTwoWireRead (n : Nat) (s : State) : Host.Outcome State Fault Refusal := s.does (State.wireRead n)

/-- TWO_WIRE_STRETCH_TIMEOUT (12 R413). -/
def execTwoWireStretchTimeout (s : State) : Host.Outcome State Fault Refusal := s.does State.wireTimeout

/-- TOW_RPL_CRD (18 R586). -/
def execTowRplCrd (s : State) : Host.Outcome State Fault Refusal := s.doesOn State.rplCredit

/-- MMIO_ACCESS (17 R572). -/
def execMmioAccess (f : Fin 4) (write : Bool) (size : BitVec 2) (off : BitVec 16) (wdata : Word) (id : BitVec 8) (s : State) : Host.Outcome State Fault Refusal :=
  s.writes (State.mmio f write size off wdata id)

/-- GENERIC_REGISTER_WRITE (00 R13). -/
def execGenericRegisterWrite (off : RegOff) (v : Word) (s : State) : Host.Outcome State Fault Refusal :=
  s.writes (State.writeGeneric off.toNat v)

end Sys2Proof.Machine
end

