-- ==== Sys2Proof/Machine/CmdPower.lean ====
section
/-!
DEFINITION. Sys2Proof/Machine/CmdPower.lean: power, clocks, leave and the test wrapper, one meaning a command.
-/
namespace Sys2Proof.Machine

/-- PWR_FAIL_RECOGNISE (08 R270). -/
def execPwrFailRecognise (s : State) : Host.Outcome State Fault Refusal := s.does (State.powerFail)

/-- DRAIN_LATE_TIMER (08 R275). -/
def execDrainLateTimer (s : State) : Host.Outcome State Fault Refusal := s.doesOn (State.onCore (Core.pfLate))

/-- PWR_GOOD_RISE (12 R416). -/
def execPwrGoodRise (s : State) : Host.Outcome State Fault Refusal := s.does (State.goodRise)

/-- PWR_GOOD_FALL (12 R416). -/
def execPwrGoodFall (s : State) : Host.Outcome State Fault Refusal := s.does (State.goodFall)

/-- ALWAYS_ON_SUPPLY_ON (12 R416). -/
def execAlwaysOnSupplyOn (straps : Straps) (good : Bool) (s : State) : Host.Outcome State Fault Refusal :=
  s.does (State.supplyOn straps good)

/-- ALWAYS_ON_SUPPLY_OFF (12 R416). -/
def execAlwaysOnSupplyOff (s : State) : Host.Outcome State Fault Refusal := s.does (State.supplyOff)

/-- INIT_SELFTEST_DONE (15 R499). -/
def execInitSelftestDone (r : SelfTest) (s : State) : Host.Outcome State Fault Refusal := s.doesOn (State.selftest r)

/-- PWR_LEAVE_GNT (14 R484). -/
def execPwrLeaveGnt (raced : Bool) (s : State) : Host.Outcome State Fault Refusal := s.doesOn (State.leaveGnt raced)

/-- LEAVE_WAIT_TIMEOUT (14 R486). -/
def execLeaveWaitTimeout (s : State) : Host.Outcome State Fault Refusal := s.doesOn (State.leaveLate)

/-- GNT_STUCK_TIMEOUT (14 R486). -/
def execGntStuckTimeout (s : State) : Host.Outcome State Fault Refusal := s.doesOn (State.gntStuck)

/-- DOMAIN_REGULATION (14 R482). -/
def execDomainRegulation (d : Fin 80) (s : State) : Host.Outcome State Fault Refusal := s.does (State.domainOn d.val)

/-- IDLE_GATE_CLOSE (14 R474). -/
def execIdleGateClose (g : Option (Fin 18)) (s : State) : Host.Outcome State Fault Refusal :=
  s.doesOn (State.gateClose g)

/-- CLOCK_ABSENT (14 R492). -/
def execClockAbsent (d : Fin 40) (s : State) : Host.Outcome State Fault Refusal := s.doesOn (State.clockAbsent d.val)

/-- WAKE_SLOT_FIRE (13 R468). -/
def execWakeSlotFire (k : Fin 16) (s : State) : Host.Outcome State Fault Refusal := s.does (State.wakeFire k.val)

/-- CLOCK_RETURN (14 R492). -/
def execClockReturn (d : Fin 40) (s : State) : Host.Outcome State Fault Refusal := s.doesOn (State.clockReturn d.val)

/-- PWR_FAIL_N_RISE (08 R270). -/
def execPwrFailNRise (s : State) : Host.Outcome State Fault Refusal :=
  s.does (State.onCore (fun k => { k with pf := { k.pf with failHigh := true } }))

/-- PWR_LEAVE_GNT_FALL (14 R484). -/
def execPwrLeaveGntFall (early : Bool) (s : State) : Host.Outcome State Fault Refusal := s.doesOn (State.gntFall early)

/-- WRAPPER_UPDATE (18 R590). -/
def execWrapperUpdate (ir : BitVec 5) (s : State) : Host.Outcome State Fault Refusal := s.doesOn (State.wrapper ir)

/-- WRAPPER_RESET (18 R590). -/
def execWrapperReset (s : State) : Host.Outcome State Fault Refusal := s.doesOn (State.wrapperReset)

/-- DOMAIN_POWER_REMOVED (14 R482). -/
def execDomainPowerRemoved (d : Fin 80) (s : State) : Host.Outcome State Fault Refusal := s.does (State.domainOff d.val)

end Sys2Proof.Machine
end

