-- ==== Sys2Proof/Machine/CmdReg.lean ====
section
/-!
DEFINITION. Sys2Proof/Machine/CmdReg.lean: accesses of registers that do more than set fields, one meaning a command.
-/
namespace Sys2Proof.Machine

/-- IRQ_CLAIM (13 R460). -/
def execIrqClaim (t : Fin 8) (s : State) : Host.Outcome State Fault Refusal :=
  s.doesOn (State.readOut (0x10C20 + t.val * 0x40))

/-- IRQ_EOI (13 R461). -/
def execIrqEoi (t : Fin 8) (v : Word) (s : State) : Host.Outcome State Fault Refusal :=
  s.writes (State.writeAt (0x10C28 + t.val * 0x40) v)

/-- IRQ_RAISE_PUSH (13 R462). -/
def execIrqRaisePush (t : Fin 8) (v : Word) (s : State) : Host.Outcome State Fault Refusal :=
  s.writes (State.writeAt (0x10C30 + t.val * 0x40) v)

/-- IRQ_PEND_WRITE (13 R467). -/
def execIrqPendWrite (k : Fin 4) (v : Word) (s : State) : Host.Outcome State Fault Refusal :=
  s.writes (State.writeAt (0x10820 + k.val * 8) v)

/-- IRQ_COUNT_READ (13 R454). -/
def execIrqCountRead (k : Fin 32) (s : State) : Host.Outcome State Fault Refusal :=
  s.doesOn (State.readOut (0x10900 + k.val * 8))

/-- FLT_STAT_READ (11 R372). -/
def execFltStatRead (s : State) : Host.Outcome State Fault Refusal := s.doesOn (State.readOut 0x20418)

/-- FRZ_STAT_READ (11 R397). -/
def execFrzStatRead (s : State) : Host.Outcome State Fault Refusal := s.doesOn (State.readOut 0x20608)

/-- FO_STAT_READ (11 R389). -/
def execFoStatRead (s : State) : Host.Outcome State Fault Refusal := s.doesOn (State.readOut 0x20808)

/-- PWR_LEAVE_STAT_READ (14 R486). -/
def execPwrLeaveStatRead (s : State) : Host.Outcome State Fault Refusal := s.doesOn (State.readOut 0x30028)

/-- DUMP_STAT_READ (16 R540). -/
def execDumpStatRead (s : State) : Host.Outcome State Fault Refusal := s.doesOn (State.readOut 0x42210)

/-- LOG_STAT_READ (16 R548). -/
def execLogStatRead (s : State) : Host.Outcome State Fault Refusal := s.doesOn (State.readOut 0x43020)

/-- GATE_STAT_READ (16 R553). -/
def execGateStatRead (e : Fin 6) (s : State) : Host.Outcome State Fault Refusal :=
  s.doesOn (State.readOut (0x44008 + e.val * 0x200))

/-- CUL_CNT_READ (09 R310). -/
def execCulCntRead (n : Fin 6) (s : State) : Host.Outcome State Fault Refusal :=
  s.doesOn (State.readOut (0x80048 + n.val * 0x10000))

/-- CUL_LERR_READ (09 R310). -/
def execCulLerrRead (n : Fin 6) (k : Fin 18) (s : State) : Host.Outcome State Fault Refusal :=
  s.doesOn (State.readOut (0x80100 + k.val * 8 + n.val * 0x10000))

/-- GAL_CNT_READ (10 R356). -/
def execGalCntRead (p : Fin 18) (s : State) : Host.Outcome State Fault Refusal :=
  s.doesOn (State.readOut (0x100A20 + p.val * 0x10000))

/-- FLT_ACK_WRITE (11 R366). -/
def execFltAckWrite (v : Word) (s : State) : Host.Outcome State Fault Refusal := s.writes (State.writeAt 0x20408 v)

/-- FLT_PTR_RD_WRITE (11 R370). -/
def execFltPtrRdWrite (v : Word) (s : State) : Host.Outcome State Fault Refusal := s.writes (State.writeAt 0x20410 v)

/-- ERR_OUT_RELEASE (11 R373). -/
def execErrOutRelease (v : Word) (s : State) : Host.Outcome State Fault Refusal := s.writes (State.writeAt 0x20440 v)

/-- GAL_INJECT_GO (10 R342). -/
def execGalInjectGo (p : Fin 18) (v : Word) (s : State) : Host.Outcome State Fault Refusal :=
  s.writes (State.writeAt (0x100A28 + p.val * 0x10000) v)

/-- SIEVE_REMAP_WRITE (05 R185). -/
def execSieveRemapWrite (p : Fin 18) (k : Fin 16) (v : Word) (s : State) : Host.Outcome State Fault Refusal :=
  s.writes (State.writeAt (0x100800 + k.val * 8 + p.val * 0x10000) v)

/-- CNT_VAL_WRITE (16 R535). -/
def execCntValWrite (c : Fin 408) (v : Word) (s : State) : Host.Outcome State Fault Refusal :=
  s.writes (State.writeAt (0x40000 + c.val * 8) v)

/-- LOG_PTR_RD_WRITE (16 R545). -/
def execLogPtrRdWrite (v : Word) (s : State) : Host.Outcome State Fault Refusal := s.writes (State.writeAt 0x43008 v)

/-- LOG_MEM_RD_WRITE (16 R546). -/
def execLogMemRdWrite (v : Word) (s : State) : Host.Outcome State Fault Refusal := s.writes (State.writeAt 0x43018 v)

/-- GATE_PAUSE_WRITE (16 R556). -/
def execGatePauseWrite (e : Fin 6) (v : Word) (s : State) : Host.Outcome State Fault Refusal :=
  s.writes (State.writeAt (0x44000 + e.val * 0x200) v)

/-- GATE_UPDATE_WRITE (16 R557). -/
def execGateUpdateWrite (e : Fin 6) (v : Word) (s : State) : Host.Outcome State Fault Refusal :=
  s.writes (State.writeAt (0x44000 + e.val * 0x200) v)

/-- CLK_SLICE_DIV_WRITE (14 R491). -/
def execClkSliceDivWrite (p : Fin 18) (v : Word) (s : State) : Host.Outcome State Fault Refusal :=
  s.writes (State.writeAt (0x30200 + p.val * 8) v)

/-- PL_CTL_WAKE (14 R481). -/
def execPlCtlWake (v : Word) (s : State) : Host.Outcome State Fault Refusal := s.writes (State.writeAt 0x30508 v)

/-- CUL_ENABLE_WRITE (09 R302). -/
def execCulEnableWrite (n : Fin 6) (v : Word) (s : State) : Host.Outcome State Fault Refusal :=
  s.writes (State.writeAt (0x80000 + n.val * 0x10000) v)

/-- CUL_DISABLE_WRITE (09 R304). -/
def execCulDisableWrite (n : Fin 6) (v : Word) (s : State) : Host.Outcome State Fault Refusal :=
  s.writes (State.writeAt (0x80000 + n.val * 0x10000) v)

end Sys2Proof.Machine
end

