-- ==== Sys2Proof/Machine/CmdTow.lean ====
section
/-!
DEFINITION. Sys2Proof/Machine/CmdTow.lean: the commands that Towpath packets carry, one meaning a command.
-/
namespace Sys2Proof.Machine

/-- NOP (12 R420). -/
def execNop (c : TowCmd) (s : State) : Host.Outcome State Fault Refusal := s.does (State.towRow rowNop c)

/-- IDENTIFY (12 R421). -/
def execIdentify (c : TowCmd) (s : State) : Host.Outcome State Fault Refusal := s.does (State.towRow rowIdentify c)

/-- TAG_QUERY (12 R422). -/
def execTagQuery (c : TowCmd) (s : State) : Host.Outcome State Fault Refusal := s.does (State.towRow rowTagQuery c)

/-- TRANSPORT_RESET (12 R423). -/
def execTransportReset (c : TowCmd) (s : State) : Host.Outcome State Fault Refusal :=
  s.does (State.towRow rowTransportReset c)

/-- REG_READ (12 R424). -/
def execRegRead (c : TowCmd) (s : State) : Host.Outcome State Fault Refusal := s.does (State.towRow rowRegRead c)

/-- REG_WRITE (12 R418). -/
def execRegWrite (c : TowCmd) (s : State) : Host.Outcome State Fault Refusal := s.writes (State.towRow rowRegWrite c)

/-- REG_READ_BLOCK (12 R424). -/
def execRegReadBlock (c : TowCmd) (s : State) : Host.Outcome State Fault Refusal :=
  s.does (State.towRow rowRegReadBlock c)

/-- REG_WRITE_MASKED (12 R424). -/
def execRegWriteMasked (c : TowCmd) (s : State) : Host.Outcome State Fault Refusal :=
  s.writes (State.towRow rowRegWriteMasked c)

/-- CHARTER_LOAD (12 R426). -/
def execCharterLoad (c : TowCmd) (s : State) : Host.Outcome State Fault Refusal :=
  s.writes (State.towRow rowCharterLoad c)

/-- CHARTER_CHECK (12 R430). -/
def execCharterCheck (c : TowCmd) (s : State) : Host.Outcome State Fault Refusal :=
  s.does (State.towRow rowCharterCheck c)

/-- CHARTER_COMMIT (12 R431). -/
def execCharterCommit (c : TowCmd) (s : State) : Host.Outcome State Fault Refusal :=
  s.does (State.towRow rowCharterCommit c)

/-- CHARTER_RELEASE (12 R599). -/
def execCharterRelease (c : TowCmd) (s : State) : Host.Outcome State Fault Refusal :=
  s.does (State.towRow rowCharterRelease c)

/-- DISCOVER (15 R504). -/
def execDiscover (c : TowCmd) (s : State) : Host.Outcome State Fault Refusal := s.does (State.towRow rowDiscover c)

/-- GEN_ADVANCE (05 R146). -/
def execGenAdvance (c : TowCmd) (s : State) : Host.Outcome State Fault Refusal := s.does (State.towRow rowGenAdvance c)

/-- SERVICE_ENTER (12 R428). -/
def execServiceEnter (c : TowCmd) (s : State) : Host.Outcome State Fault Refusal :=
  s.does (State.towRow rowServiceEnter c)

/-- AGENT_ADMIT (12 R429). -/
def execAgentAdmit (c : TowCmd) (s : State) : Host.Outcome State Fault Refusal := s.does (State.towRow rowAgentAdmit c)

/-- AGENT_RETIRE (12 R429). -/
def execAgentRetire (c : TowCmd) (s : State) : Host.Outcome State Fault Refusal :=
  s.does (State.towRow rowAgentRetire c)

/-- SLICE_POWER (12 R433). -/
def execSlicePower (c : TowCmd) (s : State) : Host.Outcome State Fault Refusal := s.does (State.towRow rowSlicePower c)

/-- SLICE_SPARE (12 R419). -/
def execSliceSpare (c : TowCmd) (s : State) : Host.Outcome State Fault Refusal := s.does (State.towRow rowSliceSpare c)

/-- SLICE_SERVE (15 R501). -/
def execSliceServe (c : TowCmd) (s : State) : Host.Outcome State Fault Refusal := s.does (State.towRow rowSliceServe c)

/-- SLICE_DRAIN (15 R516). -/
def execSliceDrain (c : TowCmd) (s : State) : Host.Outcome State Fault Refusal := s.does (State.towRow rowSliceDrain c)

/-- SLICE_SWAP (15 R518). -/
def execSliceSwap (c : TowCmd) (s : State) : Host.Outcome State Fault Refusal := s.does (State.towRow rowSliceSwap c)

/-- SLICE_FAILOVER (12 R436). -/
def execSliceFailover (c : TowCmd) (s : State) : Host.Outcome State Fault Refusal :=
  s.does (State.towRow rowSliceFailover c)

/-- LS_REBUILD (12 R436). -/
def execLsRebuild (c : TowCmd) (s : State) : Host.Outcome State Fault Refusal := s.does (State.towRow rowLsRebuild c)

/-- MC_LOAD_OPEN (10 R347). -/
def execMcLoadOpen (c : TowCmd) (s : State) : Host.Outcome State Fault Refusal := s.does (State.towRow rowMcLoadOpen c)

/-- MC_LOAD_DATA (10 R347). -/
def execMcLoadData (c : TowCmd) (s : State) : Host.Outcome State Fault Refusal := s.does (State.towRow rowMcLoadData c)

/-- MC_LOAD_CLOSE (10 R347). -/
def execMcLoadClose (c : TowCmd) (s : State) : Host.Outcome State Fault Refusal :=
  s.does (State.towRow rowMcLoadClose c)

/-- MC_ACTIVATE (10 R350). -/
def execMcActivate (c : TowCmd) (s : State) : Host.Outcome State Fault Refusal := s.does (State.towRow rowMcActivate c)

/-- MC_PROOF_START (10 R351). -/
def execMcProofStart (c : TowCmd) (s : State) : Host.Outcome State Fault Refusal :=
  s.does (State.towRow rowMcProofStart c)

/-- MC_PROOF_END (10 R354). -/
def execMcProofEnd (c : TowCmd) (s : State) : Host.Outcome State Fault Refusal := s.does (State.towRow rowMcProofEnd c)

/-- MC_PROOF_LOG_READ (10 R353). -/
def execMcProofLogRead (c : TowCmd) (s : State) : Host.Outcome State Fault Refusal :=
  s.does (State.towRow rowMcProofLogRead c)

/-- MC_DISCARD (12 R438). -/
def execMcDiscard (c : TowCmd) (s : State) : Host.Outcome State Fault Refusal := s.does (State.towRow rowMcDiscard c)

/-- LK_OVERLAY (12 R438). -/
def execLkOverlay (c : TowCmd) (s : State) : Host.Outcome State Fault Refusal := s.does (State.towRow rowLkOverlay c)

/-- DIR_DUMP (12 R439). -/
def execDirDump (c : TowCmd) (s : State) : Host.Outcome State Fault Refusal := s.does (State.towRow rowDirDump c)

/-- DIR_REBUILD (12 R440). -/
def execDirRebuild (c : TowCmd) (s : State) : Host.Outcome State Fault Refusal := s.does (State.towRow rowDirRebuild c)

/-- LARDER_READ (12 R440). -/
def execLarderRead (c : TowCmd) (s : State) : Host.Outcome State Fault Refusal := s.does (State.towRow rowLarderRead c)

/-- MAINT_ADDR (07 R247). -/
def execMaintAddr (c : TowCmd) (s : State) : Host.Outcome State Fault Refusal := s.does (State.towRow rowMaintAddr c)

/-- MAINT_ENTRY (07 R248). -/
def execMaintEntry (c : TowCmd) (s : State) : Host.Outcome State Fault Refusal := s.does (State.towRow rowMaintEntry c)

/-- CUL_RETRAIN (12 R442). -/
def execCulRetrain (c : TowCmd) (s : State) : Host.Outcome State Fault Refusal := s.does (State.towRow rowCulRetrain c)

/-- CUL_SPARE (12 R442). -/
def execCulSpare (c : TowCmd) (s : State) : Host.Outcome State Fault Refusal := s.does (State.towRow rowCulSpare c)

/-- CUL_ROUTE_RETURN (09 R322). -/
def execCulRouteReturn (c : TowCmd) (s : State) : Host.Outcome State Fault Refusal :=
  s.does (State.towRow rowCulRouteReturn c)

/-- CUL_STATUS (12 R443). -/
def execCulStatus (c : TowCmd) (s : State) : Host.Outcome State Fault Refusal := s.does (State.towRow rowCulStatus c)

/-- PWR_TRIM (12 R444). -/
def execPwrTrim (c : TowCmd) (s : State) : Host.Outcome State Fault Refusal := s.does (State.towRow rowPwrTrim c)

/-- PWR_IDLE (14 R474). -/
def execPwrIdle (c : TowCmd) (s : State) : Host.Outcome State Fault Refusal := s.does (State.towRow rowPwrIdle c)

/-- PWR_DEEP (14 R480). -/
def execPwrDeep (c : TowCmd) (s : State) : Host.Outcome State Fault Refusal := s.does (State.towRow rowPwrDeep c)

/-- PWR_HALF (12 R444). -/
def execPwrHalf (c : TowCmd) (s : State) : Host.Outcome State Fault Refusal := s.does (State.towRow rowPwrHalf c)

/-- PF_RELEASE (08 R274). -/
def execPfRelease (c : TowCmd) (s : State) : Host.Outcome State Fault Refusal := s.does (State.towRow rowPfRelease c)

/-- PORT_POWER (12 R445). -/
def execPortPower (c : TowCmd) (s : State) : Host.Outcome State Fault Refusal := s.does (State.towRow rowPortPower c)

/-- CNT_READ (12 R446). -/
def execCntRead (c : TowCmd) (s : State) : Host.Outcome State Fault Refusal := s.does (State.towRow rowCntRead c)

/-- LOGBOOK_READ (12 R446). -/
def execLogbookRead (c : TowCmd) (s : State) : Host.Outcome State Fault Refusal :=
  s.does (State.towRow rowLogbookRead c)

/-- DUMP_NOW (16 R538). -/
def execDumpNow (c : TowCmd) (s : State) : Host.Outcome State Fault Refusal := s.does (State.towRow rowDumpNow c)

/-- LOG_READ (12 R447). -/
def execLogRead (c : TowCmd) (s : State) : Host.Outcome State Fault Refusal := s.does (State.towRow rowLogRead c)

/-- FLT_INJECT (12 R448). -/
def execFltInject (c : TowCmd) (s : State) : Host.Outcome State Fault Refusal := s.does (State.towRow rowFltInject c)

/-- SEAL_BLOCK (12 R448). -/
def execSealBlock (c : TowCmd) (s : State) : Host.Outcome State Fault Refusal := s.does (State.towRow rowSealBlock c)

end Sys2Proof.Machine
end

