-- ==== Sys2Proof/Machine/CmdWatch.lean ====
section
/-!
DEFINITION. Sys2Proof/Machine/CmdWatch.lean: the interrupt inputs and messages, counters and the Logbook, one meaning a command.
-/
namespace Sys2Proof.Machine

/-- EXT_INPUT_CHANGE (13 R451). -/
def execExtInputChange (i : Fin 16) (up : Bool) (s : State) : Host.Outcome State Fault Refusal :=
  s.does (State.extChange i.val up)

/-- HOLDOFF_EXPIRY (13 R465). -/
def execHoldoffExpiry (g : Fin 16) (s : State) : Host.Outcome State Fault Refusal := s.doesOn (State.holdoffEnd g.val)

/-- IMSG_RESEND_EXPIRY (13 R458). -/
def execImsgResendExpiry (t : Fin 8) (s : State) : Host.Outcome State Fault Refusal := s.doesOn (State.imsgResend t.val)

/-- IMSG_READY (18 R582). -/
def execImsgReady (f : Fin 4) (s : State) : Host.Outcome State Fault Refusal := s.doesOn (State.imsgTaken f.val)

/-- DUMP_PERIOD_EXPIRY (16 R538). -/
def execDumpPeriodExpiry (s : State) : Host.Outcome State Fault Refusal := s.doesOn (State.dumpPeriod)

/-- LOGBOOK_SPILL (16 R546). -/
def execLogbookSpill (s : State) : Host.Outcome State Fault Refusal := s.doesOn (State.logSpillRun)

/-- AGE_TICK (06 R198). -/
def execAgeTick (s : State) : Host.Outcome State Fault Refusal := s.doesOn (State.ageTick)

/-- COUNTER_MC_UPDATE (16 R531). -/
def execCounterMcUpdate (s : State) : Host.Outcome State Fault Refusal := s.doesOn (State.cntUpdate)

/-- TRACE_RECORD_WRITE (16 R544). -/
def execTraceRecordWrite (s : State) : Host.Outcome State Fault Refusal := s.doesOn (State.traceWrite)

end Sys2Proof.Machine
end

