-- ==== Sys2Proof/Machine/Dispatch.lean ====
section
/-!
DEFINITION. Sys2Proof/Machine/Dispatch.lean: the meaning of each command.
-/
namespace Sys2Proof.Machine

/-- A command's effect on everything but the queue. -/
def exec (i : Instr) (s : State) : Host.Outcome State Fault Refusal :=
  match i with
  | .nop c => Sys2Proof.Machine.execNop c s
  | .identify c => Sys2Proof.Machine.execIdentify c s
  | .tagQuery c => Sys2Proof.Machine.execTagQuery c s
  | .transportReset c => Sys2Proof.Machine.execTransportReset c s
  | .regRead c => Sys2Proof.Machine.execRegRead c s
  | .regWrite c => Sys2Proof.Machine.execRegWrite c s
  | .regReadBlock c => Sys2Proof.Machine.execRegReadBlock c s
  | .regWriteMasked c => Sys2Proof.Machine.execRegWriteMasked c s
  | .charterLoad c => Sys2Proof.Machine.execCharterLoad c s
  | .charterCheck c => Sys2Proof.Machine.execCharterCheck c s
  | .charterCommit c => Sys2Proof.Machine.execCharterCommit c s
  | .charterRelease c => Sys2Proof.Machine.execCharterRelease c s
  | .discover c => Sys2Proof.Machine.execDiscover c s
  | .genAdvance c => Sys2Proof.Machine.execGenAdvance c s
  | .serviceEnter c => Sys2Proof.Machine.execServiceEnter c s
  | .agentAdmit c => Sys2Proof.Machine.execAgentAdmit c s
  | .agentRetire c => Sys2Proof.Machine.execAgentRetire c s
  | .slicePower c => Sys2Proof.Machine.execSlicePower c s
  | .sliceSpare c => Sys2Proof.Machine.execSliceSpare c s
  | .sliceServe c => Sys2Proof.Machine.execSliceServe c s
  | .sliceDrain c => Sys2Proof.Machine.execSliceDrain c s
  | .sliceSwap c => Sys2Proof.Machine.execSliceSwap c s
  | .sliceFailover c => Sys2Proof.Machine.execSliceFailover c s
  | .lsRebuild c => Sys2Proof.Machine.execLsRebuild c s
  | .mcLoadOpen c => Sys2Proof.Machine.execMcLoadOpen c s
  | .mcLoadData c => Sys2Proof.Machine.execMcLoadData c s
  | .mcLoadClose c => Sys2Proof.Machine.execMcLoadClose c s
  | .mcActivate c => Sys2Proof.Machine.execMcActivate c s
  | .mcProofStart c => Sys2Proof.Machine.execMcProofStart c s
  | .mcProofEnd c => Sys2Proof.Machine.execMcProofEnd c s
  | .mcProofLogRead c => Sys2Proof.Machine.execMcProofLogRead c s
  | .mcDiscard c => Sys2Proof.Machine.execMcDiscard c s
  | .lkOverlay c => Sys2Proof.Machine.execLkOverlay c s
  | .dirDump c => Sys2Proof.Machine.execDirDump c s
  | .dirRebuild c => Sys2Proof.Machine.execDirRebuild c s
  | .larderRead c => Sys2Proof.Machine.execLarderRead c s
  | .maintAddr c => Sys2Proof.Machine.execMaintAddr c s
  | .maintEntry c => Sys2Proof.Machine.execMaintEntry c s
  | .culRetrain c => Sys2Proof.Machine.execCulRetrain c s
  | .culSpare c => Sys2Proof.Machine.execCulSpare c s
  | .culRouteReturn c => Sys2Proof.Machine.execCulRouteReturn c s
  | .culStatus c => Sys2Proof.Machine.execCulStatus c s
  | .pwrTrim c => Sys2Proof.Machine.execPwrTrim c s
  | .pwrIdle c => Sys2Proof.Machine.execPwrIdle c s
  | .pwrDeep c => Sys2Proof.Machine.execPwrDeep c s
  | .pwrHalf c => Sys2Proof.Machine.execPwrHalf c s
  | .pfRelease c => Sys2Proof.Machine.execPfRelease c s
  | .portPower c => Sys2Proof.Machine.execPortPower c s
  | .cntRead c => Sys2Proof.Machine.execCntRead c s
  | .logbookRead c => Sys2Proof.Machine.execLogbookRead c s
  | .dumpNow c => Sys2Proof.Machine.execDumpNow c s
  | .logRead c => Sys2Proof.Machine.execLogRead c s
  | .fltInject c => Sys2Proof.Machine.execFltInject c s
  | .sealBlock c => Sys2Proof.Machine.execSealBlock c s
  | .streamPacket words => Sys2Proof.Machine.execStreamPacket words s
  | .dbRing w => Sys2Proof.Machine.execDbRing w s
  | .twoWireWrite bytes => Sys2Proof.Machine.execTwoWireWrite bytes s
  | .twoWireRead n => Sys2Proof.Machine.execTwoWireRead n s
  | .twoWireStretchTimeout => Sys2Proof.Machine.execTwoWireStretchTimeout s
  | .towRplCrd => Sys2Proof.Machine.execTowRplCrd s
  | .mmioAccess f write size off wdata id => Sys2Proof.Machine.execMmioAccess f write size off wdata id s
  | .genericRegisterWrite off v => Sys2Proof.Machine.execGenericRegisterWrite off v s
  | .irqClaim t => Sys2Proof.Machine.execIrqClaim t s
  | .irqEoi t v => Sys2Proof.Machine.execIrqEoi t v s
  | .irqRaisePush t v => Sys2Proof.Machine.execIrqRaisePush t v s
  | .irqPendWrite k v => Sys2Proof.Machine.execIrqPendWrite k v s
  | .irqCountRead k => Sys2Proof.Machine.execIrqCountRead k s
  | .fltStatRead => Sys2Proof.Machine.execFltStatRead s
  | .frzStatRead => Sys2Proof.Machine.execFrzStatRead s
  | .foStatRead => Sys2Proof.Machine.execFoStatRead s
  | .pwrLeaveStatRead => Sys2Proof.Machine.execPwrLeaveStatRead s
  | .dumpStatRead => Sys2Proof.Machine.execDumpStatRead s
  | .logStatRead => Sys2Proof.Machine.execLogStatRead s
  | .gateStatRead e => Sys2Proof.Machine.execGateStatRead e s
  | .culCntRead n => Sys2Proof.Machine.execCulCntRead n s
  | .culLerrRead n k => Sys2Proof.Machine.execCulLerrRead n k s
  | .galCntRead p => Sys2Proof.Machine.execGalCntRead p s
  | .fltAckWrite v => Sys2Proof.Machine.execFltAckWrite v s
  | .fltPtrRdWrite v => Sys2Proof.Machine.execFltPtrRdWrite v s
  | .errOutRelease v => Sys2Proof.Machine.execErrOutRelease v s
  | .galInjectGo p v => Sys2Proof.Machine.execGalInjectGo p v s
  | .sieveRemapWrite p k v => Sys2Proof.Machine.execSieveRemapWrite p k v s
  | .cntValWrite c v => Sys2Proof.Machine.execCntValWrite c v s
  | .logPtrRdWrite v => Sys2Proof.Machine.execLogPtrRdWrite v s
  | .logMemRdWrite v => Sys2Proof.Machine.execLogMemRdWrite v s
  | .gatePauseWrite e v => Sys2Proof.Machine.execGatePauseWrite e v s
  | .gateUpdateWrite e v => Sys2Proof.Machine.execGateUpdateWrite e v s
  | .clkSliceDivWrite p v => Sys2Proof.Machine.execClkSliceDivWrite p v s
  | .plCtlWake v => Sys2Proof.Machine.execPlCtlWake v s
  | .culEnableWrite n v => Sys2Proof.Machine.execCulEnableWrite n v s
  | .culDisableWrite n v => Sys2Proof.Machine.execCulDisableWrite n v s
  | .rdS src h => Sys2Proof.Machine.execRdS src h s
  | .rdF src h => Sys2Proof.Machine.execRdF src h s
  | .rdO src h => Sys2Proof.Machine.execRdO src h s
  | .upg src h => Sys2Proof.Machine.execUpg src h s
  | .rdNa src h => Sys2Proof.Machine.execRdNa src h s
  | .wrFull src h => Sys2Proof.Machine.execWrFull src h s
  | .wrPart src h => Sys2Proof.Machine.execWrPart src h s
  | .atom src h => Sys2Proof.Machine.execAtom src h s
  | .wbD src h => Sys2Proof.Machine.execWbD src h s
  | .settle src h => Sys2Proof.Machine.execSettle src h s
  | .undefinedMessage f ch op h => Sys2Proof.Machine.execUndefinedMessage f ch op h s
  | .snpS n h => Sys2Proof.Machine.execSnpS n h s
  | .snpFs n h => Sys2Proof.Machine.execSnpFs n h s
  | .snpFo n h => Sys2Proof.Machine.execSnpFo n h s
  | .snpI n h => Sys2Proof.Machine.execSnpI n h s
  | .snpNa n h => Sys2Proof.Machine.execSnpNa n h s
  | .snpQ n h => Sys2Proof.Machine.execSnpQ n h s
  | .rspI src h => Sys2Proof.Machine.execRspI src h s
  | .rspS src h => Sys2Proof.Machine.execRspS src h s
  | .rspFwd src h => Sys2Proof.Machine.execRspFwd src h s
  | .rspD src h => Sys2Proof.Machine.execRspD src h s
  | .rspAbsent src h => Sys2Proof.Machine.execRspAbsent src h s
  | .rspWbx src h => Sys2Proof.Machine.execRspWbx src h s
  | .rspQ n h => Sys2Proof.Machine.execRspQ n h s
  | .datS src h d => Sys2Proof.Machine.execDatS src h d s
  | .datF src h d => Sys2Proof.Machine.execDatF src h d s
  | .datE src h d => Sys2Proof.Machine.execDatE src h d s
  | .datM src h d => Sys2Proof.Machine.execDatM src h d s
  | .datNa src h d => Sys2Proof.Machine.execDatNa src h d s
  | .cmp n h => Sys2Proof.Machine.execCmp n h s
  | .cmpNear n h => Sys2Proof.Machine.execCmpNear n h s
  | .cmpAtom n h => Sys2Proof.Machine.execCmpAtom n h s
  | .cmpSettle n h => Sys2Proof.Machine.execCmpSettle n h s
  | .cmpTrap n h => Sys2Proof.Machine.execCmpTrap n h s
  | .cmpHalt n h => Sys2Proof.Machine.execCmpHalt n h s
  | .cmpPoison n h => Sys2Proof.Machine.execCmpPoison n h s
  | .admission p select read err => Sys2Proof.Machine.execAdmission p select read err s
  | .chamberHead p line errs => Sys2Proof.Machine.execChamberHead p line errs s
  | .simmerExpiry p line t => Sys2Proof.Machine.execSimmerExpiry p line t s
  | .wharfGrant dst err => Sys2Proof.Machine.execWharfGrant dst err s
  | .stampSweep => Sys2Proof.Machine.execStampSweep s
  | .memReadData m tag d poison bad => Sys2Proof.Machine.execMemReadData m tag d poison bad s
  | .memWack m tag err => Sys2Proof.Machine.execMemWack m tag err s
  | .memPack m tag => Sys2Proof.Machine.execMemPack m tag s
  | .overflowInsert p => Sys2Proof.Machine.execOverflowInsert p s
  | .skilletBackgroundWrite p => Sys2Proof.Machine.execSkilletBackgroundWrite p s
  | .homeSieveBackgroundWb p => Sys2Proof.Machine.execHomeSieveBackgroundWb p s
  | .sievePatrol p errs => Sys2Proof.Machine.execSievePatrol p errs s
  | .scrubBurst => Sys2Proof.Machine.execScrubBurst s
  | .censusReq n h => Sys2Proof.Machine.execCensusReq n h s
  | .censusWalkPage chip => Sys2Proof.Machine.execCensusWalkPage chip s
  | .credit n h => Sys2Proof.Machine.execCredit n h s
  | .fabricCreditReturn f kind => Sys2Proof.Machine.execFabricCreditReturn f kind s
  | .flit n words => Sys2Proof.Machine.execFlit n words s
  | .ackToExpiry n rx => Sys2Proof.Machine.execAckToExpiry n rx s
  | .alignmentMarker n words => Sys2Proof.Machine.execAlignmentMarker n words s
  | .spareSwitchCodeword n rx => Sys2Proof.Machine.execSpareSwitchCodeword n rx s
  | .spareSwitchEnd n => Sys2Proof.Machine.execSpareSwitchEnd n s
  | .lossTimerExpiry n => Sys2Proof.Machine.execLossTimerExpiry n s
  | .salvage n h d => Sys2Proof.Machine.execSalvage n h d s
  | .fence n vc h => Sys2Proof.Machine.execFence n vc h s
  | .fenceAck n h => Sys2Proof.Machine.execFenceAck n h s
  | .fenceLimitExpiry port => Sys2Proof.Machine.execFenceLimitExpiry port s
  | .transitMessage n hops dl op h d => Sys2Proof.Machine.execTransitMessage n hops dl op h d s
  | .culvertSend n => Sys2Proof.Machine.execCulvertSend n s
  | .hello n hops h => Sys2Proof.Machine.execHello n hops h s
  | .serdesReady n signal lock => Sys2Proof.Machine.execSerdesReady n signal lock s
  | .laneSignalChange n lane signal lock => Sys2Proof.Machine.execLaneSignalChange n lane signal lock s
  | .trainingAdvance n blocks late sent => Sys2Proof.Machine.execTrainingAdvance n blocks late sent s
  | .trainingBudgetExpiry n => Sys2Proof.Machine.execTrainingBudgetExpiry n s
  | .testWindowEnd n errs bits => Sys2Proof.Machine.execTestWindowEnd n errs bits s
  | .retrainTimeout n => Sys2Proof.Machine.execRetrainTimeout n s
  | .frzPing n h => Sys2Proof.Machine.execFrzPing n h s
  | .frzPong n h => Sys2Proof.Machine.execFrzPong n h s
  | .frzStart n h => Sys2Proof.Machine.execFrzStart n h s
  | .frzDead n h => Sys2Proof.Machine.execFrzDead n h s
  | .frzReady n h => Sys2Proof.Machine.execFrzReady n h s
  | .frzThaw n h => Sys2Proof.Machine.execFrzThaw n h s
  | .snoopTimeout t => Sys2Proof.Machine.execSnoopTimeout t s
  | .pingTimeout t => Sys2Proof.Machine.execPingTimeout t s
  | .heartbeatTimeout l => Sys2Proof.Machine.execHeartbeatTimeout l s
  | .quietPeriodEnd => Sys2Proof.Machine.execQuietPeriodEnd s
  | .thawWaitTimeout => Sys2Proof.Machine.execThawWaitTimeout s
  | .freezeLate => Sys2Proof.Machine.execFreezeLate s
  | .presenceChange l up => Sys2Proof.Machine.execPresenceChange l up s
  | .pingAnswer l => Sys2Proof.Machine.execPingAnswer l s
  | .commitReport n h => Sys2Proof.Machine.execCommitReport n h s
  | .commitGo n h => Sys2Proof.Machine.execCommitGo n h s
  | .commitAck n h => Sys2Proof.Machine.execCommitAck n h s
  | .commitAll n h => Sys2Proof.Machine.execCommitAll n h s
  | .commitReportTimeout => Sys2Proof.Machine.execCommitReportTimeout s
  | .commitGoTimeout => Sys2Proof.Machine.execCommitGoTimeout s
  | .helloResend => Sys2Proof.Machine.execHelloResend s
  | .discoverQuietEnd => Sys2Proof.Machine.execDiscoverQuietEnd s
  | .discoverLimit => Sys2Proof.Machine.execDiscoverLimit s
  | .escalationExpiry k => Sys2Proof.Machine.execEscalationExpiry k s
  | .coalesceWindowClose src => Sys2Proof.Machine.execCoalesceWindowClose src s
  | .logEntryWrite => Sys2Proof.Machine.execLogEntryWrite s
  | .errPulseEnd k => Sys2Proof.Machine.execErrPulseEnd k s
  | .lkVoteMismatch k => Sys2Proof.Machine.execLkVoteMismatch k s
  | .galleyWindowClose p v => Sys2Proof.Machine.execGalleyWindowClose p v s
  | .registerSweep p r => Sys2Proof.Machine.execRegisterSweep p r s
  | .galleyStall p => Sys2Proof.Machine.execGalleyStall p s
  | .quiescePoint p => Sys2Proof.Machine.execQuiescePoint p s
  | .proofLimitExpiry p => Sys2Proof.Machine.execProofLimitExpiry p s
  | .proofForceResync p => Sys2Proof.Machine.execProofForceResync p s
  | .imageVerifyDone p sig => Sys2Proof.Machine.execImageVerifyDone p sig s
  | .wakingComplete p faults same => Sys2Proof.Machine.execWakingComplete p faults same s
  | .drainComplete p => Sys2Proof.Machine.execDrainComplete p s
  | .failoverSettleDone l bad => Sys2Proof.Machine.execFailoverSettleDone l bad s
  | .failoverTakeover l => Sys2Proof.Machine.execFailoverTakeover l s
  | .agentRetireLimit a => Sys2Proof.Machine.execAgentRetireLimit a s
  | .agentAdmitSweepDone a => Sys2Proof.Machine.execAgentAdmitSweepDone a s
  | .pwrFailRecognise => Sys2Proof.Machine.execPwrFailRecognise s
  | .drainLateTimer => Sys2Proof.Machine.execDrainLateTimer s
  | .pwrGoodRise => Sys2Proof.Machine.execPwrGoodRise s
  | .pwrGoodFall => Sys2Proof.Machine.execPwrGoodFall s
  | .alwaysOnSupplyOn straps good => Sys2Proof.Machine.execAlwaysOnSupplyOn straps good s
  | .alwaysOnSupplyOff => Sys2Proof.Machine.execAlwaysOnSupplyOff s
  | .initSelftestDone r => Sys2Proof.Machine.execInitSelftestDone r s
  | .pwrLeaveGnt raced => Sys2Proof.Machine.execPwrLeaveGnt raced s
  | .leaveWaitTimeout => Sys2Proof.Machine.execLeaveWaitTimeout s
  | .gntStuckTimeout => Sys2Proof.Machine.execGntStuckTimeout s
  | .domainRegulation d => Sys2Proof.Machine.execDomainRegulation d s
  | .idleGateClose g => Sys2Proof.Machine.execIdleGateClose g s
  | .clockAbsent d => Sys2Proof.Machine.execClockAbsent d s
  | .wakeSlotFire k => Sys2Proof.Machine.execWakeSlotFire k s
  | .extInputChange n up => Sys2Proof.Machine.execExtInputChange n up s
  | .holdoffExpiry g => Sys2Proof.Machine.execHoldoffExpiry g s
  | .imsgResendExpiry t => Sys2Proof.Machine.execImsgResendExpiry t s
  | .imsgReady f => Sys2Proof.Machine.execImsgReady f s
  | .dumpPeriodExpiry => Sys2Proof.Machine.execDumpPeriodExpiry s
  | .logbookSpill => Sys2Proof.Machine.execLogbookSpill s
  | .ageTick => Sys2Proof.Machine.execAgeTick s
  | .counterMcUpdate => Sys2Proof.Machine.execCounterMcUpdate s
  | .clockReturn d => Sys2Proof.Machine.execClockReturn d s
  | .pwrFailNRise => Sys2Proof.Machine.execPwrFailNRise s
  | .pwrLeaveGntFall early => Sys2Proof.Machine.execPwrLeaveGntFall early s
  | .heartbeatToggle l => Sys2Proof.Machine.execHeartbeatToggle l s
  | .wrapperUpdate ir => Sys2Proof.Machine.execWrapperUpdate ir s
  | .wrapperReset => Sys2Proof.Machine.execWrapperReset s
  | .traceRecordWrite => Sys2Proof.Machine.execTraceRecordWrite s
  | .idleFlitSend n => Sys2Proof.Machine.execIdleFlitSend n s
  | .domainPowerRemoved d => Sys2Proof.Machine.execDomainPowerRemoved d s
  | .overlayEnd sig ok result => Sys2Proof.Machine.execOverlayEnd sig ok result s

end Sys2Proof.Machine
end

