-- ==== Sys2Proof/WellFormed.lean ====
section
/-!
DEFINITION. Sys2Proof/WellFormed.lean: when a command is one that can be sent: what its row of the table fixes about its operands, and the
widths of the fields that carry them.
-/
namespace Sys2Proof
open Sys2Proof.Machine

/-- Whether a list holds nothing twice. -/
def distinct {α : Type} [DecidableEq α] : List α → Bool
  | [] => true
  | x :: l => !l.contains x && distinct l

/-- LENGTH is a 16-bit field (12 R402). -/
def TowCmd.wf (c : TowCmd) : Bool := decide (c.payload.length < 65536)

/-- A data opcode (03 R89). -/
def isDataOp (op : BitVec 8) : Bool := op = opDatS || op = opDatF || op = opDatE || op = opDatM || op = opDatNa

/-- ONEBEAT is PARAM[0] (03 R92). -/
def beatsFit (h : Hdr) (d : Beats) : Bool := d.one = h.param.getLsbD 0

/-- Opcodes that an agent may send on a channel (03 R84, R89). -/
def Chan.takes (ch : Chan) (op : BitVec 8) : Bool :=
  match ch with
  | .req => op = opRdS || op = opRdF || op = opRdO || op = opUpg || op = opRdNa || op = opWrFull || op = opWrPart || op = opAtom || op = opWbD ||
    op = opSettle
  | .rsp => op = opRspI || op = opRspS || op = opRspFwd || op = opRspD || op = opRspAbsent || op = opRspWbx
  | .dat => op = opDatS || op = opDatF || op = opDatM || op = opDatNa

/-- A register offset is a multiple of 8 (17 R559). -/
def offsetFits (o : RegOff) : Bool := o.extractLsb' 0 3 = (0 : BitVec 3)

/-- A way shows one error at most in a patrol step (05 R187). -/
def patrolFits (l : List PatrolErr) : Bool := distinct (l.map (fun e => (e.local?, e.way)))

/-- A lookup finds each error once, and one error at most in a way (05 R157, R163). -/
def lookFits (l : List LookErr) : Bool :=
  distinct l && distinct (l.filterMap (fun e => match e with
    | .sieve p => some (p.local?, p.way)
    | _ => none))

/-- Each lane clock cycle brings a word from each of a port's 18 receive lanes (09 R277). -/
def laneWords (l : List (List (BitVec 64))) : Bool := l.all (fun w => decide (w.length = 18))

/-- The command packet that a Towpath command is. -/
def Instr.packet : Instr → Option TowCmd
  | .nop c | .identify c | .tagQuery c | .transportReset c | .regRead c | .regWrite c | .regReadBlock c | .regWriteMasked c | .charterLoad c
  | .charterCheck c | .charterCommit c | .charterRelease c | .discover c | .genAdvance c | .serviceEnter c | .agentAdmit c | .agentRetire c
  | .slicePower c | .sliceSpare c | .sliceServe c | .sliceDrain c | .sliceSwap c | .sliceFailover c | .lsRebuild c | .mcLoadOpen c
  | .mcLoadData c | .mcLoadClose c | .mcActivate c | .mcProofStart c | .mcProofEnd c | .mcProofLogRead c | .mcDiscard c | .lkOverlay c
  | .dirDump c | .dirRebuild c | .larderRead c | .maintAddr c | .maintEntry c | .culRetrain c | .culSpare c | .culRouteReturn c
  | .culStatus c | .pwrTrim c | .pwrIdle c | .pwrDeep c | .pwrHalf c | .pfRelease c | .portPower c | .cntRead c | .logbookRead c
  | .dumpNow c | .logRead c | .fltInject c | .sealBlock c => some c
  | _ => none

/-- Whether a register write or an arrival is one its row names. -/
def Instr.rowFits : Instr → Bool
  | .streamPacket w => !w.isEmpty
  | .genericRegisterWrite o _ => offsetFits o
  | .irqRaisePush _ v => bit v 4
  | .fltAckWrite v => bit v 16
  | .errOutRelease v => bit v 24 || bit v 25
  | .galInjectGo _ v => bit v 0
  | .plCtlWake v => bit v 0
  | .culEnableWrite _ v => bit v 0
  | .culDisableWrite _ v => !bit v 0
  | .undefinedMessage _ ch op _ => !ch.takes op
  | .datS _ h d | .datF _ h d | .datE _ h d | .datM _ h d | .datNa _ h d => beatsFit h d
  | .transitMessage _ _ _ op h d => match d with
    | some b => (isDataOp op && beatsFit h b) || op = 0xC3
    | none => !isDataOp op && op != 0xC3
  | .sievePatrol _ l => patrolFits l
  | .chamberHead _ _ l => lookFits l
  | .alignmentMarker _ l => laneWords l
  | .flit _ l => laneWords l
  | .trainingAdvance _ l _ _ => distinct (l.map (fun e => e.lane))
  | .testWindowEnd _ l _ => distinct (l.map (fun e => e.1))
  | .registerSweep _ r => distinct (r.regs.map (fun e => e.reg))
  | .galleyWindowClose _ (.struck a b) => (a ++ b).all (fun i => decide (i < 2 ^ 16))
  | .wakingComplete _ l _ => distinct l
  | _ => true

/-- A well-formed command. -/
def Instr.wf (i : Instr) : Bool :=
  (match i.packet with
   | some c => c.wf
   | none => true) && i.rowFits

end Sys2Proof
end

