-- ==== Sys2Proof/Safety.lean ====
section
/-!
DEFINITION. Sys2Proof/Safety.lean: the invariants of the block that statements and proofs name.
-/
namespace Sys2Proof.Machine

/-- The interrupt controller is sound: no reserved source is pending (13 R454), no target's stack holds more than 16 entries and no OVER count
has passed 255 (13 R461), and no event count has passed 255 (13 R454). -/
def Irq.Ok (i : Irq) : Prop :=
  (∀ k : Nat, irqReserved k = true → i.pend.getLsbD k = false) ∧
  (∀ e : Nat × IrqTarget, e ∈ i.targets → e.2.stack.length ≤ 16 ∧ e.2.overflow ≤ 255) ∧
  (∀ e : Nat × Nat, e ∈ i.count → e.2 ≤ 255)

/-- Commands that may write registers: an access of a register, or a packet that may hold one. -/
def writesRegs (i : Instr) : Bool :=
  match i with
  | .regWrite _ | .regWriteMasked _ | .charterLoad _ | .streamPacket _ | .dbRing _ | .twoWireWrite _ | .mmioAccess _ _ _ _ _ _ |
    .genericRegisterWrite _ _ | .irqEoi _ _ | .irqRaisePush _ _ | .irqPendWrite _ _ | .fltAckWrite _ | .fltPtrRdWrite _ |
    .errOutRelease _ | .galInjectGo _ _ | .sieveRemapWrite _ _ _ | .cntValWrite _ _ | .logPtrRdWrite _ | .logMemRdWrite _ |
    .gatePauseWrite _ _ | .gateUpdateWrite _ _ | .clkSliceDivWrite _ _ | .plCtlWake _ | .culEnableWrite _ _ | .culDisableWrite _ _ => true
  | _ => false

/-- The block has power above its Pilot Light, and no Towpath command waits for an earlier reply: a command's effect is its own. -/
def State.Able (s : State) : Prop := s.powered = true ∧ s.tow.waiting = []

/-! Towpath commands (12 R406, R407). -/

/-- A transport takes a command of a row now, waits for no earlier reply, and every check of 12 R406 passes. -/
def State.Takes (r : TowRow) (c : TowCmd) (s : State) : Prop :=
  s.tow.waiting = [] ∧ s.viaOpen c.via = true ∧ s.towHeld c.via = false ∧ (s.core.block = .pilot → r.states.contains .pilot = true) ∧
    State.towCheck r c (s.viaTaken r.op c) = none

/-- The state in which a command that passed every check begins: its packet is taken, it is listed as running under the next name, the chain
condition waits for it, and a long command has answered ACCEPTED. -/
def State.begun (r : TowRow) (c : TowCmd) (s : State) : State :=
  let t := s.viaTaken r.op c
  let u : State := { t with tow := { t.tow with
    nextCmd := t.tow.nextCmd + 1
    running := t.tow.running ++ [⟨t.tow.nextCmd, c.via, r.op, c.tag, r.units t c, r.charter, r.long, true⟩]
    prev := mset Prev.none t.tow.prev (viaCode c.via) (.run t.tow.nextCmd) } }
  if r.long then u.sendReply c.via ⟨r.op, c.tag, tsAccepted, 1, 0, []⟩ else u

end Sys2Proof.Machine
end

