-- ==== Sys2Proof/Certificates/Slice0/Obligations.lean ====
section
/-!
DEFINITION. Sys2Proof/Certificates/Slice0/Obligations.lean: the statements for the provers, each a rule of spec/ or a property of the whole block.
-/
open Sys2Proof Sys2Proof.Machine

/-- Whenever command i is at the front of the queue, a step is exec of i on the state with the queue's rest, and with an empty queue a step
answers the state itself. The queue and its idling are the model's (log entry 1), after the order in which a transport's commands are taken.
Cites R410. -/
def Obligations.StepTakesFrontCommand : Prop :=
  (∀ (s : State) (i : Instr) (rest : List Instr), s.pending = i :: rest → step s = exec i { s with pending := rest }) ∧
  ∀ s : State, s.pending = [] → step s = .next s

/-- exec refuses no command and none faults. A request from an agent of its own port whose TAG the agent already holds (R259), a write that
moves INST_ID after a Culvert port has been enabled (R302), and the presence of a listed agent that has not been admitted (R523) have their
own effect and the open one of R4 beside it. That effect leaves every stored register, and with them HOLDUP_US and the wake slots, the
power-fail retention bits, the Pilot Light's bits and every slice's control store as they were, and every unit but the engine. (Which of
R4's effects happens is free, log entry 2.) Cites R4, R259, R302, R449, R523. -/
def Obligations.UncheckedDutiesStopNothing : Prop :=
  (∀ (i : Instr) (s : State) (r : Refusal), exec i s ≠ .refused r) ∧ (∀ (i : Instr) (s : State) (e : Fault), exec i s ≠ .fault e) ∧
  (∀ (s : State) (f : Fin 4) (h : Hdr), s.Able → s.core.doms.getLsbD (66 + f.val) = true → s.core.agentOk f (agentLocal h.agent) = true →
    s.tagHeld f h = true →
    ∀ e ∈ ([(.rdS (.fabric f) h, opRdS), (.rdF (.fabric f) h, opRdF), (.rdO (.fabric f) h, opRdO), (.upg (.fabric f) h, opUpg),
        (.rdNa (.fabric f) h, opRdNa), (.wrFull (.fabric f) h, opWrFull), (.wrPart (.fabric f) h, opWrPart), (.atom (.fabric f) h, opAtom),
        (.wbD (.fabric f) h, opWbD), (.settle (.fabric f) h, opSettle)] : List (Instr × BitVec 8)),
      exec e.1 s = .next (State.finish s ((s.arrive (.request f e.2 h)).upset))) ∧
  (∀ (s : State) (v : Word), s.Able → State.idMoved s (s.writeGeneric 0x10 v) = true →
    exec (.genericRegisterWrite 0x10 v) s = .next (State.finish s ((s.writeGeneric 0x10 v).upset))) ∧
  (∀ (s : State) (l : BitVec 6), s.Able → s.badPresence l true = true →
    exec (.presenceChange l true) s = .next (State.finish s ((s.presence l true).upset))) ∧
  (∀ s : State,
    let u := s.upset
    u.core.regs = s.core.regs ∧ u.core.pf = s.core.pf ∧ (∀ p : Nat, (u.slice p).control = (s.slice p).control) ∧
    u.irq = s.irq ∧ u.watch = s.watch ∧ u.tow = s.tow ∧ u.gals = s.gals ∧ u.cul = s.cul ∧ u.pwr = s.pwr ∧ u.start = s.start ∧
    u.arrivals = s.arrivals ∧ u.pending = s.pending)

/-- exec of every command in every state answers a next state: what the spec gives a command no effect in, the block passes over, and a
breach of a duty that the block does not check leaves the block running, by R4. Among them, a register access through the MMIO window in any
state and size, and the background write-back of any slice. Cites R4, R405, R416. -/
def Obligations.EveryCommandCompletes : Prop :=
  (∀ (i : Instr) (s : State), ∃ t : State, exec i s = .next t) ∧
  (∀ (s : State) (f : Fin 4) (w : Bool) (size : BitVec 2) (off : BitVec 16) (v : Word) (id : BitVec 8), ∃ t : State,
    exec (.mmioAccess f w size off v id) s = .next t) ∧
  ∀ (s : State) (p : Fin 18), ∃ t : State, exec (.homeSieveBackgroundWb p) s = .next t

/-- For every command and state, when exec answers a next state, its queue is the queue before: only a step takes a command off it (log
entry 1). Cites R410. -/
def Obligations.CommandsLeaveTheQueue : Prop :=
  ∀ (i : Instr) (s t : State), exec i s = .next t → t.pending = s.pending

/-- For every state in which no reserved source is pending, no target's stack holds more than 16 entries, no OVER count has passed 255 and
no event count has passed 255, a step that answers a next state answers one of which the same holds, whatever command is at the front of the
queue. Cites R450, R454, R461. -/
def Obligations.InterruptControllerStaysSound : Prop :=
  ∀ s t : State, s.irq.Ok → step s = .next t → t.irq.Ok

/-- In the state after reset no reserved source is pending, and no stack, OVER count or event count has passed its limit. Cites R450, R454,
R461. -/
def Obligations.InterruptControllerSoundAtReset : Prop :=
  State.reset.irq.Ok

/-- After reset the block is in INIT (that the power-on of PILOT has passed is log entry 3) with domains 74 to 79 on and no other, every
slice is DARK, no interrupt source pends, every target's stack is empty, every fabric port holds no credit, AGE_NOW.TICK is 0, no seal is
set, no freeze and no power-fail hold is under way, no charter is locked, and nothing waits. In the state after reset every stored register
holds the reset value of its field table, among them SIMMER_CTL 0x040 and 0x100, IRQ_MASK all ones, FLT_CTL 1,000 µs with ceiling 5 and
COALESCE 1, and FRZ_CTL 20, 10, 4 and 200 µs. Cites R192, R416, R419, R454, R461, R472, R494, R564, R565, R566, R579. -/
def Obligations.ResetState : Prop :=
  (State.reset.core.block = .init ∧ (∀ d : Fin 80, State.reset.core.doms.getLsbD d.val = decide (74 ≤ d.val)) ∧
  (∀ p : Fin 18, (State.reset.slice p.val).st = .dark) ∧ State.reset.irq.pend = 0 ∧
  (∀ t : Fin 8, (State.reset.tgt t.val).stack = [] ∧ (State.reset.tgt t.val).overflow = 0) ∧
  (∀ f : Fin 4, mget FabPort.reset State.reset.core.fab f.val = FabPort.reset) ∧ State.reset.core.host.tick = 0 ∧
  State.reset.core.flt.sealCul = 0 ∧ State.reset.core.flt.sealFab = 0 ∧ State.reset.core.flt.sealMem = 0 ∧
  State.reset.core.frz.st = 0 ∧ State.reset.core.pf.hold = false ∧ State.reset.locked = false ∧
  State.reset.pending = [] ∧ State.reset.tow.waiting = [] ∧ State.reset.tow.running = []) ∧
  ((∀ o : Nat, State.reset.reg o = resetOf o) ∧
  State.reset.reg 0x110 = 0x1000040 ∧ (∀ k : Fin 4, State.reset.reg (0x10800 + 8 * k.val) = BitVec.allOnes 64) ∧
  State.reset.reg 0x20400 = 0x1A03E8 ∧ State.reset.reg 0x20600 = 0xC8040A14)

/-- For every sparse array in canonical form (keys rising, no entry equal to the default), writing entry k with v leaves a canonical array
in which k reads v and every other entry reads as before. The Sieves, the Skillets, the trace SRAM and the log ring are held so. The form is
the model's (log entry 5). With the stored registers in their form (offsets rising), storing a word at an offset keeps the form, that
register then reads the word, every other register reads as before, and no other part of the engine changes. The form is the model's (log
entry 5). Cites R13, R545, R559, R561. -/
def Obligations.SparseArrays : Prop :=
  (∀ (d : BitVec 256) (m : Map (BitVec 256)) (k : Nat) (v : BitVec 256), Map.wf d m = true →
    Map.wf d (mset d m k v) = true ∧ mget d (mset d m k v) k = v ∧ ∀ j : Nat, j ≠ k → mget d (mset d m k v) j = mget d m j) ∧
  (∀ (s : Core) (o : Nat) (w : Word), mrising 0 s.regs = true →
    mrising 0 (s.setReg o w).regs = true ∧ (s.setReg o w).reg o = w ∧ (∀ j : Nat, j ≠ o → (s.setReg o w).reg j = s.reg j) ∧
    s.setReg o w = { s with regs := (s.setReg o w).regs })

/-- When the main domains have power and nothing else may go on by itself, a step's end from s to t is what the slices' pairs commit to
their windows, then the interrupt controller's cycle; without power it is nothing at all. Where no slice whose pair runs has made a state
write or an output, nothing is committed. (That one cycle of the controller ends each command is the model's choice, log entry 4, and that a
step's commits join the window together is log entry 83.) Cites R335, R336, R451, R457. -/
def Obligations.QuietStepEnd : Prop :=
  (∀ s t : State, t.powered = true → t.calm = true → (State.commitAll s t).quiet = true → (State.commitAll s t).powered = true →
    State.finish s t = State.irqCycle s (State.commitAll s t)) ∧
  (∀ s t : State, (∀ p : Nat, p < 18 → t.galRuns p = true → State.committed s t p = [] ∧ (t.gal p).items = []) → State.commitAll s t = t) ∧
  ∀ s t : State, t.powered = false → State.finish s t = t

/-- The cycle leaves every unit but the controller as it was: the engine but for its outputs, counters and the Logbook, Towpath, the Galley
pairs, the Culvert, power, the service procedures, and every waiting message and command. The only outputs it adds are interrupt messages.
In the controller it leaves hold-off timers and inputs, and every stack and OVER, as they were. Cites R451, R457, R458. -/
def Obligations.InterruptCycleFrame : Prop :=
  ∀ s t : State,
    (State.irqCycle s t).watch = t.watch ∧ (State.irqCycle s t).tow = t.tow ∧ (State.irqCycle s t).gals = t.gals ∧ (State.irqCycle s t).cul = t.cul ∧
    (State.irqCycle s t).pwr = t.pwr ∧ (State.irqCycle s t).start = t.start ∧ (State.irqCycle s t).arrivals = t.arrivals ∧
    (State.irqCycle s t).pending = t.pending ∧ (State.irqCycle s t).irq.hold = t.irq.hold ∧ (State.irqCycle s t).irq.ext = t.irq.ext ∧
    (∀ n : Nat, ((State.irqCycle s t).tgt n).stack = (t.tgt n).stack ∧ ((State.irqCycle s t).tgt n).overflow = (t.tgt n).overflow) ∧
    ∃ l : List Out, (State.irqCycle s t).core = { t.core with out := l ++ t.core.out } ∧
      ∀ o ∈ l, ∃ (n : Nat) (a : Word) (d : BitVec 32), o = .imsg n a d

/-- After the controller's cycle from s to t, each hardware source's level is its condition's sample. An event is a rise of the sample under
Level and Rising, a fall under Falling, any change under Both; it adds 1 to the source's count, up to 255. A Level source pends when its
sample is 1, unless it was claimed in this cycle and was not pending, and with a sample of 0 only when software wrote its bit from 0 to 1;
another source pends when it did or had an event. SOFT and reserved sources keep their bits. Cites R450, R451, R452, R467. -/
def Obligations.InterruptSamples : Prop :=
  ∀ (s t : State) (k : Nat),
    let u := State.irqCycle s t
    let now := t.cond (t.irq.toggle t) k
    let was := t.irq.level.getLsbD k
    let sense := bits (t.irqCfg k) 1 0
    let ev := if sense = 2 then was && !now else if sense = 3 then was != now else !was && now
    (k < 128 → irqReserved k = false →
      u.irq.level.getLsbD k = now ∧
      mget 0 u.irq.count k = (if ev then Nat.min 255 (mget 0 t.irq.count k + 1) else mget 0 t.irq.count k) ∧
      u.irq.pend.getLsbD k =
        (if sense = 0 then (if now then t.irq.pend.getLsbD k || !t.irq.claimed.getLsbD k else t.irq.pend.getLsbD k && t.irq.wset.getLsbD k)
         else t.irq.pend.getLsbD k || ev)) ∧
    ((128 ≤ k ∨ irqReserved k = true) → u.irq.pend.getLsbD k = t.irq.pend.getLsbD k)

/-- After the controller's cycle from s to t, IRQ_OUT of target n is 1 exactly when the cycle before left n with a deliverable source and n
is enabled with MODE 0, and it is 0 with MODE 1 or with ENABLE 0. What the cycle leaves for the next one to drive is which targets have a
selected source at its end of the cycle before. Cites R457. -/
def Obligations.InterruptLines : Prop :=
  ∀ (s t : State) (n : Fin 8),
    (State.irqCycle s t).irq.out.getLsbD n.val =
      (t.irq.deliv.getLsbD n.val && bit (t.tgtCfg n.val) 0 && !bit (t.tgtCfg n.val) 1) ∧
    (State.irqCycle s t).irq.deliv.getLsbD n.val = (s.selected n.val).isSome

/-- A source is deliverable to a target exactly when it pends, is not masked, names the target, the target is enabled, the group's hold-off
timer does not run, and its PRIO is below RUNNING. The selected source of a target is deliverable, and no deliverable source has a smaller
PRIO, or the same PRIO and a smaller ID; there is a selected source exactly when some source is deliverable. Cites R456. -/
def Obligations.InterruptSelection : Prop :=
  (∀ (s : State) (t k : Nat), s.deliverable t k = true ↔
    (s.irq.pend.getLsbD k = true ∧ s.irqMasked k = false ∧ s.irqTarget k = t ∧ bit (s.tgtCfg t) 0 = true ∧ mhas s.irq.hold (k / 16) = false ∧
      s.irqPrio k < (s.tgt t).running)) ∧
  (∀ (s : State) (t k : Nat), s.selected t = some k → s.deliverable t k = true ∧
    ∀ j : Nat, j < 256 → s.deliverable t j = true → s.irqPrio k < s.irqPrio j ∨ (s.irqPrio k = s.irqPrio j ∧ k ≤ j)) ∧
  (∀ (s : State) (t : Nat), (s.selected t).isSome = true ↔ ∃ k : Nat, k < 256 ∧ s.deliverable t k = true)

/-- EXT_INPUT_CHANGE sets its input's level, with or without power; HOLDOFF_EXPIRY stops its group's timer. IMSG_READY takes the message
that waits on its port: of several, the lowest target's. IMSG_RESEND_EXPIRY presents the message of a message-signalled target again when
RESEND_US is not 0, SENT is 1, nothing waits and a source is still deliverable. Each then ends as every step does. (The lowest target is the
model's choice, log entry 6.) Cites R451, R458, R465, R582. -/
def Obligations.InterruptInputsAndMessages : Prop :=
  (∀ (s : State) (i : Fin 16) (up : Bool), s.tow.waiting = [] → exec (.extInputChange i up) s =
    .next (State.finish s { s with irq := { s.irq with ext := putBit s.irq.ext i.val up } })) ∧
  (∀ (s : State) (g : Fin 16), s.Able → exec (.holdoffExpiry g) s =
    .next (State.finish s { s with irq := { s.irq with hold := merase s.irq.hold g.val } })) ∧
  (∀ (s : State) (f : Fin 4) (t : Nat) (m : IMsg), s.Able → t < 8 → (s.tgt t).wait = some m → m.port = f.val →
    (∀ u : Nat, u < t → ∀ k : IMsg, (s.tgt u).wait = some k → k.port ≠ f.val) →
    exec (.imsgReady f) s = .next (State.finish s { s with irq := { s.irq with
      targets := mset IrqTarget.none s.irq.targets t { s.tgt t with wait := none } } })) ∧
  (∀ (s : State) (t : Fin 8), s.Able → bit (s.tgtCfg t.val) 1 = true → bits (s.tgtCfg t.val) 15 4 ≠ 0 → (s.tgt t.val).sent = true →
    (s.tgt t.val).wait = none → (s.selected t.val).isSome = true →
    let a : Word := at' (bits (s.reg (0x10C08 + t.val * 0x40)) 55 2) 2
    let d : BitVec 32 := BitVec.ofNat 32 (bits (s.reg (0x10C10 + t.val * 0x40)) 31 0)
    exec (.imsgResendExpiry t) s = .next (State.finish s { s with
      irq := { s.irq with
        targets := mset IrqTarget.none s.irq.targets t.val { s.tgt t.val with sent := true, wait := some ⟨bits (s.tgtCfg t.val) 3 2, a, d⟩ } }
      core := { s.core with out := .imsg t.val a d :: s.core.out } }))

/-- With the registers reachable, IRQ_CLAIM of target t returns the selected source's ID with its PRIO in [19:16], clears its pending bit,
clears SENT, pushes PRIO and ID when the stack has room, and starts the group's hold-off timer unless HOLDOFF_US is 0. With no selected
source it returns 0x3FF and changes nothing else. Cites R460, R465. -/
def Obligations.InterruptClaim : Prop :=
  (∀ (s : State) (t : Fin 8), s.Able → s.pilotOnly = false → s.selected t.val = none → exec (.irqClaim t) s =
    .next (State.finish s { s with core := { s.core with out := .value (0x10C20 + t.val * 0x40) 0x3FF :: s.core.out } })) ∧
  (∀ (s : State) (t : Fin 8) (k : Nat), s.Able → s.pilotOnly = false → s.selected t.val = some k → (s.tgt t.val).stack.length < 16 →
    let us := bits (s.reg (0x10A00 + k / 16 * 8)) 11 0
    exec (.irqClaim t) s = .next (State.finish s { s with
      irq := { s.irq with
        pend := clearBit s.irq.pend k
        claimed := setBit s.irq.claimed k
        hold := if us = 0 then s.irq.hold else mput s.irq.hold (k / 16) (s.core.tb + us * 100)
        targets := mset IrqTarget.none (mset IrqTarget.none s.irq.targets t.val { s.tgt t.val with sent := false }) t.val
          { s.tgt t.val with sent := false, stack := (s.irqPrio k, k) :: (s.tgt t.val).stack } }
      core := { s.core with out := .value (0x10C20 + t.val * 0x40) (at' k 0 ||| at' (s.irqPrio k) 16) :: s.core.out } }))

/-- With the registers reachable: an EOI subtracts 1 from OVER when it is above 0, else pops the top entry, else sets UNDER, and clears
SENT. A PUSH stores its PRIO and, when it is at most RUNNING and the stack has room, pushes it with ID 0x3FF. A write of IRQ_PEND sets each
bit of an existing source to the written value and no other bit. Cites R454, R461, R462, R467. -/
def Obligations.InterruptStack : Prop :=
  (∀ (s : State) (t : Fin 8) (v : Word), s.Able → s.pilotOnly = false → bit v 0 = true → exec (.irqEoi t v) s =
    .next (State.finish s { s with irq := { s.irq with
      targets := mset IrqTarget.none s.irq.targets t.val (if (s.tgt t.val).overflow ≠ 0 then { s.tgt t.val with sent := false, overflow := (s.tgt t.val).overflow - 1 }
       else match (s.tgt t.val).stack with
         | _ :: l => { s.tgt t.val with sent := false, stack := l }
         | [] => { s.tgt t.val with sent := false, under := true }) } })) ∧
  (∀ (s : State) (t : Fin 8) (v : Word), s.Able → s.pilotOnly = false → bit v 4 = true → bits v 3 0 ≤ (s.tgt t.val).running →
    (s.tgt t.val).stack.length < 16 → exec (.irqRaisePush t v) s = .next (State.finish s { s with
      core := s.core.setReg (0x10C30 + t.val * 0x40) ((s.reg (0x10C30 + t.val * 0x40) &&& ~~~0xF) ||| (v &&& 0xF))
      irq := { s.irq with
        targets := mset IrqTarget.none s.irq.targets t.val { s.tgt t.val with stack := (bits v 3 0, 0x3FF) :: (s.tgt t.val).stack } } })) ∧
  (∀ (s : State) (k : Fin 4) (v : Word), s.Able → s.pilotOnly = false → ∃ i : Irq, exec (.irqPendWrite k v) s =
    .next (State.finish s { s with irq := i }) ∧ i.targets = s.irq.targets ∧ i.level = s.irq.level ∧ i.count = s.irq.count ∧ i.hold = s.irq.hold ∧
    ∀ j : Nat, j < 256 → i.pend.getLsbD j =
      if j / 64 = k.val ∧ irqReserved j = false then v.getLsbD (j % 64) else s.irq.pend.getLsbD j)

/-- With the registers reachable, each direct read returns its register's value as one output and clears its RC fields and nothing else: the
eight event counts of IRQ_COUNT(k), LOST and LOST_SEV of FLT_STAT, COUNT of FRZ_STAT, of FO_STAT and of PWR_LEAVE_STAT, SKIPPED of
DUMP_STAT, LOST of LOG_STAT, REFUSED of GATE_STAT(e), the four counts of CUL_CNT, the two of CUL_LERR(k) and the four of GAL_CNT. Cites R13,
R14, R310, R356, R389, R397, R454, R486, R540, R548, R563. -/
def Obligations.RegisterReadsClearCounts : Prop :=
  ∀ s : State, s.Able → s.pilotOnly = false →
    let shown (o : Nat) : Core := { s.core with out := .value o (s.view o) :: s.core.out }
    (∀ k : Fin 32, exec (.irqCountRead k) s = .next (State.finish s { s with
      core := shown (0x10900 + k.val * 8)
      irq := { s.irq with count := foldS (fun j m => mset 0 m (8 * k.val + j) 0) (List.range 8) s.irq.count } })) ∧
    exec .fltStatRead s = .next (State.finish s { s with core := { shown 0x20418 with flt := { s.core.flt with lost := 0, lostSev := 0 } } }) ∧
    exec .frzStatRead s = .next (State.finish s { s with core := { shown 0x20608 with frz := { s.core.frz with count := 0 } } }) ∧
    exec .foStatRead s = .next (State.finish s { s with core := (shown 0x20808).setReg 0x20808 (withBits (s.reg 0x20808) 39 32 0) }) ∧
    exec .pwrLeaveStatRead s = .next (State.finish s { s with core := shown 0x30028, pwr := { s.pwr with count := 0 } }) ∧
    exec .dumpStatRead s = .next (State.finish s { s with core := shown 0x42210, watch := { s.watch with skipped := 0 } }) ∧
    exec .logStatRead s = .next (State.finish s { s with core := shown 0x43020, watch := { s.watch with lost := 0 } }) ∧
    (∀ e : Fin 6, let o := 0x44008 + e.val * 0x200
      exec (.gateStatRead e) s = .next (State.finish s { s with core := (shown o).setReg o (withBits (s.reg o) 16 1 0) })) ∧
    (∀ n : Fin 6, exec (.culCntRead n) s = .next (State.finish s
      (({ s with core := shown (0x80048 + n.val * 0x10000) }).onPort n.val (fun x => { x with fecCorr := 0, fecUnc := 0, crc := 0, replays := 0 })))) ∧
    (∀ (n : Fin 6) (k : Fin 18), exec (.culLerrRead n k) s = .next (State.finish s
      (({ s with core := shown (0x80100 + k.val * 8 + n.val * 0x10000) }).onPort n.val (fun x =>
        { x with sym := mset 0 x.sym k.val 0, bip := mset 0 x.bip k.val 0 })))) ∧
    ∀ p : Fin 18, exec (.galCntRead p) s = .next (State.finish s
      (({ s with core := shown (0x100A20 + p.val * 0x10000) }).onGal p.val (fun g =>
        { g with rewinds := 0, csCorr := 0, sweepFix := 0, divergences := 0 })))

/-- With the registers reachable, FLT_STAT reads LOST, LOST_SEV, FIRST_VALID and ESC_FULL; FRZ_STAT its state, number, coordinator, last
time and count; TGT_STAT RUNNING, DEPTH, OVER, TOP_ID, SENT, UNDER and DELIVERABLE; PWR_DOM0 and PWR_DOM1 the domains that are on; CLK_MON
the absent clocks and the fallback; CUL_CNT and GAL_CNT their four counts; BLK_STAT its state code in [2:0], WO_VIOL and CHARTER_LOCKED.
While only the Pilot Light's registers are reached, any other register reads 0, a read of it clears nothing and a write of it changes
nothing. Cites R293, R310, R356, R372, R397, R417, R424, R454, R463, R472, R481, R492. -/
def Obligations.RegisterValues : Prop :=
  (∀ s : State, s.pilotOnly = false →
    s.view 0x20418 = (at' s.core.flt.lost 0 ||| at' s.core.flt.lostSev 32 ||| at' s.core.flt.firstValid.toNat 35 |||
      at' s.core.flt.escFull.toNat 36) ∧
    s.view 0x20608 = (at' s.core.frz.st 0 ||| at' s.core.frz.number.toNat 8 ||| at' s.core.frz.coord.toNat 16 ||| at' s.core.frz.lastUs 24 |||
      at' s.core.frz.count 40) ∧
    (∀ t : Fin 8, s.view (0x10C18 + t.val * 0x40) =
      (at' (s.tgt t.val).running 0 ||| at' (s.tgt t.val).stack.length 5 ||| at' (s.tgt t.val).overflow 10 |||
        at' (match (s.tgt t.val).stack with
          | (_, i) :: _ => i
          | [] => 0x3FF) 18 ||| at' (s.tgt t.val).sent.toNat 28 |||
        at' (s.tgt t.val).under.toNat 29 ||| at' (s.selected t.val).isSome.toNat 30)) ∧
    s.view 0x30008 = s.core.doms.extractLsb' 0 64 ∧ s.view 0x30010 = (s.core.doms >>> 64).setWidth 64 ∧
    s.view 0x30300 = (at' s.pwr.absent.toNat 0 ||| at' s.pwr.fallback.toNat 40) ∧
    (∀ n : Fin 6, s.view (0x80048 + n.val * 0x10000) =
      (at' (s.cport n.val).fecCorr 0 ||| at' (s.cport n.val).fecUnc 16 ||| at' (s.cport n.val).crc 32 ||| at' (s.cport n.val).replays 48)) ∧
    (∀ p : Fin 18, s.view (0x100A20 + p.val * 0x10000) =
      (at' (s.gal p.val).rewinds 0 ||| at' (s.gal p.val).csCorr 16 ||| at' (s.gal p.val).sweepFix 32 ||| at' (s.gal p.val).divergences 48)) ∧
    s.view 8 = (at' s.core.block.code 0 ||| (s.reg 8 &&& 0x100) ||| at' s.locked.toNat 9)) ∧
  (∀ (s : State) (o : Nat) (v : Word), s.pilotOnly = true → pilotReg o = false →
    s.view o = 0 ∧ s.regRead o = (0, s) ∧ s.regWrite o v = (false, s))

/-- A register's writable bits take the written value and its other bits keep theirs. Once the charter is locked RWL bits keep theirs too,
and a write that would change one is answered as refused and sets WO_VIOL. Cites R13, R417, R418. -/
def Obligations.LockedFieldsKeepTheirValue : Prop :=
  ∀ (o : Nat) (v : Word) (s : State),
    let m : Word := if s.locked then rwMask o &&& ~~~(rwlMask o) else rwMask o
    let t := s.onCore (Core.setReg o ((s.reg o &&& ~~~m) ||| (v &&& m)))
    (s.storeFields o v).1 = (s.locked && (s.reg o ^^^ v) &&& rwlMask o != 0) ∧
    (s.storeFields o v).2 = if s.locked && (s.reg o ^^^ v) &&& rwlMask o != 0 then t.lockViol else t

/-- A write of a configuration register whose table gives it no behaviour of its own (SIMMER_CTL, SKL_CTL, FRZ_CTL, FLT_CTL and LOG_CTL are
named) sets its writable bits and nothing else. At an offset that is no multiple of 8, or that no table names, nothing changes. INST_ID
written with another number once a Culvert port has been enabled takes the number, with the open effect of R4 beside it (log entry 2). Cites
R13, R302, R559, R560. -/
def Obligations.GenericRegisterWrite : Prop :=
  (∀ (s : State) (off : RegOff) (v : Word), s.Able → s.pilotOnly = false →
    (off = 0x110 ∨ off = 0x140 ∨ off = 0x20600 ∨ off = 0x20400 ∨ off = 0x43000) →
    exec (.genericRegisterWrite off v) s = .next (State.finish s { s with
      core := s.core.setReg off.toNat ((s.reg off.toNat &&& ~~~(rwMask off.toNat)) ||| (v &&& rwMask off.toNat)) })) ∧
  (∀ (s : State) (off : RegOff) (v : Word), s.Able → (off.toNat % 8 ≠ 0 ∨ (0x50000 ≤ off.toNat ∧ off.toNat < 0x80000) ∨ 0x220000 ≤ off.toNat) →
    exec (.genericRegisterWrite off v) s = .next (State.finish s s)) ∧
  ∀ (s : State) (v : Word), s.Able → s.pilotOnly = false → s.locked = false → s.cul.used = true → v.extractLsb' 0 6 ≠ s.self →
    exec (.genericRegisterWrite 0x10 v) s =
      .next (State.finish s ((s.onCore (Core.setReg 0x10 ((s.reg 0x10 &&& ~~~0x3F) ||| (v &&& 0x3F)))).upset))

/-- With the registers reachable: a write of FLT_ACK with ACK stores SOURCE and frees the slot that holds it. A write of FLT_PTR.RD moves RD
unless more than 1,024 entries would lie between RD and WR; then it is ignored. A RELEASE of one pin releases it at once when no pulse runs
and the block is not SEALED, and else waits for the pulse's end. Cites R366, R367, R370, R373. -/
def Obligations.FaultRegisterWrites : Prop :=
  (∀ (s : State) (v : Word), s.Able → s.pilotOnly = false → bit v 16 = true → exec (.fltAckWrite v) s = .next (State.finish s { s with
    core := { s.core.setReg 0x20408 ((s.reg 0x20408 &&& ~~~0x7FF) ||| (v &&& 0x7FF)) with
      flt := { s.core.flt with slots := s.core.flt.slots.filter (fun e => match e.2 with
        | some x => x.src != bits v 10 0
        | none => false) } } })) ∧
  (∀ (s : State) (v : Word), s.Able → s.pilotOnly = false →
    let rd : BitVec 11 := BitVec.ofNat 11 (bits v 26 16)
    exec (.fltPtrRdWrite v) s = .next (State.finish s
      (if (s.core.flt.wr - rd).toNat ≤ 1024 then { s with core := { s.core with flt := { s.core.flt with rd := rd } } } else s))) ∧
  (∀ (s : State) (v : Word), s.Able → s.pilotOnly = false → bit v 24 = true → bit v 25 = false → exec (.errOutRelease v) s =
    .next (State.finish s { s with core := { s.core.setReg 0x20440 ((s.reg 0x20440 &&& ~~~0x303FF) ||| (v &&& 0x303FF)) with
      flt := { s.core.flt with
        pin0 := if s.core.flt.pin0.pulse then { s.core.flt.pin0 with release := true }
        else { s.core.flt.pin0 with asserted := decide (s.core.block = .sealed_), release := false } } } })) ∧
  (∀ (s : State) (v : Word), s.Able → s.pilotOnly = false → bit v 24 = false → bit v 25 = true → exec (.errOutRelease v) s =
    .next (State.finish s { s with core := { s.core.setReg 0x20440 ((s.reg 0x20440 &&& ~~~0x303FF) ||| (v &&& 0x303FF)) with
      flt := { s.core.flt with
        pin1 := if s.core.flt.pin1.pulse then { s.core.flt.pin1 with release := true }
        else { s.core.flt.pin1 with asserted := decide (s.core.block = .sealed_), release := false } } } }))

/-- With the registers reachable: a write of CNT_VAL sets its counter to the low 48 bits. A write of LOG_PTR.RD moves RD, but is ignored
while SPILL is 1 or when more than 2,048 records would lie between RD and WR. A write of LOG_MEM.RD moves RD unless it would pass WR. Cites
R535, R545, R546, R548. -/
def Obligations.WatchRegisterWrites : Prop :=
  ∀ (s : State) (v : Word), s.Able → s.pilotOnly = false →
    (∀ c : Fin 408, exec (.cntValWrite c v) s = .next (State.finish s { s with
      watch := { s.watch with val := mset 0 s.watch.val c.val (bits v 47 0) } })) ∧
    (let rd : BitVec 12 := BitVec.ofNat 12 (bits v 27 16);
      exec (.logPtrRdWrite v) s = .next (State.finish s
        (if bit (s.reg 0x43000) 1 = true ∨ 2048 < (s.watch.wr - rd).toNat then s else { s with watch := { s.watch with rd := rd } }))) ∧
    (let rd : BitVec 32 := BitVec.ofNat 32 (bits v 63 32);
      exec (.logMemRdWrite v) s = .next (State.finish s
        (if (s.watch.memWr - rd).toNat ≤ (s.watch.memWr - s.watch.memRd).toNat then { s with watch := { s.watch with memRd := rd } } else s)))

/-- With the registers reachable, GATE_PAUSE_WRITE and GATE_UPDATE_WRITE set GATE_CTL(e)'s four fields from the written value. With PAUSE
written 1 nothing else changes. With PAUSE written 0 what a pause held is handed on: the Larder, Overflow and Dump engines' work and the
slices' write-backs. Cites R553, R556, R557. -/
def Obligations.GateRegisterWrites : Prop :=
  ∀ (s : State) (e : Fin 6) (v : Word), s.Able → s.pilotOnly = false →
    let t := s.onCore (Core.setReg (0x44000 + e.val * 0x200) ((s.reg (0x44000 + e.val * 0x200) &&& ~~~0xF) ||| (v &&& 0xF)))
    let u := if bit v 2 then t else t.gateResume
    exec (.gatePauseWrite e v) s = .next (State.finish s u) ∧ exec (.gateUpdateWrite e v) s = .next (State.finish s u)

/-- GO in a slice that is neither split nor DARK forces one difference. A SIEVE_REMAP entry with VALID 0 is stored at once while the slice
has power; one for a Local Sieve way that holds an entry waits while the spill buffer is full. Either takes the place of a write of the
register that waits. A slower clock takes effect at once in a DARK, READY, SPARE or SEALED slice and waits in another, and a faster one asks
30 units of leave. WAKE starts INIT in PILOT while PWR_GOOD is asserted, and does nothing otherwise. ENABLE 1 on a RESET or DOWN port that
is not sealed asks leave to train, and stores CUL_CTL (after lock, with DATELINE as it was); ENABLE 0 takes a port that is not OFF to RESET
with REASON DISABLED. Cites R185, R302, R304, R342, R481, R491. -/
def Obligations.UnitRegisterWrites : Prop :=
  (∀ (s : State) (p : Fin 18) (v : Word), s.Able → s.pilotOnly = false → bit v 0 = true → (s.gal p.val).split = false →
    (s.slice p.val).st ≠ .dark → exec (.galInjectGo p v) s = .next (State.finish s
      ((s.onCore (Core.setReg (0x100A28 + p.val * 0x10000) ((s.reg (0x100A28 + p.val * 0x10000) &&& ~~~6) ||| (v &&& 6)))).onGal p.val
        (fun g => { g with inject := true })))) ∧
  (∀ (s : State) (p : Fin 18) (k : Fin 16) (v : Word), s.Able → s.pilotOnly = false → s.core.doms.getLsbD (3 * p.val) = true →
    let wait : List (Nat × Word) := (s.slice p.val).remapWait.filter (fun e => e.1 != k.val)
    (bit v 0 = false → exec (.sieveRemapWrite p k v) s = .next (State.finish s (s.onCore (fun c =>
      (c.onSlice p.val (fun x => { x with remapWait := wait })).setReg (offRemap p.val k.val) (v &&& 0x7FFFF))))) ∧
    (bit v 0 = true → bit v 1 = true → bits v 18 6 < 2 ^ Config.lsLog2Sets → mhas (s.slice p.val).ls (wayKey (bits v 18 6) (bits v 5 2)) = true →
      (s.slice p.val).spill.length = 16 → exec (.sieveRemapWrite p k v) s = .next (State.finish s (s.onCore (fun c =>
      (c.onSlice p.val (fun x => { x with remapWait := wait })).onSlice p.val (fun x => { x with remapWait := x.remapWait ++ [(k.val, v &&& 0x7FFFF)] })))))) ∧
  (∀ (s : State) (p : Fin 18) (v : Word), s.Able → s.pilotOnly = false →
    let t := s.onCore (Core.setReg (0x30200 + p.val * 8) (v &&& 7))
    (divOf v < (s.gal p.val).div → (s.gal p.val).divLeave = false → s.pwr.queue = [] → s.pwr.shown = none →
      exec (.clkSliceDivWrite p v) s = .next (State.finish s (t.leaveAsk ⟨lvWake, 30, [.divider p.val]⟩))) ∧
    ((s.gal p.val).div < divOf v → ((s.slice p.val).st = .dark ∨ (s.slice p.val).st = .ready ∨ (s.slice p.val).st = .spare ∨ (s.slice p.val).st = .sealed_) →
      exec (.clkSliceDivWrite p v) s = .next (State.finish s (t.onGal p.val (fun g => { g with div := divOf v, divLeave := false })))) ∧
    ((s.gal p.val).div ≤ divOf v → ((s.slice p.val).st = .serving ∨ (s.slice p.val).st = .draining ∨ (s.slice p.val).st = .proof ∨ (s.slice p.val).st = .waking) →
      exec (.clkSliceDivWrite p v) s = .next (State.finish s t))) ∧
  (∀ (s : State) (v : Word), s.tow.waiting = [] → bit v 0 = true → s.pwr.good = true → s.core.block = .pilot →
    exec (.plCtlWake v) s = .next (State.finish s (({ s with pwr := { s.pwr with cause := 3 } }).enterInit))) ∧
  (∀ (s : State) (v : Word), s.tow.waiting = [] → (s.core.block ≠ .pilot ∨ s.pwr.good = false ∨ bit v 0 = false) → exec (.plCtlWake v) s = .next (State.finish s s)) ∧
  (∀ (s : State) (n : Fin 6) (v : Word), s.Able → s.pilotOnly = false → (s.locked = true → bit v 3 = bit (s.reg (0x80000 + n.val * 0x10000)) 3) → s.core.flt.sealCul.getLsbD n.val = false →
    ((s.cport n.val).st = .reset ∨ (s.cport n.val).st = .down) → bit v 0 = true →
    let o := 0x80000 + n.val * 0x10000
    exec (.culEnableWrite n v) s = .next (State.finish s
      (((({ s with core := s.core.setReg o ((s.reg o &&& ~~~0x1F) ||| (v &&& 0x1F)), cul := { s.cul with used := true } }).onPort n.val
        (fun y => { y with wait := true }))).trainAsk n.val))) ∧
  (∀ (s : State) (n : Fin 6) (v : Word), s.Able → s.pilotOnly = false → (s.locked = true → bit v 3 = bit (s.reg (0x80000 + n.val * 0x10000)) 3) → (s.cport n.val).st ≠ .off → bit v 0 = false →
    let o := 0x80000 + n.val * 0x10000
    exec (.culDisableWrite n v) s = .next (State.finish s
      (({ s with core := s.core.setReg o ((s.reg o &&& ~~~0x1F) ||| (v &&& 0x1F)) }).culLeave n.val .reset reDisabled)))

/-- For a listed opcode, the first status that applies is DENIED, then BAD_LENGTH, then BAD_PARAM, then WRONG_STATE, then BUSY, then FAILED
when CHAIN is set and the chain condition does not hold; only when none applies does the command run. An opcode that no table lists answers
BAD_OPCODE above PILOT. A command that is answered so changes nothing but its transport's reply, the chain condition and the counter of open
values; a RESULT that no rule gives is open. Cites R406. -/
def Obligations.CommandChecksInOrder : Prop :=
  (∀ (r : TowRow) (c : TowCmd) (s : State),
    (State.towCheck r c s).map Prod.fst =
      if decide (r.least < s.towPriv c.via) || r.denied s c then some 0x30
      else if r.lengthBad s c then some 0x12
      else if r.paramBad s c then some 0x11
      else if r.stateBad s c then some 0x20
      else if r.isBusy s c then some 0x21
      else if c.flags.getLsbD 0 && !s.chainHolds c.via then some 0x40
      else none) ∧
  (∀ (r : TowRow) (c : TowCmd) (s : State) (st : BitVec 8) (res : Option Word),
    ¬(s.core.block = .pilot ∧ r.states.contains .pilot = false) → State.towCheck r c s = some (st, res) →
    ∃ (w : Word) (n : Nat), (∀ v : Word, res = some v → w = v) ∧
      s.towTake r c = (({ s with core := { s.core with freeCtr := n } }).sendReply c.via ⟨r.op, c.tag, st, 0, w, []⟩).setPrev c.via .bad) ∧
  (∀ (c : TowCmd) (s : State) (op : BitVec 8), s.core.block ≠ .pilot → rowOf op = none →
    ∃ (w : Word) (n : Nat),
      s.towTakeOp op c = (({ s with core := { s.core with freeCtr := n } }).sendReply c.via ⟨op, c.tag, 0x10, 0, w, []⟩).setPrev c.via .bad) ∧
  ∀ (v : Via) (y : Reply) (s : State),
    (s.sendReply v y).irq = s.irq ∧ (s.sendReply v y).watch = s.watch ∧ (s.sendReply v y).gals = s.gals ∧ (s.sendReply v y).cul = s.cul ∧
    (s.sendReply v y).pwr = s.pwr ∧ (s.sendReply v y).start = s.start ∧ (s.sendReply v y).pending = s.pending ∧
    ∃ l : List Out, (s.sendReply v y).core = { s.core with out := l ++ s.core.out }

/-- A command of any row runs as its row says, under the next free name, from the state in which its packet has been taken, it is listed as
running and, if it is long, its first reply of status ACCEPTED and KIND 0x01 has gone to its transport. A command whose transport still owes
an earlier reply waits behind it, in order. Cites R406, R407, R410. -/
def Obligations.AcceptedCommandRuns : Prop :=
  (∀ (r : TowRow) (c : TowCmd) (s : State), s.Takes r c → State.towRow r c s = r.run s.tow.nextCmd c (s.begun r c)) ∧
  ∀ (r : TowRow) (c : TowCmd) (s : State), s.viaOpen c.via = true → s.towHeld c.via = true →
    State.towRow r c s = (s.viaTaken r.op c).onTow (fun t => { t with waiting := t.waiting ++ [(r.op, c)] })

/-- When the first listed command of a name ends, it is no longer running. A short command's end sends a reply of KIND 0x00. A long one's
end, on the streaming port, sends a completion of KIND 0x02; from a window it is held and sets DONE; from the two-wire port it is held; and
a long command whose tag TRANSPORT_RESET has freed sends and holds nothing. A reply to a window is written into DB_RPL0, DB_RPL1 and
DB_DATA, with BUSY cleared and REPLY set. Cites R404, R407, R411, R412, R413. -/
def Obligations.RepliesByTransport : Prop :=
  ∀ (s : State) (q : Running) (st : BitVec 8) (res : Word) (l : List Word),
    s.tow.running.find? (fun r => r.id = q.id) = some q →
    let t : State := { s with tow := { s.tow with
      running := s.tow.running.filter (fun r => r.id != q.id)
      prev := if mget Prev.none s.tow.prev (viaCode q.via) = .run q.id then
        mset Prev.none s.tow.prev (viaCode q.via) (if st = 0 then .ok else .bad) else s.tow.prev } }
    (q.long = false → s.complete q.id st res l = t.sendReply q.via ⟨q.op, q.tag, st, 0, res, l⟩) ∧
    (q.long = true → q.live = false → s.complete q.id st res l = t) ∧
    (q.long = true → q.live = true → q.via = .stream → s.complete q.id st res l = t.sendReply .stream ⟨q.op, q.tag, st, 2, res, l⟩) ∧
    (q.long = true → q.live = true → q.via = .wire →
      s.complete q.id st res l = { t with tow := { t.tow with held := t.tow.held ++ [⟨.wire, q.tag, st, res, l⟩] } }) ∧
    (∀ w : Fin 8, q.long = true → q.live = true → q.via = .window w →
      s.complete q.id st res l = { t with tow := { t.tow with
        held := t.tow.held ++ [⟨.window w, q.tag, st, res, l⟩]
        windows := mset Window.none t.tow.windows w.val { t.window w.val with done := true } } }) ∧
    ∀ (w : Fin 8) (y : Reply), s.sendReply (.window w) y = { s with tow := { s.tow with
      windows := mset Window.none s.tow.windows w.val { s.window w.val with
        rpl0 := y.words.headD 0, rpl1 := y.result, data := dataWords (s.window w.val).data y.payload, busy := false, reply := true } } }

/-- Each, once taken, completes with OK in the same step. NOP has RESULT 0. IDENTIFY returns four words: TWK_VER; instance, state,
LEADER_ELIGIBLE and the two-wire address; the digest; privilege and transport; before STANDBY the instance and the digest read 0. TAG_QUERY
of a held completion frees it and returns its status and RESULT with its payload, else 1 for a tag in use (running, or on the streaming port
with its completion not yet delivered) and 0 for a free one. TRANSPORT_RESET frees every tag of the transport, drops its held completions,
and returns their number. Cites R420, R421, R422, R423. -/
def Obligations.SessionCommands : Prop :=
  (∀ (s : State) (c : TowCmd), s.Takes rowNop c →
    exec (.nop c) s = .next (State.finish s ((s.begun rowNop c).complete s.tow.nextCmd 0 0 []))) ∧
  (∀ (s : State) (c : TowCmd), s.Takes rowIdentify c →
    let b := s.begun rowIdentify c
    let early := decide (b.core.block = .pilot ∨ b.core.block = .init)
    exec (.identify c) s = .next (State.finish s (b.completePay s.tow.nextCmd
      [0x20000,
       at' b.core.block.code 8 ||| at' b.pwr.strapLeader.toNat 16 ||| at' b.pwr.strapAddr.toNat 24 ||| (if early then 0 else at' b.self.toNat 0),
       if early then 0 else Config.digest, at' (b.towPriv c.via) 0 ||| at' (viaWord c.via) 0]))) ∧
  (∀ (s : State) (c : TowCmd), s.Takes rowTagQuery c →
    let b := s.begun rowTagQuery c
    let mine (r : Running) : Bool := r.long && r.live && viaSame r.via c.via && r.tag = c.param.setWidth 8
    exec (.tagQuery c) s = .next (State.finish s
      (match b.tow.held.find? (fun h => viaSame h.via c.via && h.tag = c.param.setWidth 8) with
       | some h => (b.freeHeld h).complete s.tow.nextCmd 0 (at' 2 0 ||| at' h.status.toNat 8 ||| (h.result <<< 16)) h.payload
       | none => b.complete s.tow.nextCmd 0
           (if b.tow.running.any mine || (c.via = .stream && b.tow.replies.any (fun e => e.1 = some (c.param.setWidth 8))) then 1 else 0) []))) ∧
  ∀ (s : State) (c : TowCmd), s.Takes rowTransportReset c →
    let b := s.begun rowTransportReset c
    let mine (r : Running) : Bool := r.long && r.live && viaSame r.via c.via
    let gone (h : Held) : Bool := viaSame h.via c.via
    exec (.transportReset c) s = .next (State.finish s (({ b with tow := { b.tow with
      running := updateWhere mine (fun r => { r with live := false }) b.tow.running
      held := b.tow.held.filter (fun h => !gone h)
      replies := if c.via = Via.stream then b.tow.replies.map (fun (e : Option (BitVec 8) × List Word) => (none, e.2)) else b.tow.replies } }).complete s.tow.nextCmd 0
        (at' ((b.tow.running.filter mine).length + (b.tow.held.filter gone).length +
          (if c.via = Via.stream then (b.tow.replies.filter (fun (e : Option (BitVec 8) × List Word) => e.1.isSome)).length else 0)) 0) []))

/-- Each, once taken, completes in the same step. One that moves INST_ID after a port was enabled has an unpredictable result as well (R4,
R302): what R4 allows happens beside it. REG_READ answers the register and has its read effects. REG_READ_BLOCK answers a run of registers,
each read in ascending order. REG_WRITE writes the word, and answers OK, or LOCKED where a field refused. REG_WRITE_MASKED replaces the
masked bits of the value read with no side effect, and answers the old value. CHARTER_LOAD applies offset and value pairs in order,
answering how many it applied, or the index of the first pair whose offset is not legal with BAD_PARAM. Reading n + 1 registers from an
offset reads the first and then n from the next multiple of 8, in the state the first left. Applying pairs writes the first and goes on in
the state it left, and stops with the pair's index where an offset has a bit above 23 set or is no multiple of 8. Cites R4, R302, R418,
R424, R426. -/
def Obligations.RegisterCommands : Prop :=
  ((∀ (s : State) (c : TowCmd), s.Takes rowRegRead c →
    let x := (s.begun rowRegRead c).regRead (bits c.param 23 0)
    exec (.regRead c) s = .next (State.finish s (x.2.complete s.tow.nextCmd 0 x.1 []))) ∧
  (∀ (s : State) (c : TowCmd), s.Takes rowRegReadBlock c →
    let x := (s.begun rowRegReadBlock c).regReads (bits c.param 47 32) (bits c.param 23 0)
    exec (.regReadBlock c) s = .next (State.finish s (x.2.completePay s.tow.nextCmd x.1))) ∧
  (∀ (s : State) (c : TowCmd), s.Takes rowRegWrite c →
    let x := (s.begun rowRegWrite c).regWrite (bits c.param 23 0) (c.payload.headD 0)
    let t := x.2.complete s.tow.nextCmd (if x.1 then 0x31 else 0) 0 []
    exec (.regWrite c) s =
      .next (State.finish s (if s.idMoved t then t.upset else t))) ∧
  (∀ (s : State) (c : TowCmd), s.Takes rowRegWriteMasked c →
    let b := s.begun rowRegWriteMasked c
    let old := b.view (bits c.param 23 0)
    let m := c.payload.getD 1 0
    let x := b.regWrite (bits c.param 23 0) ((old &&& ~~~m) ||| (c.payload.getD 0 0 &&& m))
    let t := x.2.complete s.tow.nextCmd (if x.1 then 0x31 else 0) old []
    exec (.regWriteMasked c) s =
      .next (State.finish s (if s.idMoved t then t.upset else t))) ∧
  (∀ (s : State) (c : TowCmd), s.Takes rowCharterLoad c →
    let x := (s.begun rowCharterLoad c).loadPairs c.payload 0 false
    let t := match x.1 with
      | some k => x.2.2.2.complete s.tow.nextCmd 0x11 (at' k 0) []
      | none => x.2.2.2.complete s.tow.nextCmd (if x.2.1 then 0x31 else 0) (at' x.2.2.1 0) []
    exec (.charterLoad c) s =
      .next (State.finish s (if s.idMoved t then t.upset else t))) ∧
  ∀ (s t : State), s.idMoved t = (s.cul.used && t.cul.used && s.self != t.self)) ∧
  ((∀ (n o : Nat) (s : State), s.regReads 0 o = ([], s) ∧
    s.regReads (n + 1) o = ((s.regRead o).1 :: ((s.regRead o).2.regReads n (o + 8)).1, ((s.regRead o).2.regReads n (o + 8)).2)) ∧
  (∀ (o v : Word) (l : List Word) (n : Nat) (r : Bool) (s : State), bits o 63 24 = 0 → bits o 23 0 % 8 = 0 →
    s.loadPairs (o :: v :: l) n r = (s.regWrite (bits o 23 0) v).2.loadPairs l (n + 1) (r || (s.regWrite (bits o 23 0) v).1)) ∧
  ∀ (o v : Word) (l : List Word) (n : Nat) (r : Bool) (s : State), (bits o 63 24 ≠ 0 ∨ bits o 23 0 % 8 ≠ 0) →
    s.loadPairs (o :: v :: l) n r = (some n, r, n, s))

/-- Each, once taken, answers a next state. CHARTER_CHECK answers OK or BAD_PARAM with the first failing check's code and entry.
CHARTER_COMMIT runs the local checks and reports to the leader. CHARTER_RELEASE unlocks the charter. DISCOVER starts its round. GEN_ADVANCE
sets LARDER_GEN, asks 20 units of leave and answers the old generation. SERVICE_ENTER takes the block to SERVICE, or to FROZEN while a
freeze is under way. In CHARTERED, with its other checks passed and outside a power-fail hold, SERVICE_ENTER answers WRONG_STATE with RESULT
1 while LARDER_GEN is 0, and with RESULT 2 while a logical slice that the Trim setting serves is mapped to no slice. Neither changes the
block's state. Cites R146, R406, R428, R430, R431, R504, R599. -/
def Obligations.DomainCommands : Prop :=
  ((∀ (s : State) (c : TowCmd), s.Takes rowCharterCheck c →
    let b := s.begun rowCharterCheck c
    let x := b.charterCheck
    exec (.charterCheck c) s = .next (State.finish s (b.complete s.tow.nextCmd (if x.1 = 0 then 0 else 0x11)
      (if x.1 = 0 then 0 else at' x.1 0 ||| at' x.2 8 ||| at' b.self.toNat 16) []))) ∧
  (∀ (s : State) (c : TowCmd), s.Takes rowCharterCommit c →
    exec (.charterCommit c) s = .next (State.finish s ((s.begun rowCharterCommit c).charterCommit s.tow.nextCmd c.param))) ∧
  (∀ (s : State) (c : TowCmd), s.Takes rowCharterRelease c →
    let b := s.begun rowCharterRelease c
    let t : State := { b with start := { b.start with commit := { b.start.commit with all := false, lockedId := none, reports := [] } } }
    exec (.charterRelease c) s = .next (State.finish s ((t.onCore Core.charterRelease).complete s.tow.nextCmd 0 0 []))) ∧
  (∀ (s : State) (c : TowCmd), s.Takes rowDiscover c →
    let b := s.begun rowDiscover c
    let d : Disc := { b.start.disc with
      cmd := some s.tow.nextCmd, round := c.param.setWidth 8, send := 0, resent := false, found := [] }
    exec (.discover c) s = .next (State.finish s
      ((({ b with start := { b.start with disc := d } }).helloRecord b.self b.ownP).helloSend))) ∧
  (∀ (s : State) (c : TowCmd), s.Takes rowGenAdvance c →
    let b := s.begun rowGenAdvance c
    let t : State := { b with core := { b.core with eng := { b.core.eng with generation := c.param.setWidth 48, genLeave := true } } }
    exec (.genAdvance c) s = .next (State.finish s
      ((t.leaveAsk ⟨lvGen, 20, [.generation]⟩).complete s.tow.nextCmd 0 (b.core.eng.generation.setWidth 64) []))) ∧
  ∀ (s : State) (c : TowCmd), s.Takes rowServiceEnter c →
    let b := s.begun rowServiceEnter c
    exec (.serviceEnter c) s = .next (State.finish s
      (({ b with core := { b.core with block := if b.core.frz.st = 0 then .service else .frozen } }).complete s.tow.nextCmd 0 0 []))) ∧
  (∀ (s : State) (c : TowCmd), s.tow.waiting = [] → s.viaOpen c.via = true → s.towHeld c.via = false → s.core.block = .chartered →
    s.towPriv c.via = 0 → c.payload = [] → c.target = 0xFF → c.flags &&& 0xFE = 0 → c.resv = 0 → c.param = 0 →
    (s.core.eng.generation = 0 ∨ ∃ l : Nat, l < trimSize s.core.host.trim ∧ s.core.mapped l = false) →
    let b := s.viaTaken 0x26 c
    let why : Word := if s.core.eng.generation = 0 then 1 else 2
    wirIntrusive s.pwr.wir = false → s.core.pf.hold = false →
    exec (.serviceEnter c) s = .next (State.finish s ((b.sendReply c.via ⟨0x26, c.tag, 0x20, 0, why, []⟩).setPrev c.via .bad)))

/-- AGENT_ADMIT of an agent without a tombstone, or of another instance, clears its tombstone, sets ADMITTED and completes; that of an own
tombstoned agent starts a sweep. AGENT_RETIRE of another instance's agent clears ADMITTED and completes; at the own instance it waits.
AGENT_RETIRE_LIMIT declares a waiting agent dead with cause COMMAND, and marks the retirement as one that its limit ended.
AGENT_ADMIT_SWEEP_DONE ends a sweep that has read every bucket and has nothing left to resolve. Cites R390, R429, R525. -/
def Obligations.AgentCommands : Prop :=
  (∀ (s : State) (c : TowCmd), s.Takes rowAgentAdmit c →
    let b := s.begun rowAgentAdmit c
    let a : AgentId := c.param.setWidth 12
    (b.core.tombed a = false ∨ agentInst a ≠ b.self → exec (.agentAdmit c) s = .next (State.finish s
      ((b.onCore (fun k => (k.untomb a).setAdmitted a true)).complete s.tow.nextCmd 0 0 []))) ∧
    (b.core.tombed a = true → agentInst a = b.self → exec (.agentAdmit c) s = .next (State.finish s
      (let k := b.onCore (Core.sweepHere (agentLocal a)); { k with start := { k.start with admits := k.start.admits ++ [⟨s.tow.nextCmd, a, 0⟩] } })))) ∧
  (∀ (s : State) (c : TowCmd), s.Takes rowAgentRetire c →
    let b := s.begun rowAgentRetire c
    let a : AgentId := c.param.setWidth 12
    (agentInst a ≠ b.self → exec (.agentRetire c) s = .next (State.finish s ((b.onCore (Core.setAdmitted a false)).complete s.tow.nextCmd 0 0 []))) ∧
    (agentInst a = b.self → exec (.agentRetire c) s = .next (State.finish s
      { b with start := { b.start with retires := b.start.retires ++ [⟨s.tow.nextCmd, a, false, false⟩] } }))) ∧
  (∀ (s : State) (a : AgentId), s.Able → s.start.retires.any (fun r => r.agent = a && !r.dead) = true →
    exec (.agentRetireLimit a) s = .next (State.finish s
      (({ s with start := { s.start with
        retires := updateWhere (fun r => r.agent = a) (fun r => { r with dead := true, late := true }) s.start.retires } }).onCore
        (Core.declare 7 (agentInst a) (oneHot 64 (agentLocal a).toNat))))) ∧
  ∀ (s : State) (a : AgentId) (d : Admit), s.Able → s.start.admits.find? (fun e => e.agent = a) = some d → s.core.buckets ≤ d.next →
    s.core.sweeping (agentLocal a) = false → exec (.agentAdmitSweepDone a) s = .next (State.finish s
      ((({ s with start := { s.start with admits := s.start.admits.filter (fun e => e.cmd != d.cmd) } }).onCore
        (fun k => (k.untomb a).setAdmitted a true)).complete d.cmd 0 0 []))

/-- Setting or clearing ADMITTED of an agent changes that agent's bit of CHARTER_AGENT and no other agent's, and clearing a tombstone clears
that agent's bit and no other agent's. Cites R391, R429, R525. -/
def Obligations.AdmittedBit : Prop :=
  (∀ (a : AgentId) (v : Bool) (s : Core), mrising 0 s.regs = true → (s.setAdmitted a v).admitted a = v ∧
    ∀ b : AgentId, b ≠ a → (s.setAdmitted a v).admitted b = s.admitted b) ∧
  ∀ (a : AgentId) (s : Core), Map.wf 0 s.host.tomb = true → (s.untomb a).tombed a = false ∧
    ∀ b : AgentId, b ≠ a → (s.untomb a).tombed b = s.tombed b

/-- Each, once taken, answers a next state. SLICE_POWER switches the slice's domains to its mask. SLICE_SPARE takes a READY slice to SPARE.
SLICE_SERVE maps the logical slice to the target and starts it. SLICE_DRAIN and SLICE_SWAP start a drain of the target. SLICE_FAILOVER seals
its target, and completes at once where it serves nothing. LS_REBUILD starts open mode and a census for the logical slices of its mask, and
answers the census number; a mask of 0 starts none. Cites R419, R433, R434, R436, R501, R516, R518. -/
def Obligations.SliceCommands : Prop :=
  (∀ (s : State) (c : TowCmd), s.Takes rowSlicePower c → exec (.slicePower c) s = .next (State.finish s
    ((s.begun rowSlicePower c).slicePower c.target.toNat (bits c.param 2 0) (some s.tow.nextCmd)))) ∧
  (∀ (s : State) (c : TowCmd), s.Takes rowSliceSpare c → exec (.sliceSpare c) s = .next (State.finish s
    (((s.begun rowSliceSpare c).onCore (Core.onSlice c.target.toNat (fun x => { x with st := .spare }))).complete s.tow.nextCmd 0 0 []))) ∧
  (∀ (s : State) (c : TowCmd), s.Takes rowSliceServe c →
    let b := s.begun rowSliceServe c
    exec (.sliceServe c) s = .next (State.finish s ((b.onCore (fun k => Core.rehome b.core []
      ((k.mapTo (bits c.param 3 0) c.target.toNat).serve (bits c.param 3 0) c.target.toNat))).complete s.tow.nextCmd 0 0 []))) ∧
  (∀ (s : State) (c : TowCmd), s.Takes rowSliceDrain c →
    let b := s.begun rowSliceDrain c
    let p := c.target.toNat
    exec (.sliceDrain c) s = .next (State.finish s ((b.drainMark [p]).drainStart ⟨s.tow.nextCmd, .drain p (bit c.param 0), b.core.tb, [p]⟩))) ∧
  (∀ (s : State) (c : TowCmd), s.Takes rowSliceSwap c →
    let b := s.begun rowSliceSwap c
    let p := c.target.toNat
    exec (.sliceSwap c) s = .next (State.finish s ((b.drainMark [p]).drainStart
      ⟨s.tow.nextCmd, .swap p (bits c.param 4 0) (bit c.param 8), b.core.tb, [p]⟩))) ∧
  (∀ (s : State) (c : TowCmd), s.Takes rowSliceFailover c →
    let b := s.begun rowSliceFailover c
    let p := c.target.toNat
    exec (.sliceFailover c) s = .next (State.finish s
      (if b.core.serves p then b.onCore (Core.sealSlice p (some s.tow.nextCmd))
       else (b.onCore (Core.sealSlice p none)).complete s.tow.nextCmd 0 ((b.onCore (Core.sealSlice p none)).view 0x20808) []))) ∧
  ∀ (s : State) (c : TowCmd), s.Takes rowLsRebuild c →
    let b := s.begun rowLsRebuild c
    let m : BitVec 16 := c.param.setWidth 16
    let t := if m = 0 then b else b.onCore (Core.openStart m)
    exec (.lsRebuild c) s = .next (State.finish s (t.complete s.tow.nextCmd 0 (at' t.core.eng.censusSeq.toNat 0) []))

/-- Each, once taken, answers a next state. MC_LOAD_OPEN sets the standby store of every legal slice of its target LOADING and empty, and
answers the mask of slices skipped. MC_LOAD_DATA appends its payload to each loading store and answers the bytes received. MC_LOAD_CLOSE
starts the images' checks, and IMAGE_VERIFY_DONE ends one slice's: VERIFIED, or EMPTY with the status of the first check that fails, and
MC_SIG for the signature. The length is checked first, then MAGIC and WORDS; no image passes whose signature does not verify. MC_DISCARD
empties one slice's standby store. Cites R347, R437, R438. -/
def Obligations.ImageLoads : Prop :=
  (∀ (s : State) (c : TowCmd), s.Takes rowMcLoadOpen c →
    let b := s.begun rowMcLoadOpen c
    let ps := (if c.target = 0xFF then List.range 18 else [c.target.toNat]).filter (fun p => loadLegal (b.slice p).st)
    exec (.mcLoadOpen c) s = .next (State.finish s
      ((b.loadOpen c.target.toNat ps (b.loadSkips c) (bits c.param 16 0)).complete s.tow.nextCmd 0 (at' (b.loadSkips c).toNat 0) []))) ∧
  (∀ (s : State) (c : TowCmd), s.Takes rowMcLoadData c →
    let b := s.begun rowMcLoadData c
    exec (.mcLoadData c) s = .next (State.finish s
      ((foldS (fun p s => s.onCore (Core.onSlice p (fun x => { x with
        standby := { x.standby with words := x.standby.words ++ c.payload, next := x.standby.next + 8 * c.payload.length } }))) (b.loading c) b).complete
          s.tow.nextCmd 0 (at' (b.loadGot c + 8 * c.payload.length) 0) []))) ∧
  (∀ (s : State) (c : TowCmd) (l : Load), s.Takes rowMcLoadClose c → (s.begun rowMcLoadClose c).openLoad c = some l →
    exec (.mcLoadClose c) s = .next (State.finish s ((s.begun rowMcLoadClose c).loadClose l s.tow.nextCmd))) ∧
  (∀ (s : State) (c : TowCmd), s.Takes rowMcDiscard c →
    exec (.mcDiscard c) s = .next (State.finish s
      (((s.begun rowMcDiscard c).onCore (Core.onSlice c.target.toNat (fun x => { x with standby := Store.none }))).complete s.tow.nextCmd 0 0 []))) ∧
  (∀ (s : State) (p : Fin 18) (sig : Bool) (l : Load), s.Able →
    s.start.loads.find? (fun l => l.cmd.isSome && l.left.head? = some p.val) = some l →
    let st := s.loadCheck (s.slice p.val).standby sig
    let m : Load := { l with left := l.left.tail, bad := if st = 0 then l.bad else l.bad ++ [(p.val, st.toNat)] }
    let t := s.onCore (Core.onSlice p.val (fun x => { x with
      standby := if st = 0 then { x.standby with st := .verified, valid := true } else Store.none }))
    exec (.imageVerifyDone p sig) s = .next (State.finish s (((if st = 0x41 then t.raise famMcSig p.val else t).putLoad m).loadEnd m))) ∧
  (∀ (s : State) (x : Store) (sig : Bool),
    ((x.next ≠ x.expect ∨ x.expect ≠ 896 + 16 * x.count) → s.loadCheck x sig = 0x12) ∧
    (x.next = x.expect → x.expect = 896 + 16 * x.count → (x.word 0 ≠ 0x303259454C4C4147 ∨ x.count = 0 ∨ 4096 < x.count) →
      s.loadCheck x sig = 0x11) ∧
    s.loadCheck x false ≠ 0)

/-- Each, once taken, answers a next state. MC_ACTIVATE of a SERVING slice waits for a quiesce point; elsewhere it exchanges the images,
runs the mode event where the slice had no image, and completes. MC_PROOF_START takes a SERVING or SPARE slice to PROOF: the window closes,
the pair splits, the check copy goes on with equal registers, and a SPARE slice runs the self-test event. MC_PROOF_END waits for a quiesce
point. MC_PROOF_LOG_READ answers its entries. LK_OVERLAY keeps the command until its fetch ends where its Gate permits the fetch, and fails
where it does not; OVERLAY_END of a running overlay completes it with its result, or with SIGNATURE. Reading n entries from entry i answers
4n words; entry j's four words are the log entry's in order wherever the proof log holds entry j. Only the counter of open values changes.
Cites R350, R351, R353, R354, R438. -/
def Obligations.CutOverAndProof : Prop :=
  ((∀ (s : State) (c : TowCmd), s.Takes rowMcActivate c →
    let b := s.begun rowMcActivate c
    let p := c.target.toNat
    ((b.slice p).st = .serving → exec (.mcActivate c) s = .next (State.finish s (b.onGal p (fun g => { g with wants := g.wants ++ [.cut s.tow.nextCmd] })))) ∧
    let t := if (b.slice p).control.st = .empty then (b.galExchange p).galMode p 1 else b.galExchange p
    ((b.slice p).st ≠ .serving → exec (.mcActivate c) s = .next (State.finish s (t.complete s.tow.nextCmd 0 (t.slice p).control.describe [])))) ∧
  (∀ (s : State) (c : TowCmd), s.Takes rowMcProofStart c →
    let b := s.begun rowMcProofStart c
    let p := c.target.toNat
    let on := decide ((b.slice p).st = .serving)
    let t := b.onCore (Core.onSlice p (fun x => { x with
      st := .proof, proofServing := on, mode := if on then x.mode else .test, standby := { x.standby with st := .inProof } }))
    let u := (t.galClose p (.struck [] [])).onGal p (fun g => { g with
      split := true, diverged := false, stopped := false, log := [], checkMode := (t.slice p).mode, checkRegs := g.regs })
    exec (.mcProofStart c) s = .next (State.finish s ((if on then u else (u.galEnter p 0xF1 0 0).2).complete s.tow.nextCmd 0 0 []))) ∧
  (∀ (s : State) (c : TowCmd), s.Takes rowMcProofEnd c →
    exec (.mcProofEnd c) s = .next (State.finish s ((s.begun rowMcProofEnd c).onGal c.target.toNat
      (fun g => { g with wants := g.wants ++ [.proofEnd (bit c.param 0) (some s.tow.nextCmd)] })))) ∧
  (∀ (s : State) (c : TowCmd), s.Takes rowMcProofLogRead c →
    let x := (s.begun rowMcProofLogRead c).proofEntries c.target.toNat (bits c.param 16 8) (bits c.param 7 0)
    exec (.mcProofLogRead c) s = .next (State.finish s (x.2.completePay s.tow.nextCmd x.1))) ∧
  (∀ (s : State) (c : TowCmd), s.Takes rowLkOverlay c →
    let b := s.begun rowLkOverlay c
    (b.core.gatePermits gateOverlay gExec c.param.toNat = true → exec (.lkOverlay c) s = .next (State.finish s
      { b with start := { b.start with overlay := some ⟨s.tow.nextCmd, c.param.toNat, false, false⟩ } })) ∧
    (b.core.gatePermits gateOverlay gExec c.param.toNat = false → exec (.lkOverlay c) s = .next (State.finish s
      ((b.onCore (Core.gateRefuse gateOverlay gExec c.param.toNat)).completeFree s.tow.nextCmd 0x40)))) ∧
  ∀ (s : State) (o : Overlay) (ok : Bool) (res : Word), s.Able → s.start.overlay = some o → o.running = true →
    let t : State := { s with start := { s.start with overlay := none } }
    exec (.overlayEnd true ok res) s = .next (State.finish s (t.complete o.cmd (if ok then 0 else 0x40) res [])) ∧
    exec (.overlayEnd false ok res) s = .next (State.finish s (t.completeFree o.cmd 0x41))) ∧
  (∀ (p n i : Nat) (s : State),
    (s.proofEntries p n i).1.length = 4 * n ∧ (∃ k : Nat, (s.proofEntries p n i).2 = { s with core := { s.core with freeCtr := k } }) ∧
    ∀ (j w : Nat) (e : BitVec 256), j < n → w < 4 → (s.gal p).log[i + j]? = some e →
      (s.proofEntries p n i).1[4 * j + w]? = some (e.extractLsb' (64 * w) 64))

/-- Each, once taken, answers a next state. DIR_DUMP answers its entries. DIR_REBUILD and LARDER_READ hand their page to the Larder engine;
before the first generation LARDER_READ answers 136 words of zero with RESULT 1. MAINT_ADDR enters an internal operation of its line in the
slice that serves it. MAINT_ENTRY keeps its command until its entry has been dealt with. Cites R247, R248, R439, R440, R441. -/
def Obligations.DirectoryCommands : Prop :=
  (∀ (s : State) (c : TowCmd), s.Takes rowDirDump c → exec (.dirDump c) s = .next (State.finish s
    ((s.begun rowDirDump c).dirDump c.target.toNat (bits c.param 1 0) (bits c.param 24 8) (bits c.param 47 32) s.tow.nextCmd))) ∧
  (∀ (s : State) (c : TowCmd), s.Takes rowDirRebuild c → exec (.dirRebuild c) s = .next (State.finish s
    ((s.begun rowDirRebuild c).onCore (Core.larderOp (bits c.param 26 0) (.towRebuild s.tow.nextCmd))))) ∧
  (∀ (s : State) (c : TowCmd), s.Takes rowLarderRead c →
    let b := s.begun rowLarderRead c
    (b.core.eng.generation = 0 → exec (.larderRead c) s = .next (State.finish s (b.complete s.tow.nextCmd 0 1 (List.replicate 136 0)))) ∧
    (b.core.eng.generation ≠ 0 → exec (.larderRead c) s = .next (State.finish s
      (b.onCore (Core.larderOp (bits c.param 26 0) (.towRead s.tow.nextCmd)))))) ∧
  (∀ (s : State) (c : TowCmd) (o : MaintOp), s.Takes rowMaintAddr c → maintOf (bits c.param 1 0) = some o →
    let b := s.begun rowMaintAddr c
    let x : LineAddr := c.param.extractLsb' 8 48
    exec (.maintAddr c) s = .next (State.finish s (b.onCore (fun k =>
      Core.onSlice (k.physOfLine x) (fun y => { y with internals := y.internals ++ [⟨k.nextId, .maint o s.tow.nextCmd, x, k.arrival⟩] })
        { k with nextId := k.nextId + 1 })))) ∧
  ∀ (s : State) (c : TowCmd) (o : MaintOp), s.Takes rowMaintEntry c → maintOf (bits c.param 9 8) = some o →
    let b := s.begun rowMaintEntry c
    let t : State := { b with start := { b.start with
      maints := b.start.maints ++ [⟨s.tow.nextCmd, c.target.toNat, bits c.param 5 0, o, none⟩] } }
    exec (.maintEntry c) s = .next (State.finish s t.maintReconcile)

/-- Each, once taken, answers a next state. CUL_RETRAIN abandons the port's switches, takes it to RETRAIN, and puts link code RETRAIN in
every header from then on, the first in an IDLE flit. CUL_SPARE orders a receive-side switch of its lane. CUL_ROUTE_RETURN completes at once
with RESULT 0 where no destination of its mask is on ALT with its PRIMARY port ACTIVE and not held. CUL_STATUS answers nine registers of the
port with no read effect. Cites R304, R312, R322, R442, R443. -/
def Obligations.CulvertCommands : Prop :=
  (∀ (s : State) (c : TowCmd), s.Takes rowCulRetrain c →
    let b := s.begun rowCulRetrain c
    let n := c.target.toNat - 0x20
    exec (.culRetrain c) s = .next (State.finish s
      (((b.culAbandon n).onPort n (fun x => { x with
        st := .retrain, sub := .retrain, sent := 0, resend := [], cmd := some s.tow.nextCmd })).sayLm n 3))) ∧
  (∀ (s : State) (c : TowCmd), s.Takes rowCulSpare c →
    exec (.culSpare c) s = .next (State.finish s
      ((s.begun rowCulSpare c).culSpare (c.target.toNat - 0x20) (bits c.param 3 0) (bits c.param 4 4) s.tow.nextCmd))) ∧
  (∀ (s : State) (c : TowCmd), s.Takes rowCulRouteReturn c →
    let b := s.begun rowCulRouteReturn c
    exec (.culRouteReturn c) s = .next (State.finish s (b.routeReturn s.tow.nextCmd c.param)) ∧
    ((∀ d : Nat, d < 64 → c.param.getLsbD d = true → b.cul.onAlt.getLsbD d = true → b.primary d ≤ 5 → (b.cport (b.primary d)).st = .active →
      b.cul.held.getLsbD d = true) → b.routeReturn s.tow.nextCmd c.param = b.complete s.tow.nextCmd 0 0 [])) ∧
  ∀ (s : State) (c : TowCmd), s.Takes rowCulStatus c →
    let b := s.begun rowCulStatus c
    let r (l : Nat) : Word := b.view (0x80000 + (c.target.toNat - 0x20) * 0x10000 + l)
    exec (.culStatus c) s = .next (State.finish s
      (b.completePay s.tow.nextCmd [r 0x00, r 0x08, r 0x10, r 0x20, r 0x28, r 0x30, r 0x38, r 0x40, r 0x48]))

/-- Each, once taken, answers a next state. PWR_TRIM to the present setting completes at once, and else drains what must move. PWR_IDLE 1
puts Idle in force with marker 0x01; PWR_IDLE 0 outside Idle completes at once, and in Idle ends it, first switching on every half that is
off. PWR_DEEP writes marker 0x07, spills the Logbook and sets PL_RST.DEEP. PWR_HALF of a half that stands as asked completes at once.
PF_RELEASE ends the hold with marker 0x0A and answers PF_STAT. PORT_POWER 1 starts the port's domains, and 0 of a port whose domains are off
completes at once. Cites R274, R444, R445, R474, R480. -/
def Obligations.PowerCommands : Prop :=
  (∀ (s : State) (c : TowCmd), s.Takes rowPwrTrim c →
    let b := s.begun rowPwrTrim c
    (bits c.param 1 0 = b.core.host.trim → exec (.pwrTrim c) s = .next (State.finish s (b.complete s.tow.nextCmd 0 0 []))) ∧
    (bits c.param 1 0 ≠ b.core.host.trim → exec (.pwrTrim c) s = .next (State.finish s (b.pwrTrim (bits c.param 1 0)
      (if trimSize b.core.host.trim < trimSize (bits c.param 1 0) then (b.core.trimAdds (bits c.param 1 0)).getD [] else []) s.tow.nextCmd)))) ∧
  (∀ (s : State) (c : TowCmd), s.Takes rowPwrIdle c →
    let b := s.begun rowPwrIdle c
    (bit c.param 0 = true → b.pwr.idle = false → exec (.pwrIdle c) s = .next (State.finish s
      ((({ b with pwr := { b.pwr with idle := true } }).marker 0x01 0).complete s.tow.nextCmd 0 0 []))) ∧
    (bit c.param 0 = b.pwr.idle → bit c.param 0 = true → exec (.pwrIdle c) s = .next (State.finish s (b.complete s.tow.nextCmd 0 0 []))) ∧
    (bit c.param 0 = false → b.pwr.idle = false → exec (.pwrIdle c) s = .next (State.finish s (b.complete s.tow.nextCmd 0 0 []))) ∧
    (bit c.param 0 = false → b.pwr.idle = true → b.halvesOff = [] → exec (.pwrIdle c) s = .next (State.finish s (b.idleLeave s.tow.nextCmd))) ∧
    (bit c.param 0 = false → b.pwr.idle = true → b.halvesOff ≠ [] → exec (.pwrIdle c) s = .next (State.finish s
      (foldS (fun d k =>
        let u := halfUnit ((d - 74) / 2) ((d - 74) % 2)
        if k.pwr.work.any (fun w => w.unit = u && w.on) then k else k.workOn none u [d] false) b.halvesOff
        { b with pwr := { b.pwr with leaving := some s.tow.nextCmd } })))) ∧
  (∀ (s : State) (c : TowCmd), s.Takes rowPwrDeep c →
    let b := (s.begun rowPwrDeep c).marker 0x07 0
    let t := if b.logOn && b.logSpill then (b.traceAll 1024).spillAll 300 else b
    exec (.pwrDeep c) s = .next (State.finish s { t with pwr := { t.pwr with
      deep := true, work := t.pwr.work ++ [⟨some s.tow.nextCmd, 0x44, false, [], false, false, false⟩] } })) ∧
  (∀ (s : State) (c : TowCmd), s.Takes rowPwrHalf c →
    let b := s.begun rowPwrHalf c
    let d := 74 + 2 * bits c.param 0 0 + bits c.param 1 1
    (bit c.param 2 = b.core.doms.getLsbD d → exec (.pwrHalf c) s = .next (State.finish s (b.complete s.tow.nextCmd 0 0 []))) ∧
    (bit c.param 2 = true → b.core.doms.getLsbD d = false → exec (.pwrHalf c) s = .next (State.finish s
      (b.workOn (some s.tow.nextCmd) (halfUnit (bits c.param 0 0) (bits c.param 1 1)) [d] false))) ∧
    (bit c.param 2 = false → b.core.doms.getLsbD d = true → exec (.pwrHalf c) s = .next (State.finish s
      (b.workOff (some s.tow.nextCmd) (halfUnit (bits c.param 0 0) (bits c.param 1 1)) [d])))) ∧
  (∀ (s : State) (c : TowCmd), s.Takes rowPfRelease c →
    let b := s.begun rowPfRelease c
    let t := (((b.onCore Core.pfResume).marker 0x0A 0).culLate).arriveAll
    exec (.pfRelease c) s = .next (State.finish s (t.complete s.tow.nextCmd 0 t.pfStat []))) ∧
  ∀ (s : State) (c : TowCmd), s.Takes rowPortPower c →
    let b := s.begun rowPortPower c
    let u := c.target.toNat
    (bit c.param 0 = true → exec (.portPower c) s = .next (State.finish s (b.workOn (some s.tow.nextCmd) u (unitDoms u) false))) ∧
    (bit c.param 0 = false → (unitDoms u).all (fun d => !b.core.doms.getLsbD d) = true →
      exec (.portPower c) s = .next (State.finish s (b.complete s.tow.nextCmd 0 0 []))) ∧
    (bit c.param 0 = false → (unitDoms u).all (fun d => !b.core.doms.getLsbD d) = false →
      exec (.portPower c) s = .next (State.finish s (b.portPower u false s.tow.nextCmd)))

/-- Each, once taken, answers a next state. CNT_READ answers the counters' values. LOGBOOK_READ answers SRAM records by ring index and moves
nothing. DUMP_NOW starts a dump, or waits for the one in progress and counts in SKIPPED. LOG_READ answers log ring entries, with FLT_PTR as
RESULT, and with ADVANCE moves RD past them. FLT_INJECT reports one event of its source and answers its log number, or 0xFFFF_FFFF for none.
SEAL_BLOCK completes and then seals the block. Cites R446, R447, R448, R400, R538. -/
def Obligations.ObservabilityCommands : Prop :=
  (∀ (s : State) (c : TowCmd), s.Takes rowCntRead c →
    let b := s.begun rowCntRead c
    exec (.cntRead c) s = .next (State.finish s (b.completePay s.tow.nextCmd
      ((List.range (bits c.param 17 9)).map (fun k => b.view (0x40000 + 8 * (bits c.param 8 0 + k))))))) ∧
  (∀ (s : State) (c : TowCmd), s.Takes rowLogbookRead c →
    let b := s.begun rowLogbookRead c
    exec (.logbookRead c) s = .next (State.finish s (b.completePay s.tow.nextCmd
      ((List.range (bits c.param 27 16)).flatMap (fun k => (List.range 4).map (fun w =>
        (mget 0 b.watch.sram ((bits c.param 15 0 + k) % 2048)).extractLsb' (64 * w) 64)))))) ∧
  (∀ (s : State) (c : TowCmd), s.Takes rowDumpNow c →
    let b := s.begun rowDumpNow c
    (b.watch.dump = none → exec (.dumpNow c) s = .next (State.finish s (b.dumpStart [s.tow.nextCmd]))) ∧
    ∀ d : Dump, b.watch.dump = some d → exec (.dumpNow c) s = .next (State.finish s { b with watch := { b.watch with
      skipped := Nat.min 0xFFFF (b.watch.skipped + 1), dump := some { d with cmds := d.cmds ++ [s.tow.nextCmd] } } })) ∧
  (∀ (s : State) (c : TowCmd), s.Takes rowLogRead c →
    let b := s.begun rowLogRead c
    let l := recWords b.core.flt.ring (bits c.param 9 0) (bits c.param 26 16) 1024
    let t := if bit c.param 32 then b.onCore (Core.fltRd (b.core.flt.rd + BitVec.ofNat 11 (bits c.param 26 16))) else b
    exec (.logRead c) s = .next (State.finish s
      (t.complete s.tow.nextCmd 0 (at' t.core.flt.wr.toNat 0 ||| at' t.core.flt.rd.toNat 16) l))) ∧
  (∀ (s : State) (c : TowCmd), s.Takes rowFltInject c →
    let b := s.begun rowFltInject c
    let seq := match b.core.seqFor (bits c.param 10 0) with
      | some n => n.toNat
      | none => 0xFFFFFFFF
    exec (.fltInject c) s = .next (State.finish s ((b.freeWord.2.onCore (Core.raiseEv (injEvent c b.freeWord.1))).complete s.tow.nextCmd 0 (at' seq 0) []))) ∧
  ∀ (s : State) (c : TowCmd), s.Takes rowSealBlock c →
    exec (.sealBlock c) s = .next (State.finish s (((s.begun rowSealBlock c).complete s.tow.nextCmd 0 0 []).onCore Core.sealBlock))

/-- A streaming packet whose payload has LENGTH words is the command it spells, and one with another number of words, or one word, is
answered BAD_LENGTH with TOW_PROTO index 0; a credit goes back for each word. A ring takes the window's two words and LENGTH words of
DB_DATA. A two-wire write of 16 + 8 LENGTH bytes is the command it spells. A two-wire read returns the reply that is ready, and otherwise
stretches SCL until it is or, after 1 ms, returns 0xFF bytes. TOW_RPL_CRD adds one credit. None stops; where the command moves INST_ID after
a port was enabled, what R4 allows happens beside it. Cites R4, R402, R411, R412, R413, R586. -/
def Obligations.TransportEvents : Prop :=
  (∀ (s : State) (w p : Word) (d : List Word), s.tow.waiting = [] → s.pilotOnly = false →
    let c : TowCmd := ⟨.stream, w.extractLsb' 8 8, w.extractLsb' 16 8, w.extractLsb' 24 8, w.extractLsb' 48 16, p, d⟩
    let back (n : Nat) : State := s.onCore (Core.emit (.cmdCredit n))
    let t := (back (d.length + 2)).towPacket (w.extractLsb' 0 8) c
    (d.length = bits w 47 32 → exec (.streamPacket (w :: p :: d)) s = .next (State.finish s (if s.idMoved t then t.upset else t))) ∧
    (d.length ≠ bits w 47 32 → exec (.streamPacket (w :: p :: d)) s = .next (State.finish s
      (((back (d.length + 2)).raise famTowProto 0).towError (w.extractLsb' 0 8) (w.extractLsb' 8 8) .stream 0x12 none))) ∧
    exec (.streamPacket [w]) s = .next (State.finish s
      (((back 1).raise famTowProto 0).towError (w.extractLsb' 0 8) (w.extractLsb' 8 8) .stream 0x12 none))) ∧
  (∀ (s : State) (w : Fin 8), s.tow.waiting = [] →
    let x := s.window w.val
    let c : TowCmd := ⟨.window w, x.cmd0.extractLsb' 8 8, x.cmd0.extractLsb' 16 8, x.cmd0.extractLsb' 24 8, x.cmd0.extractLsb' 48 16, x.cmd1,
      (List.range (Nat.min 257 (bits x.cmd0 47 32))).map (fun i => mget 0 x.data i)⟩
    let t := s.towPacket (x.cmd0.extractLsb' 0 8) c
    exec (.dbRing w) s = .next (State.finish s (if s.idMoved t then t.upset else t))) ∧
  (∀ (s : State) (l : List (BitVec 8)) (w p : Word) (d : List Word), s.tow.waiting = [] → s.wireOn = true →
    wordsOfBytes l.length l = w :: p :: d → l.length = 16 + 8 * bits w 47 32 →
    let t := s.towPacket (w.extractLsb' 0 8) ⟨.wire, w.extractLsb' 8 8, w.extractLsb' 16 8, w.extractLsb' 24 8, w.extractLsb' 48 16, p, d⟩
    exec (.twoWireWrite l) s = .next (State.finish s (if s.idMoved t then t.upset else t))) ∧
  (∀ (s : State) (n : Nat) (l : List Word), s.tow.waiting = [] → s.wireOn = true → s.tow.wire = some l →
    exec (.twoWireRead n) s = .next (State.finish s (s.onCore (foldS (fun i => Core.emit (.twoWire (byteOf l i))) (List.range n))))) ∧
  (∀ (s : State) (n : Nat), s.tow.waiting = [] → s.wireOn = true → s.tow.wire = none →
    exec (.twoWireRead n) s = .next (State.finish s { s with tow := { s.tow with wireRead := some n } })) ∧
  (∀ (s : State) (n : Nat), s.tow.waiting = [] → s.tow.wireRead = some n →
    exec .twoWireStretchTimeout s = .next (State.finish s (({ s with tow := { s.tow with wireRead := none } }).onCore
      (foldS (fun _ => Core.emit (.twoWire 0xFF)) (List.range n))))) ∧
  ∀ s : State, s.Able → exec .towRplCrd s = .next (State.finish s (({ s with tow := { s.tow with rplCrd := s.tow.rplCrd + 1 } }).flushReplies))

/-- Of the replies that wait, as many words leave as there are credits, in order; each costs a credit; what has not left still waits, with
the tag that its completion holds; and nothing waits while credits are left. Cites R411, R586. -/
def Obligations.StreamingCredits : Prop :=
  ∀ (c : Nat) (l : List (Option (BitVec 8) × List Word)),
    let x := flushWords c l
    x.1 ++ (x.2.2.map Prod.snd).flatten = (l.map Prod.snd).flatten ∧ x.1.length + x.2.1 = c ∧ (x.2.1 ≠ 0 → x.2.2 = []) ∧
    x.2.2.map Prod.fst <:+ l.map Prod.fst

/-- MMIO_ACCESS completes for every operand and in every state in which no Towpath command waits. On a powered, unsealed port above INIT: an
access that is not 8 bytes wide or not aligned answers 0 with no effect. A read of a window's page answers the window's word, one of the
interrupt page's registers has that register's read effects, and one of an offset that nothing occupies answers 0. A write of DB_RING rings
the window, of another word of a window that is not busy writes it, and of a busy window is ignored. A port that is sealed or without power
takes nothing. Cites R4, R412, R571, R572, R573, R574, R582. -/
def Obligations.MmioAccess : Prop :=
  (∀ (s : State) (f : Fin 4) (wr : Bool) (size : BitVec 2) (off : BitVec 16) (v : Word) (id : BitVec 8), s.tow.waiting = [] → s.mmioOpen f.val = true →
    (size ≠ 3 ∨ off.toNat % 8 ≠ 0) → exec (.mmioAccess f wr size off v id) s =
      .next (State.finish s { s with core := { s.core with out := .mmio f.val id.toNat 0 :: s.core.out } })) ∧
  (∀ (s : State) (f : Fin 4) (off : BitVec 16) (v : Word) (id : BitVec 8), s.tow.waiting = [] → s.mmioOpen f.val = true → off.toNat % 8 = 0 →
    let w := s.mmioWrite off.toNat v
    let t : State := { w with core := { w.core with out := .mmio f.val id.toNat 0 :: w.core.out } }
    let x := s.mmioRead off.toNat
    let u : State := { x.2 with core := { x.2.core with out := .mmio f.val id.toNat x.1 :: x.2.core.out } }
    exec (.mmioAccess f true 3 off v id) s = .next (State.finish s (if s.idMoved t then t.upset else t)) ∧
    exec (.mmioAccess f false 3 off v id) s = .next (State.finish s (if s.idMoved u then u.upset else u))) ∧
  (∀ (s : State) (o : Nat) (v : Word), o < 0x8000 →
    s.mmioRead o = ((s.window (o / 0x1000)).read (o % 0x1000), s) ∧
    (o % 0x1000 ≠ 0x20 → (s.window (o / 0x1000)).busy = true → s.mmioWrite o v = s) ∧
    (o % 0x1000 ≠ 0x20 → (s.window (o / 0x1000)).busy = false →
      s.mmioWrite o v = s.putWindow (o / 0x1000) ((s.window (o / 0x1000)).write (o % 0x1000) v))) ∧
  (∀ (s : State) (t : Fin 8), s.mmioRead (0x8020 + t.val * 0x40) = s.regRead (0x10C20 + t.val * 0x40) ∧
    ∀ v : Word, s.mmioWrite (0x8028 + t.val * 0x40) v = (s.regWrite (0x10C28 + t.val * 0x40) v).2) ∧
  ∀ (s : State) (f : Fin 4) (wr : Bool) (size : BitVec 2) (off : BitVec 16) (v : Word) (id : BitVec 8), s.tow.waiting = [] → s.mmioOpen f.val = false →
    exec (.mmioAccess f wr size off v id) s = .next (State.finish s s)

/-- RD_S, RD_F, RD_O, UPG, RD_NA, WR_FULL, WR_PART, ATOM, WB_D and SETTLE from a local agent on a powered fabric port. While the block's
work has stopped the request waits and is not taken. Else, from a DEFINED agent on its own FPORT, not tombstoned in a freeze, with its entry
free, allowed to the agent's kind, with a home and (for ATOM) a form of R223's table: a new berth entry holds the request under its own
instance's numbers with its reserved bits 0, stamped with the tick, at the back of the berths, with the request data that arrived before it
where there is any; a WB_D is known to have come to what a RSP_WBX made wait; and the port counts one REQ message. With a TAG that is
outstanding (a breach of a duty) the same happens, with what R4 allows beside it. On a port without power nothing happens. Cites R4, R84,
R85, R109, R119, R188, R198, R259, R271, R400. -/
def Obligations.FabricRequests : Prop :=
  let rows : List ((Src → Hdr → Instr) × BitVec 8) := [(.rdS, 0x00), (.rdF, 0x01), (.rdO, 0x02), (.upg, 0x03), (.rdNa, 0x04), (.wrFull, 0x10),
    (.wrPart, 0x11), (.atom, 0x18), (.wbD, 0x20), (.settle, 0x28)]
  ∀ e ∈ rows, ∀ (f : Fin 4) (h : Hdr) (s : State), s.tow.waiting = [] →
    (s.fabOn f.val = false → exec (e.1 (.fabric f) h) s = .next s) ∧
    (s.fabOn f.val = true → s.core.agentOk f (agentLocal h.agent) = true → s.tagHeld f h = true →
      exec (e.1 (.fabric f) h) s = .next (State.finish s (s.arrive (.request f e.2 h)).upset)) ∧
    (s.fabOn f.val = true → (s.core.agentOk f (agentLocal h.agent) && s.tagHeld f h) = false → s.core.stopped = true →
      exec (e.1 (.fabric f) h) s = .next (State.finish s { s with arrivals := s.arrivals ++ [.request f e.2 h] })) ∧
    (s.fabOn f.val = true → s.tagHeld f h = false → s.core.stopped = false → s.core.agentOk f (agentLocal h.agent) = true →
      let a := agentId s.self (agentLocal h.agent)
      let g := s.core.ingress e.2 h
      (s.core.frz.st = 0 ∨ s.core.tombed a = false) → s.core.headerRoom (.fabric f) g e.2 = true →
      (s.core.isIo a && ioForbidden e.2) = false → (s.core.homeOf h.line).isSome = true → (e.2 = 0x18 → atomBad g.param = false) →
      let early := if carriesData e.2 then s.core.host.early.find? (fun d =>
        d.port = f && d.loc = agentLocal h.agent && d.tag = h.tag && (d.op = opDatM) == (e.2 = opWbD)) else none
      let b : Berth := { id := s.core.nextId, op := e.2, h := g, own := false, pool := h.credit, port := some f, stamp := s.core.arrival
                         hash := sliceHash h.line, ep := f.val, data := early.map (fun d => d.beats)
                         poison := (early.map (fun d => d.poison)).getD false, made := (early.map (fun d => d.made)).getD false
                         full := !carriesData e.2 || early.isSome, seq := s.core.host.seq }
      let k := s.core.bump (unitFab f.val) 0x110 1
      let k : Core := { k with
        nextId := s.core.nextId + 1
        host := { s.core.host with
          berths := s.core.host.berths ++ [b]
          seq := s.core.host.seq + 1
          early := match early with
            | some d => s.core.host.early.filter (fun y => !(y.port = d.port && y.loc = d.loc && y.tag = d.tag && y.op = d.op))
            | none => s.core.host.early } }
      exec (e.1 (.fabric f) h) s = .next (State.finish s { s with core := if e.2 = 0x20 then k.wbCame a h.line else k }))

/-- For a request of any kind that a fabric port meets while the block's work goes on: one of an agent that is not DEFINED or not of this
port is discarded, its credit returned, and AGENT_UNDEF raised; one of a tombstoned agent in a freeze is discarded and its credit returned;
one whose entry is not free is discarded with BERTH_OVF and no credit returned; an ATOM of an undefined form, else one not permitted to an
I/O agent, else one of a line without a home, is completed without a home, with ATOM_FORM, MSG_ROLE or ADDR_NOHOME. Of a DEFINED agent on
its own port, a credit of CREDIT 0 is returned on that port as the agent's mooring credit of the request's class, and of CREDIT 1 as one
pool header credit. Cites R61, R75, R81, R195, R224, R394, R598. -/
def Obligations.RequestChecks : Prop :=
  ∀ (f : Fin 4) (op : BitVec 8) (h : Hdr) (s : Core),
    let k := s.bump (unitFab f.val) 0x110 1
    let g := s.ingress op h
    let a := agentId s.self (agentLocal h.agent)
    (s.agentOk f (agentLocal h.agent) = false → s.fabricRequest f op h = (k.returnReq (.fabric f) h op).raise famAgentUndef (unitFab f.val)) ∧
    (s.agentOk f (agentLocal h.agent) = true →
      (s.frz.st ≠ 0 → s.tombed a = true → s.fabricRequest f op h = k.returnReq (.fabric f) g op) ∧
      ((s.frz.st = 0 ∨ s.tombed a = false) →
        (s.headerRoom (.fabric f) g op = false → s.fabricRequest f op h = k.raiseAt famBerthOvf (unitFab f.val) h.line a) ∧
        (s.headerRoom (.fabric f) g op = true →
          (op = 0x18 → atomBad g.param = true →
            s.fabricRequest f op h = (k.completeAlone f op g).raiseAt famAtomForm (unitFab f.val) h.line a) ∧
          ((op = 0x18 → atomBad g.param = false) → (s.isIo a && ioForbidden op) = true → s.fabricRequest f op h = (k.completeAlone f op g).raiseAt famMsgRole (unitFab f.val) h.line a) ∧
          ((op = 0x18 → atomBad g.param = false) → (s.isIo a && ioForbidden op) = false → (s.homeOf h.line).isNone = true →
            s.fabricRequest f op h = (k.completeAlone f op g).raiseAt famAddrNohome (unitFab f.val) h.line a))) ∧
      (s.fabOpen f.val = true →
        (h.credit = true → k.returnReq (.fabric f) g op = k.emit (.credit f.val 1 0 0 1)) ∧
        (h.credit = false → k.returnReq (.fabric f) g op = k.emit (.credit f.val 0 (agentLocal h.agent).toNat (classOf op) 0))))

/-- RSP_I, RSP_S, RSP_FWD, RSP_D, RSP_ABSENT and RSP_WBX on a powered fabric port while the block's work goes on, from a DEFINED agent of
the port that is not tombstoned in a quiet period. Where a snoop to the agent with the same AGENT, TAG and LINE is unanswered, its barge
keeps the response (its opcode, RESULT and FWDED), an RSP_D makes the barge wait for dirty data it has not got, an RSP_WBX whose WB_D has
not come makes the line's home traffic wait for it, the agent's liveness ping is over, and the barge goes on unless its slice is SEALED.
Where none is, the response is discarded: with MSG_STRAY of the slice serving the line, or with nothing raised where its epoch is not the
line's. UNDEFINED_MESSAGE on the RSP channel, and DAT_E on the DAT channel, are discarded with MSG_UNDEF (which credit an unlisted opcode
spent is the model's free value). Cites R88, R94, R121, R385, R390, R596. -/
def Obligations.FabricResponses : Prop :=
  (∀ e ∈ ([(.rspI, 0x60), (.rspS, 0x61), (.rspFwd, 0x62), (.rspD, 0x63), (.rspAbsent, 0x64), (.rspWbx, 0x65)] : List ((Src → Hdr → Instr) × BitVec 8)),
    ∀ (f : Fin 4) (h : Hdr) (s : State), s.tow.waiting = [] → s.fabOn f.val = true → s.core.stopped = false →
      let l := agentLocal h.peer
      s.core.agentOk f l = true → (s.core.frz.st ≠ 2 ∨ s.core.tombed (agentId s.self l) = false) →
      (∀ (p : Nat) (b : Barge) (n : LSnoop), s.core.localSnoop l h (fun _ n => n.rsp.isNone) = some (p, b, n) →
        let k : Core := { s.core with frz := { s.core.frz with agentPings := s.core.frz.agentPings.filter (fun x => x.1 != l) } }
        let k := k.onBarge p b.id (fun y => { y with
          locals := updateWhere (fun m => m.loc = n.loc && m.op = n.op && m.rsp.isNone)
            (fun m => { m with rsp := some (e.2, readState (h.hint.extractLsb' 0 3), h.hint.getLsbD 3) }) y.locals
          awaitD := y.awaitD || (e.2 = 0x63 && y.dirty.isNone) })
        let k : Core := if e.2 = 0x65 && !n.wbSeen then
          { k with host := { k.host with wbComing := k.host.wbComing ++ [(agentId s.self l, h.line)] } } else k
        exec (e.1 (.fabric f) h) s = .next (State.finish s { s with core := if k.sliceSealed p then k else k.task (.advance p b.id) })) ∧
      (s.core.localSnoop l h (fun _ n => n.rsp.isNone) = none →
        exec (e.1 (.fabric f) h) s = .next (State.finish s (if h.epoch = s.core.epochOf h.line then
          s.onCore (Core.raiseAt famMsgStray (s.core.physOfLine h.line) h.line h.agent) else s)))) ∧
  (∀ (f : Fin 4) (op : BitVec 8) (h : Hdr) (s : State), s.tow.waiting = [] → s.fabOn f.val = true → s.core.stopped = false →
    let n : Nat := s.core.freeCtr
    exec (.undefinedMessage f .rsp op h) s = .next (State.finish s
      { s with core := ({ s.core with freeCtr := n + 1 } : Core).raiseAt famMsgUndef (unitFab f.val) 0 0 })) ∧
  ∀ (f : Fin 4) (op : BitVec 8) (ch : Chan) (h : Hdr) (d : Beats) (s : State), s.tow.waiting = [] → s.fabOn f.val = true → s.core.stopped = false →
    exec (.undefinedMessage f ch op h) s = .next (State.finish s (s.onCore (Core.undefinedMsg f ch h))) ∧
    exec (.datE (.fabric f) h d) s = .next (State.finish s (s.onCore (Core.undefinedMsg f .dat h)))

/-- DAT_S, DAT_F, DAT_M and DAT_NA on a powered fabric port, while the block's work goes on, from a DEFINED agent of the port that is not
tombstoned in a quiet period; each counts its beats. Data that answers no outstanding snoop is request data of the agent: where a berth
entry waits for it in a slot that is free it joins the entry; where none does and a slot is free it waits for the request, and else is
discarded with BERTH_OVF; but TO_HOME data under another agent's AGENT is stray. DAT_M with TO_HOME that a snoop's barge waits for becomes
its dirty data where the barge or the reserve has a slot, and waits for a slot where not. Data forwarded under a snoop leaves for the
requester under the opcode that the snoop's FWD_AS names, under the barge's stamp: for the Culvert, or to an agent of this instance; to a
tombstoned agent as R395 says. Cites R94, R96, R119, R122, R190, R195, R377, R395, R596, R601. -/
def Obligations.FabricData : Prop :=
  ∀ e ∈ ([(.datS, 0x80), (.datF, 0x81), (.datM, 0x83), (.datNa, 0x84)] : List ((Src → Hdr → Beats → Instr) × BitVec 8)),
    ∀ (f : Fin 4) (h : Hdr) (d : Beats) (s : State), s.tow.waiting = [] → s.fabOn f.val = true → s.core.stopped = false →
    let l := agentLocal h.peer
    let p := agentId s.self l
    let k := s.core.bump (unitFab f.val) 0x112 (if d.one then 1 else 2)
    let g : Hdr := { h with peer := p, srci := s.self }
    let q : Hdr := { g with agent := p }
    let made : Bool := h.poison && h.hint.extractLsb' 0 2 = (3 : BitVec 2)
    s.core.agentOk f l = true → (s.core.frz.st ≠ 2 ∨ s.core.tombed p = false) →
    (k.snoopFor l e.2 g = none → (h.hint.getLsbD 2 = false ∨ agentLocal h.agent = l) →
      let wants (b : Berth) : Bool := b.h.agent = p && b.h.tag = h.tag && !b.full && carriesData b.op && ((b.op = opWbD) == (e.2 = opDatM))
      (∀ r : Berth, s.core.host.berths.find? wants = some r → k.dataRoom (.fabric f) e.2 { q with credit := r.pool } = true →
        exec (e.1 (.fabric f) h d) s = .next (State.finish s (s.onCore (fun _ => k.berthData r.id d h.poison made)))) ∧
      (∀ r : Berth, s.core.host.berths.find? wants = some r → k.dataRoom (.fabric f) e.2 { q with credit := r.pool } = false →
        exec (e.1 (.fabric f) h d) s = .next (State.finish s { s with core := k.raiseAt famBerthOvf (unitFab f.val) h.line p })) ∧
      (s.core.host.berths.find? wants = none →
        let held := s.core.host.early.any (fun x => x.port = f && x.loc = l && x.tag = h.tag && x.op = e.2)
        (held = false → k.dataRoom (.fabric f) e.2 q = true →
          exec (e.1 (.fabric f) h d) s = .next (State.finish s { s with core := { k with host := { s.core.host with
            early := s.core.host.early ++ [⟨f, l, h.tag, h.credit, e.2, d, h.poison, made⟩] } } })) ∧
        ((held = true ∨ k.dataRoom (.fabric f) e.2 q = false) →
          exec (e.1 (.fabric f) h d) s = .next (State.finish s { s with core := k.raiseAt famBerthOvf (unitFab f.val) h.line p })))) ∧
    (k.snoopFor l e.2 g = none → h.hint.getLsbD 2 = true → agentLocal h.agent ≠ l →
      exec (e.1 (.fabric f) h d) s = .next (State.finish s { s with core := k.raiseAt famMsgStray (k.physOfLine h.line) h.line h.agent })) ∧
    (∀ (i : Nat) (b : Barge) (n : LSnoop), k.snoopFor l e.2 g = some (i, b, n) →
      (h.hint.getLsbD 2 = true →
        ((k.ownSlot b = true ∨ k.reserveUsed < k.dataReserve) → exec (e.1 (.fabric f) h d) s = .next (State.finish s
          (s.onCore (fun _ => k.dirtyData i b.id f.val d.data h.poison made)))) ∧
        (k.ownSlot b = false → k.dataReserve ≤ k.reserveUsed → exec (e.1 (.fabric f) h d) s = .next (State.finish s
          { s with core := { k with host := { s.core.host with waitData := s.core.host.waitData ++ [(f.val, ⟨0x83, g, some d⟩)] } } }))) ∧
      (h.hint.getLsbD 2 = false → h.poison = false →
        let k := k.onBarge i b.id (fun y => { y with
          locals := updateWhere (fun m => m.loc = n.loc && m.op = n.op && !m.fwd) (fun m => { m with fwd := true }) y.locals })
        let op : BitVec 8 := if n.op = opSnpFs then (if n.hint.extractLsb' 0 2 = (1 : BitVec 2) then 0x81 else 0x80) else if n.op = opSnpFo then 0x83 else 0x84
        let m := mkDat op g (k.epochOf h.line) s.self (agentInst h.agent) (if h.hint.extractLsb' 0 2 = (3 : BitVec 2) then 3 else 1) false false d
        let m : Msg := { m with h := { m.h with peer := p } }
        let k := if k.tombed h.agent then k.deadData f.val m
          else if agentInst h.agent = s.self then k.deliverDat f.val b.stamp m else { k with toSend := k.toSend ++ [culCross f.val b.stamp m []] }
        exec (e.1 (.fabric f) h d) s = .next (State.finish s { s with core := if k.sliceSealed i then k else k.task (.advance i b.id) })))

/-- On a port that is ACTIVE, each message of the tables of 03 and 09 (requests, snoops, responses, data, completions, CREDIT, HELLO,
CENSUS_REQ, SALVAGE, FENCE, FENCE_ACK, the freeze messages and the commit messages) that is addressed to this instance, and every HELLO, is
taken from the port in the same step, in arrival order, on its class's virtual channel (a FENCE on the one it came on, a HELLO with its
hops); while the block's work has stopped it waits in order; one addressed to another instance crosses the Wharf from the port's endpoint to
its onward port's, a FENCE that keeps its virtual channel with it. On a port that is not ACTIVE nothing arrives. Cites R42, R89, R271, R288,
R295, R298, R319, R400. -/
def Obligations.CulvertMessages : Prop :=
  ∀ (n : Fin 6) (h : Hdr) (d : Beats) (vc : Fin 10) (hops : Fin 4),
    let q : Src := .culvert n
    let rows : List (Instr × CulMsg) :=
      ([(.rdS q h, 0x00), (.rdF q h, 0x01), (.rdO q h, 0x02), (.upg q h, 0x03), (.rdNa q h, 0x04), (.wrFull q h, 0x10), (.wrPart q h, 0x11),
        (.atom q h, 0x18), (.wbD q h, 0x20), (.settle q h, 0x28), (.snpS n h, 0x40), (.snpFs n h, 0x41), (.snpFo n h, 0x42), (.snpI n h, 0x43),
        (.snpNa n h, 0x44), (.snpQ n h, 0x48), (.rspI q h, 0x60), (.rspS q h, 0x61), (.rspFwd q h, 0x62), (.rspD q h, 0x63),
        (.rspAbsent q h, 0x64), (.rspWbx q h, 0x65), (.rspQ n h, 0x68), (.cmp n h, 0xA0), (.cmpNear n h, 0xA1), (.cmpAtom n h, 0xA2),
        (.cmpSettle n h, 0xA3), (.cmpTrap n h, 0xA8), (.cmpHalt n h, 0xA9), (.cmpPoison n h, 0xAA), (.credit n h, 0xC0), (.censusReq n h, 0xC2),
        (.fenceAck n h, 0xC5), (.frzPing n h, 0xD0), (.frzPong n h, 0xD1), (.frzStart n h, 0xD2), (.frzDead n h, 0xD3), (.frzReady n h, 0xD4),
        (.frzThaw n h, 0xD5), (.commitReport n h, 0xD8), (.commitGo n h, 0xD9), (.commitAck n h, 0xDA),
        (.commitAll n h, 0xDB)] : List (Instr × BitVec 8)).map (fun e => (e.1, culIn e.2 h none)) ++
      ([(.datS q h d, 0x80), (.datF q h d, 0x81), (.datE q h d, 0x82), (.datM q h d, 0x83), (.datNa q h d, 0x84),
        (.salvage n h d, 0xC3)] : List (Instr × BitVec 8)).map (fun e => (e.1, culIn e.2 h (some d))) ++
      [(.fence n vc h, { culIn 0xC4 h none with vc := vc.val }), (.hello n hops h, { culIn 0xC1 h none with hops := hops.val })]
    ∀ e ∈ rows, ∀ s : State, s.Able →
      ((s.cport n.val).st ≠ .active → exec e.1 s = .next (State.finish s s)) ∧
      ((s.cport n.val).st = .active → (h.dsti = s.self ∨ e.2.m.op = 0xC1) → s.core.stopped = true →
        exec e.1 s = .next (State.finish s { s with arrivals := s.arrivals ++ [.culvert n.val e.2] })) ∧
      ((s.cport n.val).st = .active → (h.dsti = s.self ∨ e.2.m.op = 0xC1) → s.core.stopped = false →
        exec e.1 s = .next (State.finish s { s with cul := { s.cul with inbox := s.cul.inbox ++ [(n.val, e.2)] } })) ∧
      ((s.cport n.val).st = .active → h.dsti ≠ s.self → e.2.m.op ≠ 0xC1 →
        let p := s.routePort h.dsti.toNat
        exec e.1 s = .next (State.finish s (s.onCore (fun k => k.present (8 + n.val) (8 + if p ≤ 5 then p else n.val) k.arrival
          (.culvert { e.2 with came := true, fixed := e.2.m.op = 0xC4 && h.hint.getLsbD 0 } [])))))

/-- With nothing else to hand on, the one message in the queue is taken, and its receive cells come free unless its data waits for a slot. A
HELLO is the discovery's; one addressed elsewhere passes on; a reserved control opcode is discarded with CUL_PROTO. While the block's work
goes on: a home snoop enters the snoop intake under its tick, but from an instance that holds 16 entries it is discarded with BERTH_OVF; a
request whose sender is not tombstoned in a freeze and whose entry is free and not held already has its berth entry; a CREDIT adds its count
or sets its mooring bit; FRZ_PING is answered with FRZ_PONG under its TAG; a CENSUS_REQ before the first generation advance is answered with
a census-end of its number. Cites R188, R193, R194, R195, R297, R298, R299, R387, R392, R513. -/
def Obligations.MessagesTaken : Prop :=
  (∀ (k n : Nat) (c : CulMsg) (s : State), s.core.toSend = [] → s.core.up = [] → s.core.flt.raised = [] → s.core.nextTask = none →
    s.cul.inbox = [(n, c)] → State.pump (k + 1) s = State.pump k (State.takeIn n c { s with cul := { s.cul with inbox := [] } })) ∧
  (∀ (n : Nat) (c : CulMsg) (s : State),
    let t := State.culRecv n c s
    (c.cells = none → State.takeIn n c s = t) ∧
    ∀ x : Cells, c.cells = some x → t.core.host.waitData.any (fun w => w.2 = c.m) = false → State.takeIn n c s = t.cellsFree x) ∧
  (∀ (n : Fin 6) (c : CulMsg) (s : State),
    (c.m.op = 0xC1 → State.culRecv n c s = s.takeHello n c.hops c.m.h) ∧
    (c.m.op ≠ 0xC1 → c.m.h.dsti ≠ s.self → State.culRecv n c s = s.culTransit n { c with cells := none }) ∧
    (c.m.op ≠ 0xC1 → c.m.h.dsti = s.self → (c.m.op ∈ ([0xC6, 0xC7, 0xC8, 0xC9, 0xCA, 0xCB, 0xCC, 0xCD, 0xCE, 0xCF, 0xD6, 0xD7, 0xDC, 0xDD, 0xDE, 0xDF] : List (BitVec 8))) →
      State.culRecv n c s = s.raise famCulProto (unitCul n))) ∧
  (∀ (n : Fin 6) (c : CulMsg) (s : State), s.core.stopped = false → c.m.h.dsti = s.self →
    let k := s.core
    let h := c.m.h
    let r := State.culRecv n c s
    (c.m.op ∈ ([0x40, 0x41, 0x42, 0x43, 0x44] : List (BitVec 8)) →
      ((k.host.intake.filter (fun i => i.h.srci = h.srci)).length < 16 → r = { s with core := { k with
        nextId := k.nextId + 1
        host := { k.host with intake := k.host.intake ++ [
          { id := k.nextId, op := c.m.op, h := h, stamp := k.arrival, hash := sliceHash h.line, slice := none }] } } }) ∧
      (16 ≤ (k.host.intake.filter (fun i => i.h.srci = h.srci)).length →
        r = s.onCore (Core.raiseAt famBerthOvf (unitCul n) h.line h.agent))) ∧
    (c.m.op ∈ ([0x00, 0x01, 0x02, 0x03, 0x04, 0x10, 0x11, 0x18, 0x20, 0x28] : List (BitVec 8)) →
      let own : Bool := c.m.op = 0x20 && h.hint.getLsbD 3
      (k.frz.st = 0 ∨ k.tombed h.agent = false) →
      k.host.berths.any (fun b => b.h.agent = h.agent && b.h.tag = h.tag && (b.own == own) && b.op = c.m.op && b.port.isNone) = false →
      (k.headerRoom (.culvert n) h c.m.op = true → r = { s with core := { k with
        nextId := k.nextId + 1
        host := { k.host with
          berths := k.host.berths ++ [{
            id := k.nextId, op := c.m.op, h := h, own := own, pool := h.credit, port := none, stamp := k.arrival, hash := sliceHash h.line
            ep := 8 + n.val, full := !carriesData c.m.op, seq := k.host.seq }]
          seq := k.host.seq + 1 } } }) ∧
      (k.headerRoom (.culvert n) h c.m.op = false → r = s.onCore (Core.raiseAt famBerthOvf (unitCul n) h.line h.agent))) ∧
    (c.m.op = 0xC0 →
      let w := (h.hint.extractLsb' 0 2).toNat
      let i := h.srci.toNat
      let x := mget InstCredits.none k.host.credits i
      let y : InstCredits :=
        if w = 0 then { x with moorings := setBit x.moorings (4 * (agentLocal h.agent).toNat + h.param.toNat % 4) }
        else if w = 1 then { x with header := x.header + h.param.toNat }
        else if w = 2 then { x with data := x.data + h.param.toNat }
        else { x with snoop := x.snoop + h.param.toNat }
      r = { s with core := { k with
        host := { k.host with credits := mset InstCredits.none k.host.credits i y }
        todo := k.todo ++ [.credits h.srci] } }) ∧
    (c.m.op = 0xD0 → k.block ≠ .off → k.block ≠ .pilot →
      r = { s with core := { k with toSend := k.toSend ++ [culOwn ⟨0xD1, { Hdr.zero with tag := h.tag, srci := k.self, dsti := h.srci }, none⟩] } }) ∧
    (c.m.op = 0xC2 → k.eng.generation = 0 →
      let m := (h.tag.extractLsb' 0 8).toNat
      let q : Hdr := { Hdr.zero with line := k.recLine 0 0, hint := 2, tag := BitVec.ofNat 10 (m + 512), param := BitVec.ofNat 16 m }
      r = s.onCore (fun _ => ({ k with eng := { k.eng with censusOut := k.eng.censusOut ++ [(h.srci, q.tag, q.line)] } } : Core).sendSnpQ
        h.srci ⟨0x48, q, none⟩ none)))

/-- Each answers a next state. An arbiter cycle that selects holds the choice from the state at its start; the first one of an arbiter that
holds nothing only selects. A held item that is no longer eligible cancels the admission with event 0x004. With nothing to admit nothing
else changes. Else an uncorrectable control-store word raises GALLEY_CS_UE and admits nothing, an internal operation is admitted with no
program, and another item's program ends in a mode with which the item is admitted, or raises GALLEY_ILLEGAL. Snoops go first, but the
fourth in a row gives way to another item. An admitted request sets the agent pointer to its agent + 1, a snoop the snoop pointer to its
instance + 1. A chamber's next barge becomes head, with the errors its lookups meet: at the proxy for a snoop or an own agent's request, at
the home for an internal operation or another request; an error in control state stops it. A running simmer timer is removed. The sweep
rewrites every stamp whose age is 0xF0_0000 ticks or more to exactly that age, and no other. Cites R44, R199, R202, R203, R206, R213, R216,
R323, R343. -/
def Obligations.SliceCommandsOfEngine : Prop :=
  (∀ (s : State) (p : Fin 18) (sel : Bool) (r : CsRead) (err : Option HalfErr), s.Able → s.core.stopped = false →
    let held := (s.core.slice p).selected
    let t := s.onCore (Core.onSlice p (fun x => { x with selected := if sel then (s.core.choice p held).map Pick.sel else none }))
    (sel = true → held = none → exec (.admission p sel r err) s = .next (State.finish s t)) ∧
    (∀ j : Selected, held = some j → s.core.picked p j = none →
      exec (.admission p sel r err) s = .next (State.finish s (t.onCore (Core.bump p 0x004 1)))) ∧
    (sel = false → held = none → s.core.choice p = none → exec (.admission p sel r err) s = .next (State.finish s t)) ∧
    ∀ k : Pick, ((∃ j : Selected, held = some j ∧ s.core.picked p j = some k) ∨ (sel = false ∧ held = none ∧ s.core.choice p = some k)) →
      let u := if (pickHead k).isSome then t.onCore (Core.halfErr 0 err) else t
      exec (.admission p sel .ue err) s = .next (State.finish s (u.raise famGalleyCsUe p)) ∧
      (u.core.stopped = false →
        (∀ i : Internal, k = .internal i → exec (.admission p sel .clean err) s = .next (State.finish s (u.onCore (Core.admitInternal p i)))) ∧
        ∀ (op : Nat) (a : AgentId) (l : LineAddr), pickHead k = some (op, a, l) → (u.gal p).split = false →
          (∀ (m : GalMode) (n : Nat), uEnter (u.core.slice p).control (u.core.slice p).mode op u.core.freeCtr = .ended m n →
            let v := u.onCore (fun c => { c with freeCtr := n + 1 })
            let v : State := { v with gals := mset Gal.reset v.gals p { v.gal p with regs := n } }
            exec (.admission p sel .clean err) s = .next (State.finish s
              ((v.onCore (Core.onSlice p (fun x => { x with mode := m }))).onCore (Core.admitPick p k)))) ∧
          ∀ pc n : Nat, uEnter (u.core.slice p).control (u.core.slice p).mode op u.core.freeCtr = .illegal pc n →
            exec (.admission p sel .clean err) s = .next (State.finish s ((u.onCore (fun c => { c with freeCtr := n })).raise famGalleyIllegal p)))) ∧
  (∀ (k : Core) (p : Nat) (but : Option Selected) (i : SnoopItem) (o : Pick), k.bestSnoop p but = some i → k.bestOther p but = some o →
    k.choice p but = if (k.slice p).snoopRun + (if snoopSel but then 1 else 0) < 3 then some (.snoop i) else some o) ∧
  (∀ (k : Core) (p : Fin 18) (b : Berth), mrising 0 k.slices = true →
    ((k.slice p).barges.filter (fun x => x.grp = groupOf b.op)).length < groupSize (groupOf b.op) →
    b.posted = false → b.fwd = false → b.op ≠ 0x20 → ((k.admitBerth p b).slice p).agentPtr = b.h.agent + 1) ∧
  (∀ (k : Core) (p : Fin 18) (i : SnoopItem) (o : Bool), mrising 0 k.slices = true →
    ((k.slice p).barges.filter (fun x => x.grp = 3)).length < groupSize 3 →
    ((k.admitSnoop p i o).slice p).snoopPtr = i.h.srci + 1) ∧
  (∀ (s : State) (p : Fin 18) (x : LineAddr) (errs : List LookErr), s.Able → s.core.stopped = false →
    let k := foldS (Core.lookErr p x) errs s.core
    (s.core.nextHead p x = none → exec (.chamberHead p x errs) s = .next (State.finish s s)) ∧
    ∀ b : Barge, s.core.nextHead p x = some b →
      let to_ (c : Core) (h : Phase) : Core := c.onBarge p b.id (fun y => { y with phase := h })
      ((LookErr.skilletTag ∈ errs ∨ LookErr.control ∈ errs) → exec (.chamberHead p x errs) s = .next (State.finish s { s with core := k })) ∧
      (LookErr.skilletTag ∉ errs → LookErr.control ∉ errs →
        (∀ (i : Nat) (e : SnoopItem), b.item = .snoop i → k.host.intake.find? (fun y => y.id = i) = some e →
          exec (.chamberHead p x errs) s = .next (State.finish s { s with core :=
            (if e.op = 0x48 then Core.queryGo e (to_ k .atProxy) else Core.lookupEntry p b.id (to_ k .atProxy)) })) ∧
        (∀ i : InternalKind, b.item = .internal i →
          exec (.chamberHead p x errs) s = .next (State.finish s { s with core := (to_ k .atHome).homeLookup p b.id })) ∧
        ∀ (i : Nat) (r : Berth), b.item = .req i → k.berth? i = some r →
          let c := if k.homesHere x then k.earlyRead p b.id else k
          exec (.chamberHead p x errs) s = .next (State.finish s { s with core :=
            (if agentInst r.h.agent = c.self && !r.own then (to_ c .atProxy).lookupEntry p b.id else (to_ c .atHome).homeLookup p b.id) }))) ∧
  (∀ (s : State) (p : Fin 18) (x : LineAddr) (t : Target), s.Able → s.core.stopped = false → mrising 0 s.core.slices = true →
    ((s.core.slice p).simmering x t = false → exec (.simmerExpiry p x t) s = .next (State.finish s s)) ∧
    ((s.core.slice p).simmering x t = true → (s.core.slice p).barges.any (fun b => b.line = x) = false →
      exec (.simmerExpiry p x t) s = .next (State.finish s (s.onCore (Core.onSlice p (fun y =>
        { y with simmer := y.simmer.filter (fun e => !(e.line = x && e.target = t)) })))))) ∧
  (∀ s : State, s.Able →
    let now (x : Stamp) : Stamp := if 0xF00000 ≤ (s.core.host.tick - x).toNat then s.core.host.tick - 0xF00000 else x
    exec .stampSweep s = .next (State.finish s { s with core := { s.core with host := { s.core.host with
      berths := s.core.host.berths.map (fun b => { b with stamp := now b.stamp })
      intake := s.core.host.intake.map (fun i => { i with stamp := now i.stamp }) } } }))

/-- Each answers a next state. Of the transfers at a Wharf destination the picked one is taken off, the pointer moves past its source, and
what it carries for the Culvert goes to its port; an error that it finds strikes its half first. A free Overflow engine takes a slice's
oldest spilled entry. Above DIRTY_HIGH with no Skillet write outstanding, a slice writes its least recently used dirty, unpinned Skillet
entry; at or below it nothing. Above its own DIRTY_HIGH a slice passes the dirty, unpinned record that its patrol reaches next to write-
back; with none, or at or below it, nothing. A gated slice's patrol does nothing, and one of a serving slice below DIRTY_HIGH that finds no
error moves its position on, modulo 4,096. A scrub interval asks leave for a burst, unless none may run or one waits. A census walk goes to
its next page. A returned credit is counted to at most 255 and what waits for it is sent. Cites R43, R44, R155, R166, R171, R181, R182,
R204, R242, R579. -/
def Obligations.EngineCommands : Prop :=
  (∀ (s : State) (d : Fin 32) (err : Option HalfErr), s.Able →
    (s.core.wharfPick d = none → exec (.wharfGrant d err) s = .next (State.finish s s)) ∧
    ((s.core.wharfPick d).isSome = true →
      let k := s.core.halfErr 1 err
      (k.wharfPick d = none → exec (.wharfGrant d err) s = .next (State.finish s { s with core := k })) ∧
      ∀ x : Xfer, k.wharfPick d = some x → ∃ t : State, exec (.wharfGrant d err) s = .next (State.finish s t) ∧
        t.core.wharf.ptrs = mset 0 k.wharf.ptrs d ((x.src + 1) % 32) ∧ t.core.wharf.xfers = k.wharf.xfers.filter (fun y => y.id != x.id) ∧
        ∀ (c : CulMsg) (l : List Msg), x.act = .culvert c l → t.core.toSend = k.toSend ++ (c :: l.map culOwn))) ∧
  (∀ (s : State) (p : Fin 18), s.Able → s.core.stopped = false →
    ((s.core.slice p).spill = [] → exec (.overflowInsert p) s = .next (State.finish s s)) ∧
    (∀ (e : LsWay) (l : List LsWay), (s.core.slice p).spill = e :: l → s.core.eng.move = none → s.core.eng.ovf = [] →
      exec (.overflowInsert p) s = .next (State.finish s (s.onCore (fun k =>
        ({ k with eng := { k.eng with ovfCount := k.eng.ovfCount + 1 } } : Core).ovfAdd (.insert (some (p.val, e.line)) false) e.line (some e.ent))))) ∧
    (((s.core.slice p).sklDirty ≤ s.core.sklHigh → exec (.skilletBackgroundWrite p) s = .next (State.finish s s))) ∧
    (∀ i : Nat, s.core.sklHigh < (s.core.slice p).sklDirty →
      s.core.mem.writes = [] → lruOf ((s.core.slice p).skl.filter (fun e => e.2.dirty && !e.2.pinned)) = some i →
      exec (.skilletBackgroundWrite p) s = .next (State.finish s (s.onCore (Core.sklWrite p i none)))) ∧
    let free := (s.core.slice p).hs.filter (fun e => e.2.dirty && !s.core.hsPinned p (e.1 / 16) e.2)
    let far (k : Nat) : Nat := (k / 16 + 2048 - (s.core.slice p).patrol % 2048) % 2048 * 16 + k % 16
    (((s.core.slice p).heldDirty ≤ Nat.min 1024 (bits (s.reg 0x450) 10 0) ∨ free = []) →
      exec (.homeSieveBackgroundWb p) s = .next (State.finish s s)) ∧
    (Nat.min 1024 (bits (s.reg 0x450) 10 0) < (s.core.slice p).heldDirty → ∀ (k : Nat) (e : HsWay),
      pickBy (fun (a b : Nat × HsWay) => decide (far a.1 < far b.1)) free = some (k, e) →
      exec (.homeSieveBackgroundWb p) s = .next (State.finish s (s.onCore (fun c =>
        (Core.onSlice p (fun y => { y with hs := mput y.hs k { e with dirty := false } }) c).writeBack p (hsLineIndex (k / 16) e.tag * 256) e.rcd))))) ∧
  (∀ (s : State) (p : Fin 18), s.Able → s.core.stopped = true → exec (.homeSieveBackgroundWb p) s = .next (State.finish s s) ∧
    exec (.overflowInsert p) s = .next (State.finish s s) ∧ exec (.skilletBackgroundWrite p) s = .next (State.finish s s)) ∧
  (∀ (s : State) (p : Fin 18) (errs : List PatrolErr), s.Able →
    (s.clockGated p = true → exec (.sievePatrol p errs) s = .next s) ∧
    (s.clockGated p = false → s.core.serves p = false → exec (.sievePatrol p errs) s = .next (State.finish s s)) ∧
    (s.clockGated p = false → s.core.serves p = true → s.core.stopped = false → (s.core.slice p).ceWays = [] →
      (s.core.slice p).heldDirty ≤ Nat.min 1024 (bits (s.reg 0x450) 10 0) →
      exec (.sievePatrol p []) s = .next (State.finish s (s.onCore (Core.onSlice p (fun x => { x with patrol := (x.patrol + 1) % 4096 })))))) ∧
  (∀ s : State, s.Able →
    let scrubs (r : Leave) : Bool := r.cls = lvScrub
    ((s.core.eng.generation = 0 ∨ s.core.stopped = true ∨ s.core.gatePaused gateScrub = true ∨ s.pwr.queue.any scrubs = true ∨
        (s.pwr.shown.map scrubs).getD false = true) → exec .scrubBurst s = .next (State.finish s s)) ∧
    (s.core.eng.generation ≠ 0 → s.core.stopped = false → s.core.gatePaused gateScrub = false → s.pwr.queue.any scrubs = false →
      (s.pwr.shown.map scrubs).getD false = false → exec .scrubBurst s = .next (State.finish s (s.leaveAsk ⟨lvScrub, 10, [.scrub]⟩)))) ∧
  (∀ (s : State) (c : BitVec 6), s.Able → s.core.stopped = false →
    (s.core.eng.censuses.find? (fun x => x.chip = c) = none → exec (.censusWalkPage c) s = .next (State.finish s s)) ∧
    (∀ x : Census, s.core.eng.censuses.find? (fun x => x.chip = c) = some x → s.core.larderHeld = false → s.core.eng.larder = [] →
      x.page < s.core.pageCount →
      exec (.censusWalkPage c) s = .next (State.finish s (s.onCore (fun k => ({ k with eng := { k.eng with
        censuses := updateWhere (fun y => y.chip = c) (fun y => { y with page := y.page + 1 }) k.eng.censuses } } : Core).larderOp x.page (.census c x.seq)))))) ∧
  ∀ (s : State) (f : Fin 4), s.Able →
    (s.fabOn f = false → ∀ k : Fin 3, exec (.fabricCreditReturn f k) s = .next (State.finish s s)) ∧
    (s.fabOn f = true →
      let q := mget FabPort.reset s.core.fab f
      let put (x : FabPort) : State := s.onCore (fun k => ({ k with fab := mset FabPort.reset k.fab f x } : Core).flushFab f)
      exec (.fabricCreditReturn f 0) s = .next (State.finish s (put { q with snpCrd := Nat.min 255 (q.snpCrd + 1) })) ∧
      exec (.fabricCreditReturn f 1) s = .next (State.finish s (put { q with datCrd := Nat.min 255 (q.datCrd + 1) })) ∧
      exec (.fabricCreditReturn f 2) s = .next (State.finish s (put { q with cmpCrd := Nat.min 255 (q.cmpCrd + 1) })))

/-- Each answers a next state. A return whose tag is not outstanding on the port, a MEM_PACK on a port with PERSIST 0, and a MEM_WACK for a
read's tag are discarded with MEM_PROTO. Read data, with the bytes of unaccepted partial writes over it, goes to its user and frees its tag,
with MEM_POISON where it is poisoned. A MEM_WACK accepts the write on a port with PERSIST 0; on one with PERSIST 1 it marks the write as
acknowledged, and only the MEM_PACK accepts it, but for a drain's write, which counts as written at its acknowledgement. WACK_ERR raises
MEM_WRERR and the write still counts. Cites R262, R271, R273, R584. -/
def Obligations.MemoryReturns : Prop :=
  ∀ (s : State) (m : Fin 4) (tag : Tag), s.Able →
    let k := s.core
    let proto : State := s.onCore (Core.raise famMemProto (unitMem m))
    let pers : Bool := bit (s.reg (0xE0400 + m.val * 8)) 1
    let rd := k.mem.reads.find? (fun r => r.port = m.val && r.tag = some tag.toNat)
    let wr := k.mem.writes.find? (fun w => w.port = m.val && w.tag = some tag.toNat)
    let wa := k.mem.writes.find? (fun w => w.port = m.val && w.tag = some tag.toNat && !w.wack)
    (∀ (d : LineData) (po : Bool) (bad : BitVec 8),
      (rd = none → exec (.memReadData m tag d po bad) s = .next (State.finish s proto)) ∧
      ∀ r : MRead, rd = some r →
        let a : Core := { k with mem := { k.mem with reads := k.mem.reads.filter (fun q => !(q.port = m.val && q.tag = some tag.toNat)) } }
        let b := if po then (a.bump (unitMem m) 0x124 1).raiseAt famMemPoison (unitMem m) r.line 0 else a
        exec (.memReadData m tag d po bad) s = .next (State.finish s
          { s with core := ((b.giveRead r.use (match r.above with
            | some (v, mk) => mergeLine d v mk
            | none => d) po bad).issueReads).issueWrites })) ∧
    (∀ err : Bool,
      (wa = none → exec (.memWack m tag err) s = .next (State.finish s proto)) ∧
      ∀ w : MWrite, wa = some w →
        let a := if err then k.raiseAt famMemWrerr (unitMem m) w.line 0 else k
        (pers = false → exec (.memWack m tag err) s = .next (State.finish s { s with core := a.acceptWrite w })) ∧
        let ack (f : MWrite → MWrite) : Core := { a with mem := { a.mem with writes := updateWhere (fun v => v.id = w.id) f a.mem.writes } }
        (pers = true → w.drain = false → exec (.memWack m tag err) s = .next (State.finish s { s with core := ack (fun v => { v with wack := true }) })) ∧
        (pers = true → w.drain = true → exec (.memWack m tag err) s = .next (State.finish s { s with core :=
          ((ack (fun v => { v with wack := true, src := .drained, posted := false, frees := none, waiter := none })).task (.place w)).task (.written w) }))) ∧
    (wr = none ∨ pers = false → exec (.memPack m tag) s = .next (State.finish s proto)) ∧
    (∀ w : MWrite, wr = some w → pers = true → exec (.memPack m tag) s = .next (State.finish s (s.onCore (Core.acceptWrite w))))

/-- For every flit header and payload: the flit that a port sends from them passes its own CRC, and reads as the same header and the same
payload. For every message without a body, on any of the ten virtual channels, with any HOPS and DL: its bytes, whatever follows them, read
as that message with its virtual channel, HOPS and DL, and leave exactly what followed; and its header's 16 bytes read as its opcode and
every field of its header. Cites R83, R282, R283, R284. -/
def Obligations.FlitReadsAsSent : Prop :=
  (∀ (h : FlitHdr) (v : BitVec 1936),
    let f := flitOf h v
    flitHdr f = h ∧ f.extractLsb' 80 1936 = v ∧ flitCrc f = f.extractLsb' 2016 32) ∧
  (∀ (op : BitVec 8) (h : Hdr), hdrOf (hdrBits op h) = (op, h)) ∧
  ∀ (op : BitVec 8) (h : Hdr) (vc : Fin 10) (hops : Fin 4) (dl : Bool) (rest : List (BitVec 8)), hasBody op = false →
    parseMsg (msgBytes ⟨op, h, none⟩ vc hops dl ++ rest) =
      .msg { m := ⟨op, h, none⟩, vc := vc, hops := hops, dl := dl, came := true, fixed := false, cells := none } rest

/-- Each answers a next state. On a port that is not ACTIVE nothing happens, but in RETRAIN or DOWN an IDLE flit repeats an unanswered link
code and a flit may answer it. Lane words that complete no flit are kept. A damaged flit sets NAK once; a sound one acts by its header, is
accepted in sequence and sets NAK out of it, and then its link code acts. ACK_TO sets NAK again at the receiver and replays at the
transmitter. A marker period is judged lane by lane, and a lane at fault is dealt with. A switch's codeword moves the lane when the receiver
holds the acknowledgement, and asks again 256 codewords on when not; the transmitter moves; its end sets NAK. LOSS_US passing during a
switch does nothing, retrains where both ends allow it, and else loses the port. A fence limit releases its fence with CUL_FENCE. A transit
message takes its cells and crosses the Wharf. A waiting message without a body that may be sent goes out in one flit, which the replay
buffer keeps under the next SEQ; an idle flit time sends an IDLE flit. Cites R277, R285, R286, R290, R296, R305, R310, R311, R312, R313,
R316, R319. -/
def Obligations.CulvertTraffic : Prop :=
  ∀ (n : Fin 6) (s : State), s.Able →
    ((s.cport n).st ≠ .active → ∀ (rx : Bool) (w : List (List (BitVec 64))) (hp : Fin 4) (dl : Bool) (op : BitVec 8) (h : Hdr) (d : Option Beats),
      (∀ i ∈ ([.ackToExpiry n rx, .alignmentMarker n w, .spareSwitchCodeword n rx, .transitMessage n hp dl op h d, .culvertSend n] : List Instr),
        exec i s = .next (State.finish s s)) ∧
      (((s.cport n).st = .retrain ∨ (s.cport n).st = .down) → (s.cport n).lm ≠ [] →
        exec (.idleFlitSend n) s = .next (State.finish s (s.sendIdle n)) ∧
        exec (.flit n w) s = .next (State.finish s (match s.rxFlit n w with
          | (some (f, b), t) => t.takeAnswer n f b
          | (none, t) => t))) ∧
      (((s.cport n).st ≠ .retrain ∧ (s.cport n).st ≠ .down) ∨ (s.cport n).lm = [] →
        exec (.idleFlitSend n) s = .next (State.finish s s) ∧ exec (.flit n w) s = .next (State.finish s s))) ∧
    ((s.cport n).st = .active →
      (∀ w : List (List (BitVec 64)),
        let u := (s.rxFlit n w).2
        ((s.rxFlit n w).1 = none → exec (.flit n w) s = .next (State.finish s u)) ∧
        ∀ (f : BitVec 2048) (b : Bool), (s.rxFlit n w).1 = some (f, b) →
          let h := flitHdr f
          ((b = true ∨ (flitCrc f = f.extractLsb' 2016 32 ∧ 2 ≤ h.type.toNat)) → exec (.flit n w) s = .next (State.finish s (u.onPort n (fun x => { x with nak := x.nak || !x.stalled, stalled := true })))) ∧
          (b = false → flitCrc f ≠ f.extractLsb' 2016 32 → exec (.flit n w) s = .next (State.finish s (u.onPort n (fun x =>
            { x with nak := x.nak || !x.stalled, stalled := true, crc := Nat.min 0xFFFF (x.crc + 1) })))) ∧
          (b = false → flitCrc f = f.extractLsb' 2016 32 → h.type.toNat < 2 →
            let a := u.onPort n (fun x => x.header h)
            let y := a.cport n
            let a := if h.nak && (y.resend.isEmpty || y.nakAck ≠ some h.ack) then a.culReplay n (some h.ack) else a
            let a := if h.type = 0 then a else if h.seq = (a.cport n).rxSeq + 1 then
                ((a.onPort n (fun x => { x with stalled := false, nak := false })).onCore (Core.bump (unitCul n) 0x102 1)).culAccept
                  n h.seq h.first (f.extractLsb' 80 1936)
              else a.onPort n (fun x => { x with nak := x.nak || !x.stalled, stalled := true })
            let moved : Bool := h.nak && ((a.cport n).txSwitch.map (fun w => w.moved)).getD false
            let a := if moved then a.onPort n (fun x => { x with txSwitch := none, lm := x.lm.filter (fun e => e.1 != 2) }) else a
            exec (.flit n w) s = .next (State.finish s (a.takeLm n h.lm.toNat h.lmArg.toNat)))) ∧
      (exec (.ackToExpiry n true) s = .next (State.finish s (s.onPort n (fun y => { y with nak := y.nak || y.stalled }))) ∧
        ((s.cport n).replay = [] → exec (.ackToExpiry n false) s = .next (State.finish s s)) ∧
        ((s.cport n).replay ≠ [] → exec (.ackToExpiry n false) s = .next (State.finish s
          (((s.onPort n (fun x => { x with resend := x.replay.map seqOf, nakAck := none, replays := Nat.min 0xFFFF (x.replays + 1) })).onCore
            (Core.bump (unitCul n) 0x104 1)).raise famCulReplay (unitCul n))))) ∧
      (∀ w : List (List (BitVec 64)),
        let u := s.rxWords n w
        let m := (u.cport n).rx.markers (u.cport n).rxMap (u.cport n).rxInv
        let t := u.onPort n (fun x => { (m.1.foldl (CPort.periodLane (bits (u.culTimer n) 47 32)) x) with rx := m.2 })
        let fault (e : Nat × BitVec 340 × BitVec 8) (k : State) : Bool :=
          !(k.cport n).markerOk e.1 e.2.1 || decide (2 ≤ mget 0 (k.cport n).hot e.1) || decide (4 ≤ mget 0 (k.cport n).hotBip e.1)
        ((u.cport n).rx.fill < 340 → exec (.alignmentMarker n w) s = .next (State.finish s u)) ∧
        (340 ≤ (u.cport n).rx.fill →
          exec (.alignmentMarker n w) s = .next (State.finish s (foldS (fun (e : Nat × BitVec 340 × BitVec 8) k =>
            if (k.cport n).st = .active && fault e k then k.laneFault n e.1 else k) m.1 t)) ∧
          ((∀ e ∈ m.1, (logicalLane (t.cport n).rxMap e.1).isSome = true → fault e t = false) →
            exec (.alignmentMarker n w) s = .next (State.finish s t)))) ∧
      (∀ w : Switch, (s.cport n).rxSwitch = some w → w.moved = false →
        (w.acked = true → exec (.spareSwitchCodeword n true) s = .next (State.finish s (s.onPort n (fun y => { y with
          rxBad := setBit y.rxBad (laneOf y.rxMap w.lane)
          rxMap := laneDrop (mset 0x1F y.rxMap w.lane (laneOf y.rxMap (16 + w.spare))) (16 + w.spare)
          rxSwitch := some { w with moved := true } })))) ∧
        (w.acked = false →
          let v : Switch := { w with x := ((s.cport n).rx.cw + 256) % 2048 }
          exec (.spareSwitchCodeword n true) s = .next (State.finish s (s.onPort n (fun y =>
            { y with rxSwitch := some v, lm := y.lm.filter (fun e => e.1 != 1) ++ [(1, v.lane + v.spare * 16 + v.x * 32)] }))))) ∧
      (∀ w : Switch, (s.cport n).txSwitch = some w → w.moved = false →
        exec (.spareSwitchCodeword n false) s = .next (State.finish s (s.onPort n (fun y => { y with
          txBad := setBit y.txBad (laneOf y.txMap w.lane)
          txMap := laneDrop (mset 0x1F y.txMap w.lane (laneOf y.txMap (16 + w.spare))) (16 + w.spare)
          lm := y.lm.filter (fun e => e.1 != 2)
          txSwitch := some { w with moved := true } })))) ∧
      ((s.cport n).rxSwitch = none →
        (bit (s.reg (0x80000 + n.val * 0x10000)) 1 = true → (s.cport n).peerFlags.getLsbD 1 = true →
          exec (.lossTimerExpiry n) s = .next (State.finish s (s.culRetrain n none))) ∧
        ((bit (s.reg (0x80000 + n.val * 0x10000)) 1 = false ∨ (s.cport n).peerFlags.getLsbD 1 = false) →
          exec (.lossTimerExpiry n) s = .next (State.finish s ((s.culLost n 6).sayLm n 4)))) ∧
      (∀ (hp : Fin 4) (dl : Bool) (op : BitVec 8) (h : Hdr) (d : Option Beats),
        let vc := if dl then 9 else 8
        let size := msgSize ⟨op, h, d⟩
        let split := cellSplit (s.cport n).rxUsed vc size
        let p := s.routePort h.dsti.toNat
        h.dsti ≠ s.self → op ≠ 0xC1 → cellsFit (s.cport n).rxUsed vc size = true →
        exec (.transitMessage n hp dl op h d) s = .next (State.finish s
          ((s.onPort n (fun x => { x with rxUsed := cellsAdd x.rxUsed vc split.1 split.2 })).onCore (fun k =>
            k.present (8 + n.val) (8 + if p ≤ 5 then p else n.val) k.arrival (.culvert { culOwn ⟨op, h, d⟩ with
              vc := vc, hops := hp, dl := dl, came := true, fixed := op = 0xC4 && h.hint.getLsbD 0, cells := some ⟨n, vc, split.1, split.2⟩ } []))))) ∧
      (∀ c : CulMsg, (s.cport n).queue = [c] → (s.cport n).resend = [] → c.m.beats = none → c.vc < 10 → c.cells = none → (s.cport n).turn < 10 →
        s.maySend n c [] = true →
        let last : Bool := (s.cport n).peerInst = c.m.h.dsti || c.m.op = 0xC1
        let v := BitVec.ofNat 1936 (numOf (msgBytes c.m c.vc (if c.came then c.hops + 1 else c.hops)
          (c.dl || (!last && bit (s.reg (0x80000 + n.val * 0x10000)) 3))))
        ∃ (t : State) (h : FlitHdr), exec (.culvertSend n) s = .next (State.finish s t) ∧ (t.cport n).queue = [] ∧
          h.seq = (s.cport n).txSeq ∧ h.type = 1 ∧ h.first = 0 ∧
          (t.cport n).replay = (s.cport n).replay ++ [flitBody h v] ∧ (t.cport n).txSeq = (s.cport n).txSeq + 1) ∧
      ((s.cport n).queue = [] → (s.cport n).resend = [] → exec (.idleFlitSend n) s = .next (State.finish s
        ((s.sendIdle n).onCore (Core.bump (unitCul n) 0x106 0))))) ∧
    ((s.cport n).rxSwitch.isSome = true → exec (.lossTimerExpiry n) s = .next (State.finish s s)) ∧
    (∀ w : Switch, (s.cport n).rxSwitch = some w → w.moved = true → w.cmd = none → (s.cport n).faults = [] →
      exec (.spareSwitchEnd n) s = .next (State.finish s (s.onPort n (fun y => { y with rxSwitch := none, nak := true })))) ∧
    (∀ p : Fin 8, s.cul.fences.filter (fun f => f.port = p.val) = [] → exec (.fenceLimitExpiry p) s = .next (State.finish s s)) ∧
    (∀ (p : Fin 8) (f : Fence), s.cul.fences = [f] → f.port = p.val →
      let g : Fence := { f with acked := true }
      ∃ u : Nat, (f.port ≠ 7 → u = unitCul f.port) ∧ exec (.fenceLimitExpiry p) s = .next (State.finish s
        (((({ s with cul := { s.cul with fences := [g] } } : State)).fenceRelease g f.dests).raise famCulFence u)))

/-- SERDES_READY, LANE_SIGNAL_CHANGE, TRAINING_ADVANCE, TRAINING_BUDGET_EXPIRY, TEST_WINDOW_END and RETRAIN_TIMEOUT each answer a next
state. A ready SerDes with signal on 16 lanes takes DETECT to LOCK; another state ignores it. A lane that loses signal or lock in LOCK or
MAP ends training when fewer than 16 are left, later is bad, and in service is a fault. TRAINING_ADVANCE sends the blocks of its state; in
LOCK, MAP, IDENT, CONFIG and a retrain a lane whose blocks all fail is bad, fewer than 16 good lanes in LOCK or MAP end training, and the
state ends once 16 blocks have gone and every lane in use has shown good ones. IDENT with this instance's own number without LOOP_OK goes
DOWN with LOOPBACK. A budget takes DETECT without signal DOWN with NO_PEER, DETECT with signal, LOCK and MAP with LANES and CUL_TRAIN,
IDENT, TEST and CONFIG with TIMEOUT and CUL_TRAIN. The end of TEST takes it to CONFIG with the lanes above the limit bad. A retrain that has
not completed loses the port. A port that goes DOWN keeps no command and no readiness. Cites R277, R303, R304, R305, R307, R309. -/
def Obligations.CulvertTraining : Prop :=
  (∀ (n : Fin 6) (s : State), s.Able → mrising 0 s.cul.ports = true →
    let x := s.cport n
    let st := x.st
    let down (r : Nat) : State := s.culLeave n .down r
    (∀ sig lock : BitVec 18,
      (st ≠ .detect → exec (.serdesReady n sig lock) s = .next (State.finish s s)) ∧
      (st = .detect → ∃ t : State, exec (.serdesReady n sig lock) s = .next (State.finish s t) ∧
        t.cport n = if 16 ≤ popcount sig then { x with signal := sig, lock := lock, ready := true, st := .lock, sent := 0 }
          else { x with signal := sig, lock := lock, ready := true })) ∧
    (∀ (j : Fin 18) (sig lock : Bool),
      let t := s.onPort n (fun y => { y with signal := putBit y.signal j sig, lock := putBit y.lock j lock })
      let i : Instr := .laneSignalChange n j sig lock
      ((st = .off ∨ st = .reset ∨ st = .down) → exec i s = .next (State.finish s t)) ∧
      (sig = true → lock = true → (st = .ident ∨ st = .test ∨ st = .config ∨ st = .retrain ∨ st = .active) → exec i s = .next (State.finish s t)) ∧
      (st = .detect → exec i s = .next (State.finish s (if x.ready && decide (16 ≤ popcount (putBit x.signal j sig)) then
        t.onPort n (fun y => { y with st := .lock, sent := 0 }) else t))) ∧
      ((st = .lock ∨ st = .map) → exec i s = .next (State.finish s (if popcount (putBit x.signal j sig &&& ~~~x.rxBad) < 16 then
        (t.culLeave n .down 3).raise famCulTrain (unitCul n) else t))) ∧
      ((sig = false ∨ lock = false) → (st = .ident ∨ st = .test ∨ st = .config ∨ st = .retrain) →
        exec i s = .next (State.finish s (t.onPort n (fun y => { y with rxBad := setBit y.rxBad j })))) ∧
      ((sig = false ∨ lock = false) → st = .active → exec i s = .next (State.finish s (t.laneFault n j)))) ∧
    (∀ (b : List TrainSeen) (late : BitVec 18) (k : Nat),
      let i : Instr := .trainingAdvance n b late k
      let u := s.trainSend n k
      let ph := (u.cport n).phase
      (ph ≠ .lock → ph ≠ .map → ph ≠ .ident → ph ≠ .config → ph ≠ .retrain → exec i s = .next (State.finish s u)) ∧
      ((ph = .lock ∨ ph = .map ∨ ph = .ident ∨ ph = .config ∨ ph = .retrain) →
        let u := u.onPort n (fun y => { y with
          rxBad := y.rxBad ||| (laneMask (trainFails b) &&& y.signal) ||| (if ph = .lock then y.signal &&& ~~~y.lock else 0) })
        let y := u.cport n
        let inUse (j : Nat) : Bool := y.signal.getLsbD j && !y.rxBad.getLsbD j
        let l := (trainLanes b (trainType ph)).filter (fun e => inUse e.1)
        let few := popcount (y.signal &&& ~~~y.rxBad) < 16
        ((ph = .lock ∨ ph = .map) → few → exec i s = .next (State.finish s (if y.st = .retrain then u else
          (u.culLeave n .down 3).raise famCulTrain (unitCul n)))) ∧
        (((ph ≠ .lock ∧ ph ≠ .map) ∨ ¬few) →
          ((y.sent < 16 ∨ (List.range 18).all (fun j => !inUse j || l.any (fun e => e.1 = j)) = false) → exec i s = .next (State.finish s u)) ∧
          (16 ≤ y.sent → (List.range 18).all (fun j => !inUse j || l.any (fun e => e.1 = j)) = true → ∀ (e : Nat × TBlock) (r : List (Nat × TBlock)),
            l = e :: r →
            (ph = .lock → exec i s = .next (State.finish s (u.trainLock n l))) ∧
            (ph = .map → exec i s = .next (State.finish s (u.trainMap n l late))) ∧
            (ph = .ident → exec i s = .next (State.finish s (u.trainIdent n e.2))) ∧
            (ph = .config → exec i s = .next (State.finish s (u.trainConfig n e.2))) ∧
            (ph = .retrain → exec i s = .next (State.finish s ((u.onPort n (fun y => { y with lm := [] })).trainTo n .lock))))))) ∧
    (let i : Instr := .trainingBudgetExpiry n;
      (st = .detect → x.signal = 0 → exec i s = .next (State.finish s (down 2))) ∧
      ((st = .detect ∧ x.signal ≠ 0) ∨ st = .lock ∨ st = .map → exec i s = .next (State.finish s ((down 3).raise famCulTrain (unitCul n)))) ∧
      (st = .ident ∨ st = .test ∨ st = .config → exec i s = .next (State.finish s ((down 5).raise famCulTrain (unitCul n)))) ∧
      (st = .off ∨ st = .reset ∨ st = .down ∨ st = .active ∨ st = .retrain → exec i s = .next (State.finish s s))) ∧
    (∀ (errs : List (Fin 18 × Nat)) (k : Nat),
      let bad := laneMask ((errs.filter (fun e => decide (k < e.2 * 16384))).map (fun e => e.1.val))
      (st = .test → exec (.testWindowEnd n errs k) s = .next (State.finish s (s.onPort n (fun x =>
        { x with st := .config, sent := 0, rxBad := x.rxBad ||| bad })))) ∧
      (st ≠ .test → exec (.testWindowEnd n errs k) s = .next (State.finish s s))) ∧
    (st = .retrain → exec (.retrainTimeout n) s = .next (State.finish s (s.culLost n 6))) ∧
    (st ≠ .retrain → exec (.retrainTimeout n) s = .next (State.finish s s))) ∧
  (∀ (n : Fin 6) (s : State) (l : List (Nat × TBlock)), (s.cport n).st = .lock →
    (s.trainLock n l).cport n = { s.cport n with
      st := .map, sent := 0
      rxInv := laneMask ((l.filter (fun e => e.2.inv)).map (fun e => e.1))
      rxBad := (s.cport n).rxBad ||| ~~~(laneMask (l.map (fun e => e.1))) }) ∧
  (∀ (n : Fin 6) (s : State) (b : TBlock), (s.cport n).st = .ident → b.inst = s.self → bit (s.reg (0x80000 + n.val * 0x10000)) 4 = false →
    s.trainIdent n b = s.culLeave n .down 4) ∧
  ∀ (n : Fin 6) (s : State) (r : Nat), (s.cport n).queue = [] → (s.cport n).rxSwitch = none → (s.cport n).cmd = none →
    (s.cport n).st ≠ .active → (s.cport n).st ≠ .retrain → (s.cport n).st ≠ .off →
    let y := (s.culLeave n .down r).cport n
    y.st = .down ∧ y.reason = r ∧ y.ready = false ∧ y.wait = false ∧ y.cmd = none ∧ y.queue = []

/-- Each answers a next state. A snoop unanswered for SNOOP_TO_US makes the block ping its agent once, and declares it STUCK when it had
answered a ping; nothing follows where no snoop is owed. An unanswered ping declares NO_PING, or for an instance SILENT; a stopped heartbeat
of a present, DEFINED agent declares HEARTBEAT, unless HB_TO_US is 0. A presence bit is followed while its agent is DEFINED; its fall
declares PRESENCE when the agent has something outstanding; the presence of a listed agent that has not been admitted (an unpredictable
result) is followed too, with what R4 allows beside it. A declaration raises AGENT_DEAD at the agent's port with the cause, INST_SILENT for
an instance, and nothing for agents already dead. At the end of the quiet period FRZ_READY with this instance's view goes to the
coordinator; a wait for FRZ_THAW pings it; FREEZE_LATE is raised once in a freeze. Cites R4, R31, R390, R392, R393, R394, R397, R523, R581.
-/
def Obligations.FreezeAndLiveness : Prop :=
  (∀ (s : State) (l : BitVec 6), s.Able → s.core.stopped = false →
    let k := s.core
    let me : BitVec 64 := oneHot 64 l.toNat
    (k.agentOwes l = false → exec (.snoopTimeout (.agent l)) s = .next (State.finish s s)) ∧
    (k.agentOwes l = true → k.frz.agentPings.find? (fun e => e.1 = l) = none →
      exec (.snoopTimeout (.agent l)) s = .next (State.finish s { s with core := { k with
        host := { k.host with ping := putBit k.host.ping l.toNat (!k.host.ping.getLsbD l.toNat) }
        frz := { k.frz with agentPings := k.frz.agentPings ++ [(l, false)] }
        out := .ping l (!k.host.ping.getLsbD l.toNat) :: k.out } })) ∧
    (k.agentOwes l = true → k.frz.agentPings.find? (fun e => e.1 = l) = some (l, true) →
      exec (.snoopTimeout (.agent l)) s = .next (State.finish s (s.onCore (Core.declare 3 k.self me)))) ∧
    (k.agentOwes l = true → k.frz.agentPings.find? (fun e => e.1 = l) = some (l, false) →
      exec (.snoopTimeout (.agent l)) s = .next (State.finish s s)) ∧
    (k.frz.agentPings.contains (l, false) = false → exec (.pingTimeout (.agent l)) s = .next (State.finish s s)) ∧
    (k.frz.agentPings.contains (l, false) = true → exec (.pingTimeout (.agent l)) s = .next (State.finish s (s.onCore (fun k =>
      ({ k with frz := { k.frz with agentPings := k.frz.agentPings.filter (fun e => e.1 != l) } } : Core).declare 2 k.self me)))) ∧
    (∀ i : BitVec 6,
      ((k.instOwes i = false ∨ k.frz.instPings.contains i = true ∨ k.silent i = true) → exec (.snoopTimeout (.chip i)) s = .next (State.finish s s)) ∧
      (k.frz.instPings.contains i = false → exec (.pingTimeout (.chip i)) s = .next (State.finish s s)) ∧
      (k.instOwes i = true → k.frz.instPings.contains i = false → k.silent i = false → exec (.snoopTimeout (.chip i)) s = .next (State.finish s
        { s with core := { k with
          frz := { k.frz with pingNo := k.frz.pingNo + 1, instPings := k.frz.instPings.filter (fun j => j != i) ++ [i] }
          toSend := k.toSend ++ [culOwn ⟨0xD0, { Hdr.zero with tag := (k.frz.pingNo + 1).setWidth 10, srci := k.self, dsti := i }, none⟩] } })) ∧
      (k.frz.instPings.contains i = true → exec (.pingTimeout (.chip i)) s = .next (State.finish s (s.onCore (fun k =>
        ({ k with frz := { k.frz with instPings := k.frz.instPings.filter (fun j => j != i) } } : Core).declare 5 i (BitVec.allOnes 64)))))) ∧
    (bits (s.reg 0x20600) 23 16 ≠ 0 → k.host.present.getLsbD l.toNat = true → k.defined l = true →
      exec (.heartbeatTimeout l) s = .next (State.finish s (s.onCore (Core.declare 1 k.self me)))) ∧
    (bits (s.reg 0x20600) 23 16 = 0 ∨ k.host.present.getLsbD l.toNat = false ∨ k.defined l = false →
      exec (.heartbeatTimeout l) s = .next (State.finish s s))) ∧
  (∀ (s : State) (l : BitVec 6) (up : Bool), s.Able →
    let k := s.core
    let put : Core := { k with host := { k.host with present := putBit k.host.present l.toNat up } }
    let busy : Bool := k.agentOwes l || k.host.berths.any (fun b => b.h.agent = agentId k.self l && !b.own && !b.posted)
    (s.badPresence l up = true → exec (.presenceChange l up) s = .next (State.finish s (s.onCore (Core.presenceChange l up)).upset)) ∧
    (s.badPresence l up = false → k.defined l = false → exec (.presenceChange l up) s = .next (State.finish s s)) ∧
    (s.badPresence l up = false → k.defined l = true → (up = true ∨ k.host.present.getLsbD l.toNat = false ∨ busy = false) →
      exec (.presenceChange l up) s = .next (State.finish s { s with core := put })) ∧
    (s.badPresence l up = false → k.defined l = true → up = false → k.host.present.getLsbD l.toNat = true → busy = true →
      exec (.presenceChange l up) s = .next (State.finish s { s with core := put.declare 4 k.self (oneHot 64 l.toNat) })) ∧
    exec (.pingAnswer l) s = .next (State.finish s { s with core := { k with frz := { k.frz with
      agentPings := updateWhere (fun e => e.1 = l) (fun e => (e.1, true)) k.frz.agentPings } } }) ∧
    exec (.heartbeatToggle l) s = .next (State.finish s { s with core := { k with host := { k.host with hb := k.host.hb ^^^ oneHot 64 l.toNat } } })) ∧
  (∀ (k : Core) (c : Nat) (i l : BitVec 6) (m : BitVec 64),
    (m &&& ~~~(k.tombs i) = 0 → k.declare c i m = k) ∧
    (c ≠ 5 → (k.tombs k.self).getLsbD l.toNat = false → k.declare c k.self (oneHot 64 l.toNat) =
      if k.fport l < 4 then k.raiseEv ⟨32 * famAgentDead + unitFab (k.fport l), 0, agentId k.self l, BitVec.ofNat 24 (c + k.self.toNat * 16),
        oneHot 64 l.toNat, some (k.self, oneHot 64 l.toNat)⟩ else k) ∧
    (k.tombs i = 0 → k.declare 5 i (BitVec.allOnes 64) = k.raiseEv ⟨32 * famInstSilent, 0, 0, BitVec.ofNat 24 (5 + i.toNat * 16),
      BitVec.allOnes 64, some (i, BitVec.allOnes 64)⟩)) ∧
  ∀ s : State, s.Able → s.core.stopped = false →
    let k := s.core
    ((k.frz.st ≠ 2 ∨ k.frz.ready = true) → exec .quietPeriodEnd s = .next (State.finish s s)) ∧
    (k.frz.st = 2 → k.frz.ready = false → k.frz.coord ≠ k.self → exec .quietPeriodEnd s = .next (State.finish s { s with core := { k with
      frz := { k.frz with ready := true }
      toSend := k.toSend ++ [culOwn ⟨0xD4, { Hdr.zero with
        tag := k.frz.number.setWidth 10
        param := k.view.extractLsb' 48 16
        line := k.view.extractLsb' 0 48
        srci := k.self
        dsti := k.frz.coord }, none⟩] } })) ∧
    ((k.frz.st ≠ 2 ∨ k.frz.ready = false ∨ k.frz.coord = k.self ∨ k.frz.instPings.contains k.frz.coord = true) →
      exec .thawWaitTimeout s = .next (State.finish s s)) ∧
    (k.frz.st = 2 → k.frz.ready = true → k.frz.coord ≠ k.self → k.frz.instPings.contains k.frz.coord = false →
      exec .thawWaitTimeout s = .next (State.finish s (s.onCore (Core.pingInst k.frz.coord)))) ∧
    ((k.frz.st = 0 ∨ k.frz.late = true) → exec .freezeLate s = .next (State.finish s s)) ∧
    (k.frz.st ≠ 0 → k.frz.late = false → exec .freezeLate s = .next (State.finish s (s.onCore (fun k =>
      ({ k with frz := { k.frz with late := true } } : Core).raise famFreezeLate 0))))

/-- Each answers a next state. At the leader's limit, while it decides, one COMMIT_GO goes to every member with the outcome of the first row
that holds: the code of the lowest-numbered member that reports one; 0x15 with the lowest whose identifier differs; 0x16 with the lowest
that has not reported; and 0x00. A member that has no COMMIT_GO at its limit completes with FAILED, code 0x16 and the leader named.
HELLO_RESEND sends the instance's HELLO under the next send number while DISCOVER runs. The quiet period ends the round with OK once a
resend has been made and not before; the limit ends it with FAILED. With nothing under way these do nothing. Cites R432, R504, R507, R509,
R510. -/
def Obligations.CommitAndDiscovery : Prop :=
  (∀ s : State, s.Able → s.start.commit.deciding = true →
    let c := s.start.commit
    let rep (m : BitVec 6) : Option Report := c.reports.find? (fun r => r.inst = m)
    let go (code entry : BitVec 8) (inst : BitVec 6) : Host.Outcome State Fault Refusal :=
      (let h : Hdr := { Hdr.zero with param := c.id.extractLsb' 48 16, line := c.id.extractLsb' 0 48, tag := code.setWidth 10
                                      peer := entry.setWidth 12, agent := inst.setWidth 12 };
       let t : State := { s with start := { s.start with commit := { c with deciding := false, reports := [] } } };
       .next (State.finish s ((foldS (fun m x => x.culControl 0xD9 m h none) (s.core.members.filter (fun m => m != s.self)) t).takeCommitGo h)))
    let ok (m : BitVec 6) : Prop := ∀ r : Report, rep m = some r → r.code = 0
    let same (m : BitVec 6) : Prop := ∀ r : Report, rep m = some r → r.id = c.id
    (∀ (m : BitVec 6) (r : Report), m ∈ s.core.members → rep m = some r → r.code ≠ 0 → (∀ q ∈ s.core.members, q < m → ok q) →
      exec .commitReportTimeout s = go r.code r.entry m) ∧
    ((∀ q ∈ s.core.members, ok q) →
      (∀ (m : BitVec 6) (r : Report), m ∈ s.core.members → rep m = some r → r.id ≠ c.id → (∀ q ∈ s.core.members, q < m → same q) →
        exec .commitReportTimeout s = go 0x15 0 m) ∧
      ((∀ q ∈ s.core.members, same q) →
        (∀ m : BitVec 6, m ∈ s.core.members → rep m = none → (∀ q ∈ s.core.members, q < m → (rep q).isSome = true) →
          exec .commitReportTimeout s = go 0x16 0 m) ∧
        ((∀ q ∈ s.core.members, (rep q).isSome = true) → exec .commitReportTimeout s = go 0 0 0)))) ∧
  (∀ s : State, s.Able → s.start.commit.deciding = false → exec .commitReportTimeout s = .next (State.finish s s)) ∧
  (∀ s : State, s.Able →
    let c := s.start.commit
    ((c.cmd = none ∨ c.isLeader = true) → exec .commitGoTimeout s = .next (State.finish s s)) ∧
    (∀ i : Nat, c.cmd = some i → c.isLeader = false →
      let t : State := { s with start := { s.start with commit := { c with cmd := none, deciding := false } } }
      let r : Word := at' 0x16 0 ||| at' 0 8 ||| at' c.leader.toNat 16 ||| at' (if c.leader = s.self then 0 else 1) 22
      exec .commitGoTimeout s = .next (State.finish s (t.complete i tsFailed r [])))) ∧
  ∀ s : State, s.Able →
    let d := s.start.disc
    (d.cmd = none → exec .helloResend s = .next (State.finish s s) ∧ exec .discoverLimit s = .next (State.finish s s)) ∧
    ((d.cmd = none ∨ d.resent = false) → exec .discoverQuietEnd s = .next (State.finish s s)) ∧
    (∀ i : Nat, d.cmd = some i →
      let found := d.found.map (fun e => if e.1 = s.self then (e.1, s.ownP) else e)
      let word (j : Nat) : Word := match found.find? (fun e => e.1.toNat = j) with
        | some e => e.2.setWidth 64 ||| at' 1 63
        | none => 0
      let first := ((List.range 64).find? (fun j => found.any (fun e => e.1.toNat = j && e.2.getLsbD 60))).getD 0x3F
      let t : State := { s with start := { s.start with disc := { d with cmd := none, last := found } } }
      let ends (st : BitVec 8) : State := t.complete i st (at' found.length 0 ||| at' first 8) ((List.range 64).map word)
      let u : State := { s with start := { s.start with disc := { d with send := d.send + 1, resent := true } } }
      exec .helloResend s = .next (State.finish s u.helloSend) ∧
      exec .discoverLimit s = .next (State.finish s (ends tsFailed)) ∧
      (d.resent = true → exec .discoverQuietEnd s = .next (State.finish s (ends tsOk))))

/-- Each answers a next state. A slot's timer that expires takes the next step of its unit's path that is above its severity, logs an
escalation entry, restarts and acts, or stops where there is no step or the step lies above the ceiling; an empty or stopped slot does
nothing. A closing window with a count logs a repeat summary. The collector writes its own entries, then the queue's oldest, into the ring
and, when armed, FLT_FIRST; a full ring counts it in LOST. A pulse's end releases its pin, unless HOLD keeps it (and no RELEASE was written)
or the block is SEALED. The first mismatch of a Lockkeeper copy masks it and raises LK_VOTE, a masked copy's does nothing, and another seals
the block. An event at NOTIFY sets its interrupt source, at URGENT both, with pin 0 and a slot, and at LOG or IGNORE none. Cites R358, R363,
R367, R369, R370, R371, R372, R373. -/
def Obligations.FaultCollection : Prop :=
  (∀ (s : State) (j : Fin 16), s.Able →
    let k := s.core
    (mget none k.flt.slots j = none → exec (.escalationExpiry j) s = .next (State.finish s s)) ∧
    (∀ x : EscSlot, mget none k.flt.slots j = some x →
      let path := escPath (unitOf (x.src / 32) (x.src % 32))
      let put (y : EscSlot) : Core := { k with flt := { k.flt with slots := mset none k.flt.slots j (some y) } }
      (x.stopped = true → exec (.escalationExpiry j) s = .next (State.finish s s)) ∧
      (x.stopped = false → (∀ v ∈ path, v ≤ x.sev ∨ bits (s.reg 0x20400) 19 17 < v) →
        exec (.escalationExpiry j) s = .next (State.finish s { s with core := put { x with stopped := true } })) ∧
      (∀ v : Nat, x.stopped = false → v ∈ path → x.sev < v → (∀ w ∈ path, x.sev < w → v ≤ w) → v ≤ bits (s.reg 0x20400) 19 17 →
        unitOf (x.src / 32) (x.src % 32) ≠ .agent →
        let p := put { x with sev := v, expiry := k.tb + Nat.min 100000 (Nat.max 1 (bits (s.reg 0x20400) 16 0)) * 100 }
        let e := mkEntry k.flt.seq k.tb x.src v 1 0 (BitVec.ofNat 24 x.sev) 0 0 0
        let q : Core := { p with flt := { p.flt with seq := k.flt.seq + 1, made := k.flt.made ++ [e] } }
        exec (.escalationExpiry j) s = .next (State.finish s { s with core := (q.firePins v).act v x.src x.cause x.agents })))) ∧
  (escPath .slice = [3, 4, 7] ∧ escPath .culvert = [3, 5, 7] ∧ escPath .fabric = [3, 5, 7] ∧ escPath .memory = [3, 5, 7] ∧
    escPath .agent = [3, 6, 7] ∧ escPath .none = [3, 7]) ∧
  (∀ (s : State) (src : BitVec 11), s.Able →
    let k := s.core
    let shut : Core := { k with flt := { k.flt with windows := k.flt.windows.filter (fun v => v.src != src.toNat) } }
    (k.flt.windows.find? (fun w => w.src = src.toNat) = none → exec (.coalesceWindowClose src) s = .next (State.finish s s)) ∧
    (∀ w : CoalWin, k.flt.windows.find? (fun w => w.src = src.toNat) = some w →
      (w.count = 0 → exec (.coalesceWindowClose src) s = .next (State.finish s { s with core := shut })) ∧
      (w.count ≠ 0 → ∃ d : BitVec 64, exec (.coalesceWindowClose src) s = .next (State.finish s { s with core := { shut with
        freeCtr := k.freeCtr + 1
        flt := { shut.flt with
          seq := k.flt.seq + 1
          made := k.flt.made ++ [mkEntry k.flt.seq k.tb src.toNat w.sev 2 (Nat.min 255 w.count) 0 0 0 d] } } })))) ∧
  (∀ s : State, s.Able →
    let f := s.core.flt
    let full : Bool := f.wr - f.rd = 1024
    let wrote (g : Faults) (e : BitVec 256) : State := { s with core := { s.core with flt := { g with
      ring := mset 0 f.ring (f.wr.toNat % 1024) e
      wr := f.wr + 1
      first := if f.firstValid then f.first else e
      firstValid := true } } }
    let lost (g : Faults) (e : BitVec 256) : State := { s with core := { s.core with flt := { g with
      lost := Nat.min 0xFFFFFFFF (f.lost + 1)
      lostSev := Nat.max f.lostSev (e.extractLsb' 91 3).toNat
      lossDue := f.lossDue + 1
      lossSev := Nat.max f.lossSev (e.extractLsb' 91 3).toNat } } }
    (f.made = [] → f.queue = [] → exec .logEntryWrite s = .next (State.finish s s)) ∧
    ((f.lossDue = 0 ∨ full = true) →
      (∀ (e : BitVec 256) (l : List (BitVec 256)), f.made = e :: l →
        exec .logEntryWrite s = .next (State.finish s (if full then lost { f with made := l } e else wrote { f with made := l } e))) ∧
      (∀ (e : BitVec 256) (l : List (BitVec 256)), f.made = [] → f.queue = e :: l →
        exec .logEntryWrite s = .next (State.finish s (if full then lost { f with queue := l } e else wrote { f with queue := l } e)))) ∧
    (f.lossDue ≠ 0 → full = false → (f.made ≠ [] ∨ f.queue ≠ []) →
      exec .logEntryWrite s = .next (State.finish s (wrote { f with seq := f.seq + 1, lossDue := 0, lossSev := 0 }
        (mkEntry f.seq s.core.tb 0 f.lossSev 3 0 0 0 0 (BitVec.ofNat 64 (Nat.min 0xFFFFFFFF f.lossDue + f.lossSev * 2 ^ 32)))))) ∧
    (let q (p : ErrPin) (b : Nat) : ErrPin := ⟨s.core.block = .sealed_ || (bit (s.reg 0x20440) b && !p.release), false, false⟩;
      (f.pin0.pulse = false → exec (.errPulseEnd 0) s = .next (State.finish s s)) ∧
      (f.pin1.pulse = false → exec (.errPulseEnd 1) s = .next (State.finish s s)) ∧
      (f.pin0.pulse = true → exec (.errPulseEnd 0) s = .next (State.finish s { s with core := { s.core with flt := { f with pin0 := q f.pin0 16 } } })) ∧
      (f.pin1.pulse = true → exec (.errPulseEnd 1) s = .next (State.finish s { s with core := { s.core with flt := { f with pin1 := q f.pin1 17 } } }))) ∧
    ∀ k : Fin 3,
      (f.masked = 0 → exec (.lkVoteMismatch k) s = .next (State.finish s (s.onCore (fun c =>
        ({ c with flt := { c.flt with masked := setBit c.flt.masked k.val } } : Core).raise famLkVote k.val)))) ∧
      (f.masked.getLsbD k.val = true → exec (.lkVoteMismatch k) s = .next (State.finish s s)) ∧
      (f.masked ≠ 0 → f.masked.getLsbD k.val = false → exec (.lkVoteMismatch k) s = .next (State.finish s (s.onCore Core.sealBlock)))) ∧
  ∀ (k : Core) (e : FltEvent),
    let v := k.severityOf e.src
    (v ≤ 1 → k.handle e = k) ∧
    (v = 2 → k.handle e = k.setReg 0x10E00 (k.reg 0x10E00 ||| 1)) ∧
    (v = 3 → k.handle e = ((k.setReg 0x10E00 (k.reg 0x10E00 ||| 3)).firePins 3).escalate e 3)

/-- Each answers a next state. For a pair that runs, not in PROOF: a window whose copies' signatures agree is released; one whose signatures
differ, or in which GAL_INJECT struck, counts a rewind and raises GALLEY_REWIND, and is released, or, when they differ again, is discarded
with GALLEY_HARD. In PROOF none rewinds, and the first divergence is logged, sets DIVERGED and raises PROOF_DIVERGE. A release empties the
window and takes a checkpoint; a discard restores it. A sweep restarts the slice's gated clock, counts corrected words, puts right each
register that one parity vouches for (GALLEY_SWEEP), raises GALLEY_LATENT for one that it cannot put right, and GALLEY_CS_UE for a double-
bit error. A stall outside SERVICE mode raises GALLEY_STALL. A waiting cut-over or end of PROOF is made at the quiesce point, where a
diverged pair is resynced when the register asks for it. LIMIT_S in PROOF sets EXPIRED and orders the re-join, and FORCE_US after a
divergence is a quiesce point. A pair that does not run ignores all of these. A waking slice that passes becomes SPARE or READY, and one
whose comparators fail SEALED. A drain ends once every drained slice has been emptied. A failover's settle ends at its step 1 once all is
answered, and its take-over maps the logical slice to the ready spare, whose mode event leads to RECOVERY. Cites R334, R335, R336, R337,
R338, R341, R349, R352, R354, R383, R419, R516. -/
def Obligations.PairsAndFailover : Prop :=
  (∀ (s : State) (p : Fin 18), s.Able →
    let g := s.gal p
    let awake := s.ungate p
    (s.galRuns p = false → (∀ r : SweepSeen, exec (.registerSweep p r) s = .next (State.finish s awake)) ∧
      ∀ v : WinSeen, ∀ i ∈ ([.galleyWindowClose p v, .galleyStall p, .quiescePoint p, .proofLimitExpiry p, .proofForceResync p] : List Instr),
        exec i s = .next (State.finish s s)) ∧
    (Map.wf Gal.reset s.gals = true → Map.wf Slice.reset s.core.slices = true →
      let r := s.galRelease p
      let d := s.galDiscard p
      r.core = s.core ∧ (r.gal p).items = [] ∧ (r.gal p).under = none ∧ (r.gal p).ckpt.mode = (s.slice p).mode ∧ (r.gal p).ckpt.regs = g.regs ∧
      (d.gal p).items = [] ∧ (d.gal p).under = none ∧ (d.gal p).regs = g.ckpt.regs ∧ (d.slice p).mode = g.ckpt.mode ∧
      ∀ u : Slice, g.under = some u → (d.slice p).hs = u.hs ∧ (d.slice p).ls = u.ls ∧ (d.slice p).barges = u.barges ∧
        (d.slice p).chambers = u.chambers ∧ (d.slice p).skl = u.skl) ∧
    (s.galRuns p = true →
      (g.split = false →
        (∀ d : Divergence, exec (.galleyWindowClose p (.diverge d)) s = .next (State.finish s (s.galRelease p))) ∧
        (∀ first second : List Nat, s.galInjected p = false → g.differs first = false →
          exec (.galleyWindowClose p (.struck first second)) s = .next (State.finish s (s.galRelease p))) ∧
        (∀ first second : List Nat, (s.galInjected p = true ∨ g.differs first = true) →
          let rewound : State := (((s.onGal p (fun g => { g with inject := g.inject && !s.galInjected p })).onGal p (fun g => { g with
            rewinds := Nat.min 0xFFFF (g.rewinds + 1) })).onCore (Core.bump p 0x040 1)).raise famGalleyRewind p
          exec (.galleyWindowClose p (.struck first second)) s = .next (State.finish s
            (if g.differs second then (rewound.galDiscard p).raise famGalleyHard p else rewound.galRelease p))) ∧
        (g.inject = false → ∀ (l : List RegFlip) (ce : Nat) (csUe : Bool),
          let bad := l.filter RegFlip.differs
          let fixed := foldS (fun (_ : RegFlip) t => (t.onGal p (fun g => { g with sweepFix := Nat.min 0xFFFF (g.sweepFix + 1) })).raise famGalleySweep p)
            (bad.filter RegFlip.fixable) awake
          let t := (if bad.all RegFlip.fixable then fixed else fixed.raise famGalleyLatent p).onGal p
            (fun g => { g with csCorr := Nat.min 0xFFFF (g.csCorr + ce) })
          exec (.registerSweep p ⟨l, ce, csUe, false⟩) s = .next (State.finish s (if csUe then t.raise famGalleyCsUe p else t)))) ∧
      (g.split = true →
        (∀ first second : List Nat, exec (.galleyWindowClose p (.struck first second)) s = .next (State.finish s (s.galRelease p))) ∧
        (∀ (l : List RegFlip) (ce : Nat), exec (.registerSweep p ⟨l, ce, false, false⟩) s = .next (State.finish s
          (awake.onGal p (fun g => { g with csCorr := Nat.min 0xFFFF (g.csCorr + ce) })))) ∧
        (∀ d : Divergence, g.stopped = true → exec (.galleyWindowClose p (.diverge d)) s = .next (State.finish s (s.galRelease p))) ∧
        (∀ d : Divergence, g.stopped = false → g.diverged = false → g.log.length < 256 →
          exec (.galleyWindowClose p (.diverge d)) s = .next (State.finish s (((s.onGal p (fun g => { g with
            divergences := Nat.min 0xFFFF (g.divergences + 1)
            diverged := true
            stopped := g.stopped || d.kind = 4
            log := g.log ++ [proofEntry s.core.host.tick d] })).raise famProofDiverge p).galRelease p))) ∧
        exec (.proofLimitExpiry p) s = .next (State.finish s (s.onGal p (fun g => { g with
          expired := true
          wants := if g.wants = [] then [.proofEnd false none] else g.wants }))) ∧
        (g.diverged = true → bit (s.reg (0x100A30 + p.val * 0x10000)) 16 = true → bits (s.reg (0x100A30 + p.val * 0x10000)) 31 20 ≠ 0 →
          exec (.proofForceResync p) s = exec (.quiescePoint p) s) ∧
        (g.diverged = true → bit (s.reg (0x100A30 + p.val * 0x10000)) 16 = true → g.wants = [] → s.divReady p = false →
          let t := s.galRelease p
          exec (.quiescePoint p) s = .next (State.finish s (t.onGal p (fun g => { g with
            wants := [], diverged := false, stopped := false, checkMode := (s.slice p).mode, checkRegs := g.regs }))))) ∧
      (g.split = false → exec (.proofLimitExpiry p) s = .next (State.finish s s) ∧ exec (.proofForceResync p) s = .next (State.finish s s)) ∧
      exec (.galleyStall p) s = .next (State.finish s (if (s.slice p).mode = .service then s else s.raise famGalleyStall p)) ∧
      ((g.split = true ∨ g.inject = false) →
        let u := (s.galRelease p).onGal p (fun g => { g with wants := [] })
        (∀ c : Nat, g.wants = [.cut c] →
          let t := (u.galExchange p).complete c tsOk ((u.galExchange p).slice p).control.describe []
          (t.gal p).diverged = false → t.divReady p = false → exec (.quiescePoint p) s = .next (State.finish s t)) ∧
        ∀ (cut : Bool) (c : Option Nat), g.wants = [.proofEnd cut c] →
          let v := if cut then (u.galRejoin p).galExchange p else u.galRejoin p
          let t := v.completeOpt c tsOk (v.proofStat p)
          (t.gal p).diverged = false → t.divReady p = false → exec (.quiescePoint p) s = .next (State.finish s t))) ∧
    (∀ (l : List WayFault) (ok : Bool), (s.slice p).st ≠ .waking → exec (.wakingComplete p l ok) s = .next (State.finish s s)) ∧
    (∀ l : List WayFault, (s.slice p).st = .waking → (s.slice p).forFailover = false →
      (∃ t : State, exec (.wakingComplete p l true) s = .next (State.finish s t) ∧
        (t.slice p).st = if (s.slice p).fromSpare then .spare else .ready) ∧
      ∃ t : State, exec (.wakingComplete p l false) s = .next (State.finish s t) ∧ (t.slice p).st = .sealed_) ∧
    (s.start.drains.find? (fun j => j.parts.contains p.val) = none → exec (.drainComplete p) s = .next (State.finish s s)) ∧
    (∀ j : DrainJob, s.start.drains.find? (fun j => j.parts.contains p.val) = some j →
      exec (.drainComplete p) s = .next (State.finish s (if !s.core.stopped && j.parts.all s.core.drained? then s.drainFinish j else s)))) ∧
  ∀ (s : State) (l : Fin 16) (bad : List LineAddr), s.Able →
    (s.core.failovers.find? (fun f => f.logical = l.val && f.step = 1) = none → exec (.failoverSettleDone l bad) s = .next (State.finish s s)) ∧
    (s.core.failovers.find? (fun f => f.logical = l.val && f.step = 3) = none → exec (.failoverTakeover l) s = .next (State.finish s s)) ∧
    (∀ f : Failover, s.core.failovers.find? (fun f => f.logical = l.val && f.step = 1) = some f →
      (s.core.settled f.failed = false → exec (.failoverSettleDone l bad) s = .next (State.finish s s)) ∧
      (s.core.settled f.failed = true → s.core.stopped = false → (s.core.slice f.failed).skl = [] → (s.core.slice f.failed).drip = [] →
        (s.core.slice f.failed).barges = [] → exec (.failoverSettleDone l bad) s = .next (State.finish s (s.onCore (fun k =>
          ({ k with failovers := updateWhere (fun f => f.logical = l.val) (fun f => { f with step := 3 }) k.failovers } : Core).onSlice f.failed
            (fun x => { x with warm := [], drip := [], skl := [] })))))) ∧
    ∀ (f : Failover) (q : Nat) (hot : Bool), s.core.failovers.find? (fun f => f.logical = l.val && f.step = 3) = some f →
      s.core.spareOf f = some (q, hot) →
      (s.core.spareReady q = false → exec (.failoverTakeover l) s = .next (State.finish s s)) ∧
      (s.core.spareReady q = true → s.core.stopped = false → f.lost = [] →
        ∃ t : State, exec (.failoverTakeover l) s = .next (State.finish s t) ∧ mfind t.core.host.remap l.val = some q ∧
          (t.core.slice q).st = .serving ∧ (t.core.slice q).logical = some l.val ∧ (t.core.slice q).spillAll = true ∧ Up.mode q 3 ∈ t.core.up)

/-- Each answers a next state. Recognition of a power failure outside OFF and PILOT holds the block and sets SEEN, once; DRAIN_LATE is set
only while guaranteed lines are left. PWR_GOOD rising in PILOT enters INIT with CAUSE 1; falling, it takes a powered block to PILOT. The
always-on supply takes OFF to PILOT, or on to INIT, and its loss takes any state to OFF. The self-test ends in STANDBY when everything
passes, and in SEALED without a working voter. A grant counts and takes its request's steps, and REQ falls; one that meets no request, or
races a withdrawal, takes none; a late grant, a stuck GNT and a GNT that falls while REQ is 1 raise PWR_CLK. A half that fails is out of
service beside a good one. A domain comes on, or is removed, only while it was changing, and in INIT the next one then ramps. A quiet clock
is gated only in Idle. A clock that stops raises CLK_FAIL once. A wake slot that sees its event sets its FIRED bit. An intrusive test
instruction is in force only under all its conditions, and what ends it, a refused one included, is a block reset to INIT. On a block
without main power the other events change nothing. Cites R270, R274, R275, R416, R468, R474, R482, R484, R486, R492, R499, R590. -/
def Obligations.PowerEvents : Prop :=
  (∀ s : State, s.powered = false → ∀ i ∈ ([.stampSweep, .scrubBurst, .ageTick, .counterMcUpdate, .traceRecordWrite, .logbookSpill, .dumpPeriodExpiry,
    .logEntryWrite, .commitReportTimeout, .commitGoTimeout, .helloResend, .discoverQuietEnd, .discoverLimit, .quietPeriodEnd, .thawWaitTimeout,
    .freezeLate, .drainLateTimer, .pwrLeaveGnt false, .pwrLeaveGnt true, .leaveWaitTimeout, .gntStuckTimeout, .pwrLeaveGntFall false,
    .pwrLeaveGntFall true, .wrapperReset] : List Instr),
      exec i s = .next s) ∧
  (∀ s : State, s.tow.waiting = [] →
    let k := s.core
    let with' (p : PowerFail) : State := { s with core := { k with pf := p } }
    exec .pwrFailNRise s = .next (State.finish s (with' { k.pf with failHigh := true })) ∧
    ((k.block = .off ∨ k.block = .pilot ∨ k.pf.hold = true) →
      exec .pwrFailRecognise s = .next (State.finish s (with' { k.pf with failHigh := false }))) ∧
    (k.block ≠ .off → k.block ≠ .pilot → k.pf.hold = false → ∃ t : State, exec .pwrFailRecognise s = .next (State.finish s t) ∧
      t.core.pf.hold = true ∧ t.core.pf.seen = true ∧ t.core.pf.failHigh = false) ∧
    (s.powered = true → exec .drainLateTimer s = .next (State.finish s
      (if k.pf.hold && !k.pf.left.isEmpty then with' { k.pf with drainLate := true } else s))) ∧
    (let good (c : Nat) : State := { s with pwr := { s.pwr with good := true, cause := c } };
      (k.block = .pilot → s.pwr.good = false → exec .pwrGoodRise s = .next (State.finish s (good 1).enterInit)) ∧
      ((k.block ≠ .pilot ∨ s.pwr.good = true) → exec .pwrGoodRise s = .next (State.finish s (good s.pwr.cause)))) ∧
    (s.powered = true → exec .pwrGoodFall s = .next (State.finish s
      (({ s with pwr := { s.pwr with good := false, goodLost := true } } : State).blockReset .pilot))) ∧
    (s.powered = false → exec .pwrGoodFall s = .next (State.finish s { s with pwr := { s.pwr with good := false } })) ∧
    (∀ st : Straps,
      (k.block ≠ .off → ∀ g : Bool, exec (.alwaysOnSupplyOn st g) s = .next (State.finish s s)) ∧
      (k.block = .off → (∃ t : State, exec (.alwaysOnSupplyOn st false) s = .next (State.finish s t) ∧ t.core.block = .pilot ∧
          t.pwr.strapAddr = st.addr ∧ t.pwr.strapLeader = st.leader ∧ t.pwr.strapTest = st.test ∧ t.pwr.fired = 0 ∧ t.tow.wire = some []) ∧
        ∃ t : State, exec (.alwaysOnSupplyOn st true) s = .next (State.finish s t) ∧ t.core.block = .init ∧ t.pwr.strapAddr = st.addr ∧ t.pwr.cause = 1)) ∧
    (∃ t : State, exec .alwaysOnSupplyOff s = .next (State.finish s t) ∧ t.core.block = .off ∧ t.core.doms = 0 ∧ t.core.regs = [] ∧ t.pwr.fired = 0) ∧
    (∀ d : Fin 80,
      (s.pwr.ramp.getLsbD d = false → exec (.domainRegulation d) s = .next (State.finish s s)) ∧
      (s.pwr.ramp.getLsbD d = true → 54 ≤ d.val → s.pwr.work = [] →
        ((k.block ≠ .init ∨ initNext d = none) → exec (.domainRegulation d) s = .next (State.finish s
          { s with pwr := { s.pwr with ramp := clearBit s.pwr.ramp d }, core := { k with doms := setBit k.doms d } })) ∧
        ∀ e : Nat, k.block = .init → initNext d = some e → exec (.domainRegulation d) s = .next (State.finish s
          { s with pwr := { s.pwr with ramp := setBit (clearBit s.pwr.ramp d) e }, core := { k with doms := setBit k.doms d } })) ∧
      (s.pwr.falling.getLsbD d = false → exec (.domainPowerRemoved d) s = .next (State.finish s s)) ∧
      (s.pwr.falling.getLsbD d = true → s.pwr.work = [] → exec (.domainPowerRemoved d) s = .next (State.finish s
        { s with pwr := { s.pwr with falling := clearBit s.pwr.falling d } }))) ∧
    ∀ j : Fin 16,
      let w := s.reg (0x30400 + j.val * 8)
      let src := bits w 15 8
      ((k.block = .off ∨ bit w 0 = false ∨ irqReserved src = true ∨ irqSoft src = true ∨ (k.doms.getLsbD 78 = false ∧ (src < 112 ∨ 128 ≤ src ∨ s.pwr.absent.getLsbD 36 = true))) →
        exec (.wakeSlotFire j) s = .next (State.finish s s)) ∧
      (k.block ≠ .off → bit w 0 = true → irqReserved src = false → irqSoft src = false →
        (k.doms.getLsbD 78 = true ∨ (112 ≤ src ∧ src < 128 ∧ s.pwr.absent.getLsbD 36 = false)) →
        let t : State := { s with pwr := { s.pwr with fired := setBit s.pwr.fired j, gated := 0, wharfGated := false } }
        let u : State := { t with pwr := { t.pwr with cause := 2 } }
        exec (.wakeSlotFire j) s = .next (State.finish s (if k.block = .pilot ∧ s.pwr.good = true then u.enterInit else t)))) ∧
  ∀ s : State, s.Able →
    let p := s.pwr
    let put (q : Pwr) : State := { s with pwr := q }
    (∀ r : SelfTest, (s.core.block ≠ .init ∨ [74, 75, 76, 77, 78].all (fun d => s.core.doms.getLsbD d) = false) →
      exec (.initSelftestDone r) s = .next (State.finish s s)) ∧
    (∀ r : SelfTest, s.core.block = .init → [74, 75, 76, 77, 78].all (fun d => s.core.doms.getLsbD d) = true →
      (r.voterOk = false → ∃ t : State, exec (.initSelftestDone r) s = .next (State.finish s t) ∧ t.core.block = .sealed_) ∧
      (r.lkOk = 7 → r.voterOk = true → r.berthA = false → r.berthB = true → r.wharfA = true → r.wharfB = true → s.core.flt.halves = 0 →
        ∃ t : State, exec (.initSelftestDone r) s = .next (State.finish s t) ∧ t.core.block = .standby ∧ t.core.doms = s.core.doms ∧
          t.core.flt.halves = 1) ∧
      (r.lkOk = 7 → r.voterOk = true → r.berthA = true → r.berthB = true → r.wharfA = true → r.wharfB = true →
        ∃ t : State, exec (.initSelftestDone r) s = .next (State.finish s t) ∧ t.core.block = .standby ∧ t.core.doms = s.core.doms ∧
          t.start.initStat = (at' 7 0 ||| at' 1 3 ||| at' 1 4 ||| at' 1 5 ||| at' 1 6 ||| at' 1 7 ||| at' r.repaired.toNat 16 ||| at' r.timeUs.toNat 32))) ∧
    (∀ raced : Bool,
      (p.gnt = true → exec (.pwrLeaveGnt raced) s = .next (State.finish s s)) ∧
      (p.gnt = false → p.shown = none →
        exec (.pwrLeaveGnt raced) s = .next (State.finish s (put { p with gnt := true, grantedAt := none, withdrawnAt := none }))) ∧
      (∀ r : Leave, p.gnt = false → p.shown = some r → (raced = false ∨ p.withdrawnAt ≠ some s.core.tb) →
        exec (.pwrLeaveGnt raced) s = .next (State.finish s (foldS State.leaveStep r.steps (put { p with
          gnt := true
          shown := none
          req := false
          withdrawnAt := none
          grantedAt := some s.core.tb
          lastWait := Nat.min 0xFFFF ((s.core.tb - p.raisedAt) / 100)
          count := Nat.min 255 (p.count + 1) })))) ∧
      ∀ r : Leave, p.gnt = false → p.shown = some r → raced = true → p.withdrawnAt = some s.core.tb →
        exec (.pwrLeaveGnt raced) s = .next (State.finish s (put { p with
          gnt := true, shown := none, req := false, queue := r :: p.queue, withdrawnAt := none, grantedAt := none }))) ∧
    exec .leaveWaitTimeout s = .next (State.finish s (if p.req && !p.late && bits (s.reg 0x30020) 15 0 != 0 then
      (put { p with late := true }).raise famPwrClk 0 else s)) ∧
    exec .gntStuckTimeout s = .next (State.finish s (if p.gnt && !p.req && !p.stuck then (put { p with stuck := true }).raise famPwrClk 0 else s)) ∧
    (∀ early : Bool, exec (.pwrLeaveGntFall early) s = .next (State.finish s
      (if p.gnt then ((if early && s.reqLinger then s.raise famPwrClk 0 else s).onPwr (fun p => { p with
          gnt := false, stuck := false, grantedAt := none })).leavePump
        else if p.req then s.raise famPwrClk 0 else s))) ∧
    (∀ g : Option (Fin 18), p.idle = false → exec (.idleGateClose g) s = .next (State.finish s s)) ∧
    (p.idle = true → s.wharfQuiet = true → p.wharfGated = false →
      exec (.idleGateClose none) s = .next (State.finish s ((put { p with wharfGated := true }).onCore (Core.bump 32 0x204 1)))) ∧
    (∀ g : Fin 18, p.idle = true → s.mayGate g = true → s.sliceQuiet g = true → p.gated.getLsbD g = false →
      exec (.idleGateClose (some g)) s = .next (State.finish s ((put { p with gated := setBit p.gated g }).onCore (Core.bump g 0x041 1)))) ∧
    (∀ d : Fin 40,
      ((p.absent.getLsbD d = true ∨ s.clockRuns d = false) → exec (.clockAbsent d) s = .next (State.finish s s)) ∧
      (p.absent.getLsbD d = false → s.clockRuns d = true → d.val < 18 →
        exec (.clockAbsent d) s = .next (State.finish s ((put { p with absent := setBit p.absent d }).raise famClkFail d))) ∧
      exec (.clockReturn d) s = .next (State.finish s (if p.absent.getLsbD d then
        put { p with absent := clearBit p.absent d, fallback := p.fallback && decide (d.val ≠ 37) } else s))) ∧
    (∀ ir : BitVec 5,
      let v := wirActs ir
      let reset := (put { p with wir := 0 }).enterInit
      (wirIntrusive v = true → exec (.wrapperUpdate ir) s = .next (State.finish s
        (if p.strapTest = true ∧ s.core.block = .standby ∧ (List.range 6).all (fun n => decide ((s.cport n).st.code ≤ 1)) = true ∧ s.core.host.present = 0 then put { p with wir := v }
          else if wirIntrusive p.wir then reset else put { p with wir := 0 }))) ∧
      (wirIntrusive v = false → exec (.wrapperUpdate ir) s = .next (State.finish s
        (if wirIntrusive p.wir then reset else put { p with wir := v })))) ∧
    exec .wrapperReset s = .next (State.finish s (if wirIntrusive p.wir then (put { p with wir := 0 }).enterInit else put { p with wir := 0 }))

/-- Each answers a next state. A tick advances AGE_NOW by one and the cycle count by four. In an mc a counter that is not chained grows by
the counts of its event, at most 4,095, when it runs and its group is not held, modulo 2^48. A dump period with periodic dumps off does
nothing, counts in SKIPPED while a dump runs or is paused, and else starts a dump under the next sequence number. The Logbook off, or with
nothing waiting, writes nothing; a full ring without WRAP loses the record; a loss summary goes first; else the next record goes to the
ring, which loses its oldest when full. Eight records spill as one line when spilling is on and may go on. Cites R198, R531, R532, R538,
R544, R545, R546. -/
def Obligations.CountersDumpsLogbook : Prop :=
  (∀ s : State, s.Able → ∃ t : State, exec .ageTick s = .next (State.finish s t) ∧ t.core.host.tick = s.core.host.tick + 1 ∧
    t.core.cycles = s.core.cycles + 4 ∧ t.core.regs = s.core.regs ∧ t.irq = s.irq) ∧
  (∀ s : State, s.Able → Map.wf 0 s.watch.val = true → ∃ t : State, exec .counterMcUpdate s = .next (State.finish s t) ∧
    ∀ c : Fin 408, s.cntChained c = false →
      let cfg := s.reg (0x41000 + c.val * 8)
      let grp := cntGroup c
      let n := if bit cfg 10 && !bit (s.reg (0x42000 + grp * 8)) 1 && bits cfg 9 0 != 0 then Nat.min 4095 (mget 0 s.core.cntPend (grp * 1024 + bits cfg 9 0)) else 0
      mget 0 t.watch.val c = (mget 0 s.watch.val c + n) % 2 ^ 48) ∧
  ∀ s : State, s.Able →
    let w := s.watch
    let put (v : Watch) : State := { s with watch := v }
    ((bit (s.reg 0x42200) 0 = false ∨ s.core.stopped = true) → exec .dumpPeriodExpiry s = .next (State.finish s s)) ∧
    (bit (s.reg 0x42200) 0 = true → s.core.stopped = false →
      ((w.dump.isSome = true ∨ s.core.gatePaused gateDump = true) →
        exec .dumpPeriodExpiry s = .next (State.finish s (put { w with skipped := Nat.min 0xFFFF (w.skipped + 1) }))) ∧
      (w.dump = none → s.core.gatePaused gateDump = false →
        ∃ t : State, exec .dumpPeriodExpiry s = .next (State.finish s t) ∧ t.watch.dumpSeq = w.dumpSeq + 1 ∧ t.watch.dump.isSome = true)) ∧
    (s.logOn = false ∨ w.nextTrace = none → exec .traceRecordWrite s = .next (State.finish s s)) ∧
    (∀ (r : BitVec 256) (v : Watch), s.logOn = true → w.nextTrace = some (r, v) →
      let full : Bool := (w.wr - w.rd).toNat = 2048
      let into (x : Watch) (e : BitVec 256) : Watch := { x with
        sram := mset 0 x.sram (x.wr.toNat % 2048) e
        rd := if full then x.rd + 1 else x.rd
        wr := x.wr + 1 }
      (full = true → bit (s.reg 0x43000) 2 = false → exec .traceRecordWrite s = .next (State.finish s (put { v with
        lost := Nat.min 0xFFFFFFFF (v.lost + 1)
        lossDue := v.lossDue + 1 }))) ∧
      ((full = false ∨ bit (s.reg 0x43000) 2 = true) →
        (w.lossDue ≠ 0 → exec .traceRecordWrite s = .next (State.finish s (put { into w (traceMark s.core.host.tick 3 0
          (Nat.min 0xFFFFFFFF w.lossDue) s.core.tb) with lossDue := 0 }))) ∧
        (w.lossDue = 0 → exec .traceRecordWrite s = .next (State.finish s (put (into v r)))))) ∧
    exec .logbookSpill s = .next (State.finish s (if !bit (s.reg 0x43000) 1 || (w.wr - w.rd).toNat < 8 || w.spillFault ||
      s.core.gatePaused gateLogbook || s.core.stopped then s else s.spillOne 8))
end

