-- ==== Sys2Proof/Laws/Kept.lean ====
section
/-!
SUPPORT. Sys2Proof/Laws/Kept.lean: what no operation of the block changes: the queue, and the soundness of the interrupt controller. One lemma for
each operation on the whole state, in the order of the files that define them.
-/
set_option linter.unusedTactic false
set_option linter.unreachableTactic false

namespace Sys2Proof.Machine

/-- From s to t the queue is unchanged and the interrupt controller stays sound. -/
def Kept (s t : State) : Prop := t.pending = s.pending ∧ (s.irq.Ok → t.irq.Ok)

theorem Kept.refl (s : State) : Kept s s := ⟨rfl, id⟩
theorem Kept.trans {a b c : State} (h : Kept a b) (k : Kept b c) : Kept a c := ⟨k.1.trans h.1, fun x => k.2 (h.2 x)⟩
theorem Kept.of {a b c : State} (h : Kept a b) (hp : c.pending = b.pending) (hi : c.irq = b.irq) : Kept a c :=
  ⟨hp.trans h.1, fun x => hi ▸ h.2 x⟩
theorem Kept.irq {a b c : State} (h : Kept a b) (hp : c.pending = b.pending) (hi : b.irq.Ok → c.irq.Ok) : Kept a c :=
  ⟨hp.trans h.1, fun x => hi (h.2 x)⟩
theorem kept_foldS {α : Type} {f : α → State → State} {l : List α} {a s : State} (hf : ∀ x t, Kept a t → Kept a (f x t)) (h : Kept a s) :
    Kept a (foldS f l s) := by
  induction l generalizing s with
  | nil => exact h
  | cons x l ih => exact ih (hf x s h)
theorem kept_ite {c : Prop} [Decidable c] {a s t : State} (h : Kept a s) (k : Kept a t) : Kept a (if c then s else t) := by
  split <;> assumption
/-- What an optional next state keeps. -/
def OptKept (a : State) (o : Option State) : Prop := ∀ t, o = some t → Kept a t
theorem OptKept.elim {a t : State} {o : Option State} (h : OptKept a o) (e : o = some t) : Kept a t := h t e
theorem optKept_none {a : State} : OptKept a none := fun _ h => nomatch h
theorem optKept_some {a s : State} (h : Kept a s) : OptKept a (some s) := fun _ e => Option.some.inj e ▸ h
theorem optKept_ite {c : Prop} [Decidable c] {a : State} {s t : Option State} (h : OptKept a s) (k : OptKept a t) :
    OptKept a (if c then s else t) := by
  split <;> assumption
/-- A command row keeps what every command keeps. -/
def RowKept (r : TowRow) : Prop := ∀ (a : State) (id : Nat) (c : TowCmd) (s : State), Kept a s → Kept a (r.run id c s)

theorem kept_mk {a : State} {c i w t g u p q r l} : Kept a ⟨c, i, w, t, g, u, p, q, r, l⟩ ↔ (l = a.pending ∧ (a.irq.Ok → i.Ok)) := Iff.rfl
theorem Kept.fold {a s : State} (h : Kept a s) : s.pending = a.pending ∧ (a.irq.Ok → s.irq.Ok) := h
theorem mem_merase {α : Type} {m : Map α} {k : Nat} {e : Nat × α} (h : e ∈ merase m k) : e ∈ m := by
  induction m with
  | nil => exact h
  | cons x m ih =>
    unfold merase at h
    split at h
    · exact List.mem_cons_of_mem _ h
    · split at h
      · exact h
      · rcases List.mem_cons.mp h with h | h
        · exact h ▸ List.mem_cons_self ..
        · exact List.mem_cons_of_mem _ (ih h)
theorem mem_mput {α : Type} {m : Map α} {k : Nat} {v : α} {e : Nat × α} (h : e ∈ mput m k v) : e ∈ m ∨ e = (k, v) := by
  induction m with
  | nil => exact .inr (List.mem_singleton.mp h)
  | cons x m ih =>
    unfold mput at h
    split at h
    · rcases List.mem_cons.mp h with h | h
      · exact .inr h
      · exact .inl (List.mem_cons_of_mem _ h)
    · split at h
      · rcases List.mem_cons.mp h with h | h
        · exact .inr h
        · exact .inl h
      · rcases List.mem_cons.mp h with h | h
        · exact .inl (h ▸ List.mem_cons_self ..)
        · exact (ih h).imp (List.mem_cons_of_mem _) id
theorem mem_mset {α : Type} [DecidableEq α] {d : α} {m : Map α} {k : Nat} {v : α} {e : Nat × α} (h : e ∈ mset d m k v) :
    e ∈ m ∨ e = (k, v) := by
  unfold mset at h
  split at h
  · exact .inl (mem_merase h)
  · exact mem_mput h
theorem mget_ok {α : Type} {p : α → Prop} {d : α} {m : Map α} {k : Nat} (hd : p d) (h : ∀ e ∈ m, p e.2) : p (mget d m k) := by
  induction m with
  | nil => exact hd
  | cons x m ih =>
    obtain ⟨j, v⟩ := x
    unfold mget
    split
    · exact h (j, v) (List.mem_cons_self ..)
    · split
      · exact hd
      · exact ih (fun e he => h e (List.mem_cons_of_mem _ he))


/-! Watch. -/

theorem State.onCore_kept {a0 : State} (f : Core → Core) (s : State) (h0 : Kept a0 s) : Kept a0 (State.onCore f s) := by
  unfold State.onCore
  repeat' first | (with_reducible first | assumption) | (simp only [kept_mk]; with_reducible refine Kept.fold ?_)

theorem State.onWatch_kept {a0 : State} (f : Watch → Watch) (s : State) (h0 : Kept a0 s) : Kept a0 (State.onWatch f s) := by
  unfold State.onWatch
  repeat' first | (with_reducible first | assumption) | (simp only [kept_mk]; with_reducible refine Kept.fold ?_)

theorem State.raise_kept {a0 : State} (fam idx : Nat) (s : State) (h0 : Kept a0 s) : Kept a0 (State.raise fam idx s) := by
  unfold State.raise
  repeat' first | (with_reducible first | assumption | apply State.onCore_kept) | split

theorem State.cntUpdate_kept {a0 : State} (s : State) (h0 : Kept a0 s) : Kept a0 (State.cntUpdate s) := by
  unfold State.cntUpdate
  repeat' first | (with_reducible first | assumption) | (simp only [kept_mk]; with_reducible refine Kept.fold ?_)

theorem State.cntValWrite_kept {a0 : State} (c : Nat) (v : Word) (s : State) (h0 : Kept a0 s) : Kept a0 (State.cntValWrite c v s) := by
  unfold State.cntValWrite
  repeat' first | (with_reducible first | assumption | apply State.onWatch_kept) | split

theorem State.dumpPump_kept {a0 : State}  (n : Nat) (s : State) (h0 : Kept a0 s) : Kept a0 (State.dumpPump n s) := by
  induction n generalizing s with
  | zero => exact h0
  | succ n ih =>
    unfold State.dumpPump
    repeat' first
    | (with_reducible first
        | assumption | apply ih | apply State.onCore_kept | apply State.onWatch_kept | apply kept_foldS | apply kept_ite)
    | split

theorem State.dumpStart_kept {a0 : State} (cmds : List Nat) (s : State) (h0 : Kept a0 s) : Kept a0 (State.dumpStart cmds s) := by
  unfold State.dumpStart
  repeat' first | (with_reducible first | assumption | apply State.onWatch_kept | apply State.dumpPump_kept) | split

theorem State.dumpPeriod_kept {a0 : State} (s : State) (h0 : Kept a0 s) : Kept a0 (State.dumpPeriod s) := by
  unfold State.dumpPeriod
  repeat' first | (with_reducible first | assumption | apply State.onWatch_kept | apply State.dumpStart_kept | apply kept_ite) | split

theorem State.dumpLine_kept {a0 : State} (s : State) (h0 : Kept a0 s) : Kept a0 (State.dumpLine s) := by
  unfold State.dumpLine
  repeat' first | (with_reducible first | assumption | apply State.onWatch_kept | apply State.dumpPump_kept) | split

theorem State.offer_kept {a0 : State} (p : Nat) (released : Bool) (m : Msg) (s : State) (h0 : Kept a0 s) : Kept a0 (State.offer p released m s) := by
  unfold State.offer
  repeat' first | (with_reducible first | assumption | apply State.onWatch_kept | apply kept_ite) | split

theorem State.marker_kept {a0 : State} (code arg : Nat) (s : State) (h0 : Kept a0 s) : Kept a0 (State.marker code arg s) := by
  unfold State.marker
  repeat' first | (with_reducible first | assumption | apply State.onWatch_kept | apply kept_ite) | split

theorem State.traceWrite_kept {a0 : State} (s : State) (h0 : Kept a0 s) : Kept a0 (State.traceWrite s) := by
  unfold State.traceWrite
  repeat' first | (with_reducible first | assumption | apply kept_ite) | split | (simp only [kept_mk]; with_reducible refine Kept.fold ?_)

theorem State.spillOne_kept {a0 : State} (n : Nat) (s : State) (h0 : Kept a0 s) : Kept a0 (State.spillOne n s) := by
  unfold State.spillOne
  repeat' first | (with_reducible first | assumption | apply State.onCore_kept | apply State.onWatch_kept | apply kept_ite) | split

theorem State.logSpillRun_kept {a0 : State} (s : State) (h0 : Kept a0 s) : Kept a0 (State.logSpillRun s) := by
  unfold State.logSpillRun
  repeat' first | (with_reducible first | assumption | apply State.spillOne_kept | apply kept_ite) | split

theorem State.logRd_kept {a0 : State} (rd : BitVec 12) (s : State) (h0 : Kept a0 s) : Kept a0 (State.logRd rd s) := by
  unfold State.logRd
  repeat' first | (with_reducible first | assumption | apply State.onWatch_kept | apply kept_ite) | split

theorem State.logMemRd_kept {a0 : State} (rd : BitVec 32) (s : State) (h0 : Kept a0 s) : Kept a0 (State.logMemRd rd s) := by
  unfold State.logMemRd
  repeat' first | (with_reducible first | assumption | apply State.onWatch_kept | apply kept_ite) | split

/-! Irq. -/

theorem State.onIrq_kept {a s : State} (f : Irq → Irq) (hf : s.irq.Ok → (f s.irq).Ok) (h : Kept a s) : Kept a (State.onIrq f s) :=
  h.irq rfl hf

theorem State.putTgt_kept {a s : State} (t : Nat) (x : IrqTarget) (hx : s.irq.Ok → x.stack.length ≤ 16 ∧ x.overflow ≤ 255) (h : Kept a s) :
    Kept a (State.putTgt t x s) :=
  State.onIrq_kept _ (fun o => ⟨o.1, fun e he => (mem_mset he).elim (fun k => o.2.1 e k) (fun k => k ▸ hx o), o.2.2⟩) h

theorem State.tgt_ok {s : State} (t : Nat) (o : s.irq.Ok) : (s.tgt t).stack.length ≤ 16 ∧ (s.tgt t).overflow ≤ 255 := by
  unfold State.tgt
  exact mget_ok (p := fun (x : IrqTarget) => x.stack.length ≤ 16 ∧ x.overflow ≤ 255) (by decide) o.2.1
theorem State.irqPush_kept {a : State} (t prio id : Nat) (s : State) (h : Kept a s) : Kept a (State.irqPush t prio id s) := by
  unfold State.irqPush
  extract_lets x
  split
  · apply State.onCore_kept
    refine State.putTgt_kept _ _ (fun o => ⟨(State.tgt_ok t o).1, ?_⟩) h
    exact Nat.min_le_left _ _
  · rename_i hx
    refine State.putTgt_kept _ _ (fun o => ⟨?_, (State.tgt_ok t o).2⟩) h
    simp only [List.length_cons]
    omega

theorem clearBit_getLsbD {w : Nat} (v : BitVec w) (i k : Nat) (h : v.getLsbD k = false) : (clearBit v i).getLsbD k = false := by
  simp [clearBit, h]
theorem State.irqClaim_kept {a : State} (t : Nat) (s : State) (h : Kept a s) : Kept a (State.irqClaim t s).2 := by
  unfold State.irqClaim
  extract_lets clear
  split
  · exact h
  · rename_i k hk
    extract_lets prio us tb s1
    refine State.irqPush_kept _ _ _ _ (State.putTgt_kept _ _ (fun o => State.tgt_ok t o) ?_)
    exact State.onIrq_kept _ (fun o => ⟨fun j hj => clearBit_getLsbD _ _ _ (o.1 j hj), o.2.1, o.2.2⟩) h

theorem State.irqEoi_kept {a : State} (t : Nat) (s : State) (h : Kept a s) : Kept a (State.irqEoi t s) := by
  unfold State.irqEoi
  extract_lets x
  split
  · exact State.putTgt_kept _ _ (fun o => ⟨(State.tgt_ok t o).1, Nat.le_trans (Nat.sub_le _ _) (State.tgt_ok t o).2⟩) h
  · split
    · rename_i q l hl
      refine State.putTgt_kept _ _ (fun o => ⟨?_, (State.tgt_ok t o).2⟩) h
      have := (State.tgt_ok t o).1
      have e : (s.tgt t).stack = q :: l := hl
      simp only
      rw [e, List.length_cons] at this
      omega
    · exact State.putTgt_kept _ _ (fun o => State.tgt_ok t o) h

theorem State.irqRaise_kept {a0 : State} (t prio : Nat) (s : State) (h0 : Kept a0 s) : Kept a0 (State.irqRaise t prio s) := by
  unfold State.irqRaise
  repeat' first | (with_reducible first | assumption | apply State.irqPush_kept | apply kept_ite) | split

theorem oneHot_getLsbD_false {w : Nat} (i k : Nat) (h : i ≠ k) : (oneHot w i).getLsbD k = false := by
  simp only [oneHot, BitVec.getLsbD_ofNat, Bool.and_eq_false_imp, decide_eq_true_eq]
  intro _
  rw [Nat.testBit_two_pow]
  simp [h]
theorem setBit_getLsbD {w : Nat} (v : BitVec w) (i k : Nat) (hn : i ≠ k) (h : v.getLsbD k = false) : (setBit v i).getLsbD k = false := by
  simp [setBit, h, oneHot_getLsbD_false i k hn]
theorem putBit_getLsbD {w : Nat} (v : BitVec w) (i k : Nat) (b : Bool) (hn : i ≠ k) (h : v.getLsbD k = false) : (putBit v i b).getLsbD k = false := by
  unfold putBit
  split
  · exact setBit_getLsbD v i k hn h
  · exact clearBit_getLsbD v i k h
theorem foldl_putBit {w : Nat} (l : List Nat) (f : Nat → Bool) (k : Nat) (hl : ∀ i ∈ l, i ≠ k) (v : BitVec w) (h : v.getLsbD k = false) :
    (l.foldl (fun p i => putBit p i (f i)) v).getLsbD k = false := by
  induction l generalizing v with
  | nil => exact h
  | cons x l ih =>
    exact ih (fun i hi => hl i (List.mem_cons_of_mem _ hi)) _ (putBit_getLsbD v x k _ (hl x (List.mem_cons_self ..)) h)
theorem State.irqPendWrite_kept {a : State} (k : Nat) (v : Word) (s : State) (h : Kept a s) : Kept a (State.irqPendWrite k v s) := by
  unfold State.irqPendWrite
  refine State.onIrq_kept _ (fun o => ⟨fun j hj => ?_, o.2.1, o.2.2⟩) h
  refine foldl_putBit _ _ j (fun i hi e => ?_) _ (o.1 j hj)
  simp only [List.mem_filter, Bool.not_eq_true'] at hi
  rw [e, hj] at hi
  exact absurd hi.2 (by decide)

theorem State.holdoffEnd_kept {a : State} (g : Nat) (s : State) (h : Kept a s) : Kept a (State.holdoffEnd g s) :=
  State.onIrq_kept _ (fun o => ⟨o.1, o.2.1, o.2.2⟩) h

theorem State.irqPresent_kept {a : State} (t : Nat) (s : State) (h : Kept a s) : Kept a (State.irqPresent t s) :=
  State.onCore_kept _ _ (State.putTgt_kept _ _ (fun o => State.tgt_ok t o) h)

theorem State.imsgTaken_kept {a : State} (f : Nat) (s : State) (h : Kept a s) : Kept a (State.imsgTaken f s) := by
  unfold State.imsgTaken
  split
  · exact State.putTgt_kept _ _ (fun o => State.tgt_ok _ o) h
  · exact h

theorem State.imsgResend_kept {a0 : State} (t : Nat) (s : State) (h0 : Kept a0 s) : Kept a0 (State.imsgResend t s) := by
  unfold State.imsgResend
  repeat' first | (with_reducible first | assumption | apply State.irqPresent_kept | apply kept_ite) | split

theorem irqSample_ok (s : State) (i : Irq) (k : Nat) (o : i.Ok) : (State.irqSample s i k).Ok := by
  unfold State.irqSample
  split
  · exact o
  · rename_i hk
    simp only [Bool.or_eq_true, not_or, Bool.not_eq_true] at hk
    refine ⟨fun j hj => putBit_getLsbD _ _ _ _ ?_ (o.1 j hj), o.2.1, ?_⟩
    · intro e
      rw [e, hj] at hk
      exact absurd hk.2 (by decide)
    · intro e he
      simp only at he
      split at he
      · rcases mem_mset he with h | h
        · exact o.2.2 e h
        · rw [h]; exact Nat.min_le_left _ _
      · exact o.2.2 e he
theorem foldl_irqSample_ok (s : State) (l : List Nat) (i : Irq) (o : i.Ok) : (l.foldl (State.irqSample s) i).Ok := by
  induction l generalizing i with
  | nil => exact o
  | cons k l ih => exact ih _ (irqSample_ok s i k o)
theorem irqToggle_ok (s : State) (i : Irq) (o : i.Ok) : (i.toggle s).Ok := by
  unfold Irq.toggle
  exact ⟨o.1, o.2.1, o.2.2⟩
theorem setIrq_kept {a s : State} (i : Irq) (hi : s.irq.Ok → i.Ok) (h : Kept a s) :
    Kept a { s with irq := { i with claimed := 0, wset := 0 } } :=
  h.irq rfl (fun o => ⟨(hi o).1, (hi o).2.1, (hi o).2.2⟩)
theorem State.irqSampleAll_kept {a : State} (s : State) (h : Kept a s) : Kept a (State.irqSampleAll s) :=
  setIrq_kept _ (fun o => foldl_irqSample_ok s (List.range 128) (s.irq.toggle s) (irqToggle_ok s _ o)) h

theorem State.irqSend_kept {a0 : State} (s0 : State) (deliv : BitVec 8) (t : Nat) (s : State) (h0 : Kept a0 s) :
    Kept a0 (State.irqSend s0 deliv t s) := by
  unfold State.irqSend
  repeat' first | (with_reducible first | assumption | apply State.irqPresent_kept | apply kept_ite) | split

theorem State.irqCycle_kept {a : State} (s0 s : State) (h : Kept a s) : Kept a (State.irqCycle s0 s) := by
  unfold State.irqCycle
  exact State.onIrq_kept _ (fun o => ⟨o.1, o.2.1, o.2.2⟩)
    (kept_foldS (fun t x hx => State.irqSend_kept s0 _ t x hx) (State.irqSampleAll_kept s h))

theorem State.irqWake_kept {a : State} (s : State) (h : Kept a s) : Kept a (State.irqWake s) := by
  refine h.irq rfl (fun o => ?_)
  unfold State.irqWake
  extract_lets src ks i
  have key : ∀ (l : List Nat) (j : Irq), (∀ k ∈ l, irqReserved (src k) = false) → j.Ok →
      (l.foldl (fun (i : Irq) k => { i with pend := setBit i.pend (src k), count := mset 0 i.count (src k) 1 }) j).Ok := by
    intro l
    induction l with
    | nil => exact fun j _ o => o
    | cons k l ih =>
      intro j hl o
      refine ih _ (fun q hq => hl q (List.mem_cons_of_mem _ hq)) ⟨fun q hq => setBit_getLsbD _ _ _ ?_ (o.1 q hq), o.2.1, ?_⟩
      · intro e
        have := hl k (List.mem_cons_self ..)
        rw [e, hq] at this
        exact absurd this (by decide)
      · intro e he
        simp only at he
        rcases mem_mset he with h | h
        · exact o.2.2 e h
        · rw [h]; exact (by decide : (1 : Nat) ≤ 255)
  exact key ks s.irq (fun k hk => by simpa using (List.mem_filter.mp hk).2) o

theorem State.irqCountClear_kept {a : State} (k : Nat) (s : State) (h : Kept a s) : Kept a (State.irqCountClear k s) := by
  refine State.onIrq_kept _ (fun o => ⟨o.1, o.2.1, ?_⟩) h
  have key : ∀ (l : List Nat) (m : Map Nat), (∀ e ∈ m, e.2 ≤ 255) → ∀ e ∈ foldS (fun j m => mset 0 m (8 * k + j) 0) l m, e.2 ≤ 255 := by
    intro l
    induction l with
    | nil => exact fun m h => h
    | cons j l ih =>
      intro m hm
      refine ih _ (fun e he => ?_)
      rcases mem_mset he with h | h
      · exact hm e h
      · rw [h]; exact Nat.zero_le _
  exact key _ _ o.2.2

/-! Tow. -/

theorem State.onTow_kept {a0 : State} (f : Tow → Tow) (s : State) (h0 : Kept a0 s) : Kept a0 (State.onTow f s) := by
  unfold State.onTow
  repeat' first | (with_reducible first | assumption) | (simp only [kept_mk]; with_reducible refine Kept.fold ?_)

theorem State.putWindow_kept {a0 : State} (w : Nat) (x : Window) (s : State) (h0 : Kept a0 s) : Kept a0 (State.putWindow w x s) := by
  unfold State.putWindow
  repeat' first | (with_reducible first | assumption | apply State.onTow_kept) | split

theorem State.freeWord_kept {a0 : State} (s : State) (h0 : Kept a0 s) : Kept a0 (State.freeWord s).2 := by
  unfold State.freeWord
  repeat' first | (with_reducible first | assumption | apply State.onCore_kept) | split

theorem State.flushReplies_kept {a0 : State} (s : State) (h0 : Kept a0 s) : Kept a0 (State.flushReplies s) := by
  unfold State.flushReplies
  repeat' first | (with_reducible first | assumption | apply State.onCore_kept | apply State.onTow_kept | apply kept_foldS) | split

theorem State.wireOut_kept {a0 : State} (l : List Word) (n : Nat) (s : State) (h0 : Kept a0 s) : Kept a0 (State.wireOut l n s) := by
  unfold State.wireOut
  repeat' first | (with_reducible first | assumption | apply State.onCore_kept | apply kept_foldS) | split

theorem State.wireReady_kept {a0 : State} (s : State) (h0 : Kept a0 s) : Kept a0 (State.wireReady s) := by
  unfold State.wireReady
  repeat' first | (with_reducible first | assumption | apply State.onTow_kept | apply State.wireOut_kept) | split

theorem State.sendReply_kept {a0 : State} (v : Via) (r : Reply) (s : State) (h0 : Kept a0 s) : Kept a0 (State.sendReply v r s) := by
  unfold State.sendReply
  repeat' first
    | (with_reducible first
        | assumption | apply State.onTow_kept | apply State.putWindow_kept | apply State.flushReplies_kept | apply State.wireReady_kept
        | apply kept_ite)
    | split

theorem State.setPrev_kept {a0 : State} (v : Via) (p : Prev) (s : State) (h0 : Kept a0 s) : Kept a0 (State.setPrev v p s) := by
  unfold State.setPrev
  repeat' first | (with_reducible first | assumption | apply State.onTow_kept) | split

theorem State.complete_kept {a0 : State} (id : Nat) (status : BitVec 8) (result : Word) (payload : List Word) (s : State) (h0 : Kept a0 s) :
    Kept a0 (State.complete id status result payload s) := by
  unfold State.complete
  repeat' first
    | (with_reducible first
        | assumption | apply State.onTow_kept | apply State.putWindow_kept | apply State.sendReply_kept | apply State.setPrev_kept
        | apply kept_ite)
    | split

theorem State.completeFree_kept {a0 : State} (id : Nat) (status : BitVec 8) (s : State) (h0 : Kept a0 s) :
    Kept a0 (State.completeFree id status s) := by
  unfold State.completeFree
  repeat' first | (with_reducible first | assumption | apply State.freeWord_kept | apply State.complete_kept) | split

theorem State.completeOpt_kept {a0 : State} (c : Option Nat) (status : BitVec 8) (result : Word) (s : State) (h0 : Kept a0 s) :
    Kept a0 (State.completeOpt c status result s) := by
  unfold State.completeOpt
  repeat' first | (with_reducible first | assumption | apply State.complete_kept) | split

theorem State.rplCredit_kept {a0 : State} (s : State) (h0 : Kept a0 s) : Kept a0 (State.rplCredit s) := by
  unfold State.rplCredit
  repeat' first | (with_reducible first | assumption | apply State.onTow_kept | apply State.flushReplies_kept) | split

/-! Galley. -/

theorem State.onGal_kept {a0 : State} (p : Nat) (f : Gal → Gal) (s : State) (h0 : Kept a0 s) : Kept a0 (State.onGal p f s) := by
  unfold State.onGal
  repeat' first | (with_reducible first | assumption) | (simp only [kept_mk]; with_reducible refine Kept.fold ?_)

theorem State.onSlice_kept {a0 : State} (p : Nat) (f : Slice → Slice) (s : State) (h0 : Kept a0 s) : Kept a0 (State.onSlice p f s) := by
  unfold State.onSlice
  repeat' first | (with_reducible first | assumption | apply State.onCore_kept) | split

theorem State.galRewind_kept {a0 : State} (p : Nat) (s : State) (h0 : Kept a0 s) : Kept a0 (State.galRewind p s) := by
  unfold State.galRewind
  repeat' first | (with_reducible first | assumption | apply State.onCore_kept | apply State.raise_kept | apply State.onGal_kept) | split

theorem State.galFix_kept {a0 : State} (p : Nat) (s : State) (h0 : Kept a0 s) : Kept a0 (State.galFix p s) := by
  unfold State.galFix
  repeat' first | (with_reducible first | assumption | apply State.raise_kept | apply State.onGal_kept) | split

theorem State.galDiverge_kept {a0 : State} (p : Nat) (d : Divergence) (s : State) (h0 : Kept a0 s) : Kept a0 (State.galDiverge p d s) := by
  unfold State.galDiverge
  repeat' first | (with_reducible first | assumption | apply State.raise_kept | apply State.onGal_kept | apply kept_ite) | split

theorem State.galResync_kept {a0 : State} (p : Nat) (s : State) (h0 : Kept a0 s) : Kept a0 (State.galResync p s) := by
  unfold State.galResync
  repeat' first | (with_reducible first | assumption | apply State.onGal_kept) | split

theorem State.galExchange_kept {a0 : State} (p : Nat) (s : State) (h0 : Kept a0 s) : Kept a0 (State.galExchange p s) := by
  unfold State.galExchange
  repeat' first | (with_reducible first | assumption | apply State.onGal_kept | apply State.onSlice_kept | apply kept_ite) | split

theorem State.galRejoin_kept {a0 : State} (p : Nat) (s : State) (h0 : Kept a0 s) : Kept a0 (State.galRejoin p s) := by
  unfold State.galRejoin
  repeat' first
    | (with_reducible first
        | assumption | apply State.onGal_kept | apply State.onSlice_kept | apply State.galResync_kept | apply kept_ite)
    | split

theorem State.galProofEnd_kept {a0 : State} (p : Nat) (cut : Bool) (cmd : Option Nat) (s : State) (h0 : Kept a0 s) :
    Kept a0 (State.galProofEnd p cut cmd s) := by
  unfold State.galProofEnd
  repeat' first
    | (with_reducible first
        | assumption | apply State.completeOpt_kept | apply State.galExchange_kept | apply State.galRejoin_kept | apply kept_ite)
    | split

theorem State.galAbandon_kept {a0 : State} (p : Nat) (s : State) (h0 : Kept a0 s) : Kept a0 (State.galAbandon p s) := by
  unfold State.galAbandon
  repeat' first
    | (with_reducible first
        | assumption | apply State.complete_kept | apply State.completeOpt_kept | apply State.onGal_kept | apply State.galRejoin_kept
        | apply kept_foldS)
    | intro _ _ _ | split

theorem State.freeFrom_kept {a0 : State} (n : Nat) (s : State) (h0 : Kept a0 s) : Kept a0 (State.freeFrom n s) := by
  unfold State.freeFrom
  repeat' first | (with_reducible first | assumption | apply State.onCore_kept) | split

theorem State.galCheck_kept {a0 : State} (p op : Nat) (agent : AgentId) (line : LineAddr) (s : State) (h0 : Kept a0 s) :
    Kept a0 (State.galCheck p op agent line s) := by
  unfold State.galCheck
  repeat' first
    | (with_reducible first
        | assumption | apply State.freeWord_kept | apply State.onGal_kept | apply State.galDiverge_kept | apply State.freeFrom_kept
        | apply kept_ite)
    | split

theorem State.galEnter_kept {a0 : State} (p op : Nat) (agent : AgentId) (line : LineAddr) (s : State) (h0 : Kept a0 s) :
    Kept a0 (State.galEnter p op agent line s).2 := by
  unfold State.galEnter
  dsimp only
  repeat' first
    | (with_reducible first
        | assumption | apply State.raise_kept | apply State.onGal_kept | apply State.onSlice_kept | apply State.freeFrom_kept
        | apply State.galCheck_kept)
    | split

theorem State.galMode_kept {a0 : State} (p code : Nat) (s : State) (h0 : Kept a0 s) : Kept a0 (State.galMode p code s) := by
  unfold State.galMode
  repeat' first
    | (with_reducible first
        | assumption | apply State.onGal_kept | apply State.onSlice_kept | apply State.galEnter_kept | apply kept_ite)
    | split

theorem State.galFetch_kept {a0 : State} (p : Nat) (r : CsRead) (s : State) (h0 : Kept a0 s) : Kept a0 (State.galFetch p r s).2 := by
  unfold State.galFetch
  repeat' first | (with_reducible first | assumption | apply State.raise_kept | apply State.onGal_kept) | split

theorem State.admitItem_kept {a0 : State} (p : Nat) (k : Pick) (r : CsRead) (err : Option HalfErr) (s : State) (h0 : Kept a0 s) :
    Kept a0 (State.admitItem p k r err s) := by
  unfold State.admitItem
  repeat' first
    | (with_reducible first
        | assumption | apply State.onCore_kept | apply State.galEnter_kept | apply State.galFetch_kept | apply kept_ite)
    | split

theorem State.admission_kept {a0 : State} (p : Nat) (select : Bool) (r : CsRead) (err : Option HalfErr) (s : State) (h0 : Kept a0 s) :
    Kept a0 (State.admission p select r err s) := by
  unfold State.admission
  repeat' first
    | (with_reducible first
        | assumption | apply State.onCore_kept | apply State.onSlice_kept | apply State.admitItem_kept | apply kept_ite)
    | split

theorem State.galRelease_kept {a0 : State} (p : Nat) (s : State) (h0 : Kept a0 s) : Kept a0 (State.galRelease p s) := by
  unfold State.galRelease
  repeat' first | (with_reducible first | assumption | apply State.onGal_kept | apply kept_ite) | split

theorem State.galDiscard_kept {a0 : State} (p : Nat) (s : State) (h0 : Kept a0 s) : Kept a0 (State.galDiscard p s) := by
  unfold State.galDiscard
  repeat' first | (with_reducible first | assumption | apply State.onGal_kept | apply State.onSlice_kept) | split

theorem State.galClose_kept {a0 : State} (p : Nat) (v : WinSeen) (s : State) (h0 : Kept a0 s) : Kept a0 (State.galClose p v s) := by
  unfold State.galClose
  repeat' first
    | (with_reducible first
        | assumption | apply State.raise_kept | apply State.onGal_kept | apply State.galRewind_kept | apply State.galDiverge_kept
        | apply State.galRelease_kept | apply State.galDiscard_kept | apply kept_ite)
    | split

theorem State.galWindow_kept {a0 : State} (p : Nat) (v : WinSeen) (s : State) (h0 : Kept a0 s) : Kept a0 (State.galWindow p v s) := by
  unfold State.galWindow
  repeat' first | (with_reducible first | assumption | apply State.galClose_kept | apply kept_ite) | split

theorem State.galTick_kept {a0 : State} (p : Nat) (s : State) (h0 : Kept a0 s) : Kept a0 (State.galTick p s) := by
  unfold State.galTick
  repeat' first | (with_reducible first | assumption | apply State.galClose_kept | apply kept_ite) | split

theorem State.galSends_kept {a0 : State} (p : Nat) (m : Msg) (s : State) (h0 : Kept a0 s) : Kept a0 (State.galSends p m s) := by
  unfold State.galSends
  repeat' first | (with_reducible first | assumption | apply State.onGal_kept | apply kept_ite) | split

theorem State.galCommit_kept {a0 : State} (s0 : State) (p : Nat) (s : State) (h0 : Kept a0 s) : Kept a0 (State.galCommit s0 p s) := by
  unfold State.galCommit
  repeat' first | (with_reducible first | assumption | apply State.onGal_kept | apply State.galClose_kept | apply kept_ite) | split

theorem State.commitAll_kept {a0 : State} (s0 s : State) (h0 : Kept a0 s) : Kept a0 (State.commitAll s0 s) := by
  unfold State.commitAll
  repeat' first | (with_reducible first | assumption | apply State.galCommit_kept | apply kept_foldS) | split

theorem State.standbyUe_kept {a0 : State} (p : Nat) (s : State) (h0 : Kept a0 s) : Kept a0 (State.standbyUe p s) := by
  unfold State.standbyUe
  repeat' first
    | (with_reducible first
        | assumption | apply State.raise_kept | apply State.onSlice_kept | apply State.galAbandon_kept | apply kept_ite)
    | split

theorem State.galSweep_kept {a0 : State} (p : Nat) (r : SweepSeen) (s : State) (h0 : Kept a0 s) : Kept a0 (State.galSweep p r s) := by
  unfold State.galSweep
  repeat' first
    | (with_reducible first
        | assumption | apply State.raise_kept | apply State.onGal_kept | apply State.galFix_kept | apply State.standbyUe_kept | apply kept_foldS
        | apply kept_ite)
    | intro _ _ _ | split

theorem State.galStall_kept {a0 : State} (p : Nat) (s : State) (h0 : Kept a0 s) : Kept a0 (State.galStall p s) := by
  unfold State.galStall
  repeat' first | (with_reducible first | assumption | apply State.raise_kept | apply kept_ite) | split

theorem State.galInject_kept {a0 : State} (p : Nat) (s : State) (h0 : Kept a0 s) : Kept a0 (State.galInject p s) := by
  unfold State.galInject
  repeat' first | (with_reducible first | assumption | apply State.onGal_kept | apply kept_ite) | split

theorem State.galActivate_kept {a0 : State} (p cmd : Nat) (s : State) (h0 : Kept a0 s) : Kept a0 (State.galActivate p cmd s) := by
  unfold State.galActivate
  repeat' first
    | (with_reducible first
        | assumption | apply State.complete_kept | apply State.onGal_kept | apply State.galExchange_kept | apply State.galMode_kept
        | apply kept_ite)
    | split

theorem State.galWant_kept {a0 : State} (p : Nat) (w : GalWant) (s : State) (h0 : Kept a0 s) : Kept a0 (State.galWant p w s) := by
  unfold State.galWant
  repeat' first
    | (with_reducible first
        | assumption | apply State.complete_kept | apply State.galExchange_kept | apply State.galProofEnd_kept)
    | split

theorem State.divNow_kept {a0 : State} (p : Nat) (s : State) (h0 : Kept a0 s) : Kept a0 (State.divNow p s) := by
  unfold State.divNow
  repeat' first | (with_reducible first | assumption | apply State.onGal_kept) | split

theorem State.quiesce_kept {a0 : State} (p : Nat) (s : State) (h0 : Kept a0 s) : Kept a0 (State.quiesce p s) := by
  unfold State.quiesce
  repeat' first
    | (with_reducible first
        | assumption | apply State.onGal_kept | apply State.galResync_kept | apply State.galClose_kept | apply State.galWant_kept
        | apply State.divNow_kept | apply kept_foldS | apply kept_ite)
    | split

theorem State.galForce_kept {a0 : State} (p : Nat) (s : State) (h0 : Kept a0 s) : Kept a0 (State.galForce p s) := by
  unfold State.galForce
  repeat' first | (with_reducible first | assumption | apply State.quiesce_kept | apply kept_ite) | split

theorem State.galLimit_kept {a0 : State} (p : Nat) (s : State) (h0 : Kept a0 s) : Kept a0 (State.galLimit p s) := by
  unfold State.galLimit
  repeat' first | (with_reducible first | assumption | apply State.onGal_kept | apply kept_ite) | split

theorem State.galProof_kept {a0 : State} (p : Nat) (s : State) (h0 : Kept a0 s) : Kept a0 (State.galProof p s) := by
  unfold State.galProof
  repeat' first
    | (with_reducible first
        | assumption | apply State.onGal_kept | apply State.onSlice_kept | apply State.galEnter_kept | apply State.galClose_kept | apply kept_ite)
    | split

theorem State.galReconcile_kept {a0 : State} (p : Nat) (s : State) (h0 : Kept a0 s) : Kept a0 (State.galReconcile p s) := by
  unfold State.galReconcile
  repeat' first | (with_reducible first | assumption | apply State.galAbandon_kept | apply kept_ite) | split

theorem State.onStart_kept {a0 : State} (f : Start → Start) (s : State) (h0 : Kept a0 s) : Kept a0 (State.onStart f s) := by
  unfold State.onStart
  repeat' first | (with_reducible first | assumption) | (simp only [kept_mk]; with_reducible refine Kept.fold ?_)

theorem State.putLoad_kept {a0 : State} (l : Load) (s : State) (h0 : Kept a0 s) : Kept a0 (State.putLoad l s) := by
  unfold State.putLoad
  repeat' first | (with_reducible first | assumption | apply State.onStart_kept) | split

theorem State.loadOpen_kept {a0 : State} (target : Nat) (slices : List Nat) (skipped : BitVec 18) (len : Nat) (s : State) (h0 : Kept a0 s) :
    Kept a0 (State.loadOpen target slices skipped len s) := by
  unfold State.loadOpen
  repeat' first
    | (with_reducible first
        | assumption | apply State.onSlice_kept | apply State.onStart_kept | apply kept_foldS)
    | intro _ _ _ | split

theorem State.loadData_kept {a0 : State} (slices : List Nat) (words : List Word) (s : State) (h0 : Kept a0 s) :
    Kept a0 (State.loadData slices words s) := by
  unfold State.loadData
  repeat' first | (with_reducible first | assumption | apply State.onSlice_kept | apply kept_foldS) | intro _ _ _ | split

theorem State.loadEnd_kept {a0 : State} (l : Load) (s : State) (h0 : Kept a0 s) : Kept a0 (State.loadEnd l s) := by
  unfold State.loadEnd
  repeat' first | (with_reducible first | assumption | apply State.complete_kept | apply State.onStart_kept | apply kept_ite) | split

theorem State.loadClose_kept {a0 : State} (l : Load) (cmd : Nat) (s : State) (h0 : Kept a0 s) : Kept a0 (State.loadClose l cmd s) := by
  unfold State.loadClose
  repeat' first | (with_reducible first | assumption | apply State.putLoad_kept | apply State.loadEnd_kept) | split

theorem State.imageDone_kept {a0 : State} (p : Nat) (sig : Bool) (s : State) (h0 : Kept a0 s) : Kept a0 (State.imageDone p sig s) := by
  unfold State.imageDone
  repeat' first
    | (with_reducible first
        | assumption | apply State.raise_kept | apply State.onSlice_kept | apply State.putLoad_kept | apply State.loadEnd_kept | apply kept_ite)
    | split

theorem State.loadReconcile_kept {a0 : State} (s : State) (h0 : Kept a0 s) : Kept a0 (State.loadReconcile s) := by
  unfold State.loadReconcile
  repeat' first
    | (with_reducible first
        | assumption | apply State.onSlice_kept | apply State.putLoad_kept | apply State.loadEnd_kept | apply kept_foldS | apply kept_ite)
    | intro _ _ _ | split

theorem State.galCntClear_kept {a0 : State} (p : Nat) (s : State) (h0 : Kept a0 s) : Kept a0 (State.galCntClear p s) := by
  unfold State.galCntClear
  repeat' first | (with_reducible first | assumption | apply State.onGal_kept) | split

/-! CulBase. -/

theorem State.putPort_kept {a0 : State} (n : Nat) (x : CPort) (s : State) (h0 : Kept a0 s) : Kept a0 (State.putPort n x s) := by
  unfold State.putPort
  repeat' first | (with_reducible first | assumption) | (simp only [kept_mk]; with_reducible refine Kept.fold ?_)

theorem State.onPort_kept {a0 : State} (n : Nat) (f : CPort → CPort) (s : State) (h0 : Kept a0 s) : Kept a0 (State.onPort n f s) := by
  unfold State.onPort
  repeat' first | (with_reducible first | assumption | apply State.putPort_kept) | split

theorem State.onCul_kept {a0 : State} (f : Cul → Cul) (s : State) (h0 : Kept a0 s) : Kept a0 (State.onCul f s) := by
  unfold State.onCul
  repeat' first | (with_reducible first | assumption) | (simp only [kept_mk]; with_reducible refine Kept.fold ?_)

theorem State.culCntClear_kept {a0 : State} (n : Nat) (s : State) (h0 : Kept a0 s) : Kept a0 (State.culCntClear n s) := by
  unfold State.culCntClear
  repeat' first | (with_reducible first | assumption | apply State.onPort_kept) | split

theorem State.culLerrClear_kept {a0 : State} (n k : Nat) (s : State) (h0 : Kept a0 s) : Kept a0 (State.culLerrClear n k s) := by
  unfold State.culLerrClear
  repeat' first | (with_reducible first | assumption | apply State.onPort_kept) | split

/-! CulFlit. -/

theorem State.cellsFree_kept {a0 : State} (c : Cells) (s : State) (h0 : Kept a0 s) : Kept a0 (State.cellsFree c s) := by
  unfold State.cellsFree
  repeat' first | (with_reducible first | assumption | apply State.onPort_kept) | split

theorem State.cellsFreeOpt_kept {a0 : State} (c : Option Cells) (s : State) (h0 : Kept a0 s) : Kept a0 (State.cellsFreeOpt c s) := by
  unfold State.cellsFreeOpt
  repeat' first | (with_reducible first | assumption | apply State.cellsFree_kept) | split

theorem State.takeArrival_kept {a0 : State} (a : Arrival) (s : State) (h0 : Kept a0 s) : Kept a0 (State.takeArrival a s) := by
  unfold State.takeArrival
  repeat' first | (with_reducible first | assumption | apply State.onCore_kept | apply State.onCul_kept) | split

theorem State.arrive_kept {a0 : State} (a : Arrival) (s : State) (h0 : Kept a0 s) : Kept a0 (State.arrive a s) := by
  unfold State.arrive
  repeat' first
    | (with_reducible first
        | assumption | apply State.takeArrival_kept | apply kept_ite)
    | (simp only [kept_mk]; with_reducible refine Kept.fold ?_)

theorem State.arriveAll_kept {a0 : State} (s : State) (h0 : Kept a0 s) : Kept a0 (State.arriveAll s) := by
  unfold State.arriveAll
  repeat' first
    | (with_reducible first
        | assumption | apply State.takeArrival_kept | apply kept_foldS)
    | (simp only [kept_mk]; with_reducible refine Kept.fold ?_)

theorem State.culEnqueue_kept {a0 : State} (n : Nat) (c : CulMsg) (s : State) (h0 : Kept a0 s) : Kept a0 (State.culEnqueue n c s) := by
  unfold State.culEnqueue
  repeat' first | (with_reducible first | assumption | apply State.onPort_kept | apply kept_ite) | extract_lets | split

theorem State.culHold_kept {a0 : State} (c : CulMsg) (s : State) (h0 : Kept a0 s) : Kept a0 (State.culHold c s) := by
  unfold State.culHold
  repeat' first | (with_reducible first | assumption | apply State.onCul_kept) | split

theorem State.culRoute_kept {a0 : State} (c : CulMsg) (s : State) (h0 : Kept a0 s) : Kept a0 (State.culRoute c s) := by
  unfold State.culRoute
  repeat' first
    | (with_reducible first
        | assumption | apply State.onCore_kept | apply State.raise_kept | apply State.cellsFreeOpt_kept | apply State.arrive_kept
        | apply State.culEnqueue_kept | apply State.culHold_kept | apply kept_foldS | apply kept_ite)
    | intro _ _ _ | split

theorem State.culRehold_kept {a0 : State} (s : State) (h0 : Kept a0 s) : Kept a0 (State.culRehold s) := by
  unfold State.culRehold
  repeat' first | (with_reducible first | assumption | apply State.onCul_kept | apply State.culRoute_kept | apply kept_foldS) | split

theorem State.lanesOut_kept {a0 : State} (n : Nat) (l : List (List (Nat × BitVec 64))) (s : State) (h0 : Kept a0 s) :
    Kept a0 (State.lanesOut n l s) := by
  unfold State.lanesOut
  repeat' first | (with_reducible first | assumption | apply State.onCore_kept | apply kept_foldS) | split

theorem State.emitFlit_kept {a0 : State} (n : Nat) (h : FlitHdr) (payload : BitVec 1936) (s : State) (h0 : Kept a0 s) :
    Kept a0 (State.emitFlit n h payload s) := by
  unfold State.emitFlit
  repeat' first | (with_reducible first | assumption | apply State.onCore_kept | apply State.onPort_kept | apply State.lanesOut_kept) | split

theorem State.sendIdle_kept {a0 : State} (n : Nat) (s : State) (h0 : Kept a0 s) : Kept a0 (State.sendIdle n s) := by
  unfold State.sendIdle
  repeat' first | (with_reducible first | assumption | apply State.emitFlit_kept) | split

theorem State.sayLm_kept {a0 : State} (n code : Nat) (s : State) (h0 : Kept a0 s) : Kept a0 (State.sayLm n code s) := by
  unfold State.sayLm
  repeat' first | (with_reducible first | assumption | apply State.onPort_kept | apply State.sendIdle_kept) | split

theorem State.culReplay_kept {a0 : State} (n : Nat) (ack : Option (BitVec 12)) (s : State) (h0 : Kept a0 s) : Kept a0 (State.culReplay n ack s) := by
  unfold State.culReplay
  repeat' first
    | (with_reducible first
        | assumption | apply State.onCore_kept | apply State.raise_kept | apply State.onPort_kept | apply kept_ite)
    | intro _ _ _ | split

theorem State.sendAgain_kept {a0 : State} (n : Nat) (s : State) (h0 : Kept a0 s) : Kept a0 (State.sendAgain n s) := by
  unfold State.sendAgain
  repeat' first | (with_reducible first | assumption | apply State.onPort_kept | apply State.emitFlit_kept | apply kept_ite) | split

theorem State.sendPieces_kept {a0 : State} (n : Nat) (first : BitVec 8) (l : List (List (BitVec 8))) (s : State) (h0 : Kept a0 s) :
    Kept a0 (State.sendPieces n first l s) := by
  induction l generalizing first s with
  | nil => exact h0
  | cons p t ih =>
    unfold State.sendPieces
    repeat' first
    | (with_reducible first
        | assumption | apply ih | apply State.onPort_kept | apply State.emitFlit_kept | apply kept_foldS | apply kept_ite)
    | split

theorem State.culSend_kept {a0 : State} (n : Nat) (s : State) (h0 : Kept a0 s) : Kept a0 (State.culSend n s) := by
  unfold State.culSend
  repeat' first
    | (with_reducible first
        | assumption | apply State.onCore_kept | apply State.onPort_kept | apply State.cellsFree_kept | apply State.sendAgain_kept
        | apply State.sendPieces_kept | apply kept_ite)
    | split

theorem State.culIdle_kept {a0 : State} (n : Nat) (s : State) (h0 : Kept a0 s) : Kept a0 (State.culIdle n s) := by
  unfold State.culIdle
  repeat' first
    | (with_reducible first
        | assumption | apply State.onCore_kept | apply State.sendIdle_kept | apply State.sendAgain_kept | apply kept_ite)
    | split

theorem State.culTransit_kept {a0 : State} (n : Nat) (c : CulMsg) (s : State) (h0 : Kept a0 s) : Kept a0 (State.culTransit n c s) := by
  unfold State.culTransit
  repeat' first | (with_reducible first | assumption | apply State.onCore_kept | apply kept_ite) | split

theorem State.culTake_kept {a0 : State} (n : Nat) (c : CulMsg) (s : State) (h0 : Kept a0 s) : Kept a0 (State.culTake n c s) := by
  unfold State.culTake
  repeat' first
    | (with_reducible first
        | assumption | apply State.raise_kept | apply State.onPort_kept | apply State.arrive_kept | apply State.culTransit_kept | apply kept_ite)
    | split

theorem State.culAccept_kept {a0 : State} (n : Nat) (seq : BitVec 12) (first : BitVec 8) (payload : BitVec 1936) (s : State) (h0 : Kept a0 s) :
    Kept a0 (State.culAccept n seq first payload s) := by
  unfold State.culAccept
  repeat' first
    | (with_reducible first
        | assumption | apply State.raise_kept | apply State.onPort_kept | apply State.culTake_kept | apply kept_foldS | apply kept_ite)
    | split

theorem State.culFlit_kept {a0 : State} (n : Nat) (f : BitVec 2048) (bad : Bool) (s : State) (h0 : Kept a0 s) :
    Kept a0 (State.culFlit n f bad s).2 := by
  unfold State.culFlit
  repeat' first
    | (with_reducible first
        | assumption | apply State.onCore_kept | apply State.onPort_kept | apply State.culReplay_kept | apply State.culAccept_kept
        | apply kept_ite)
    | extract_lets | split

theorem State.ackTo_kept {a0 : State} (n : Nat) (rx : Bool) (s : State) (h0 : Kept a0 s) : Kept a0 (State.ackTo n rx s) := by
  unfold State.ackTo
  repeat' first | (with_reducible first | assumption | apply State.onPort_kept | apply State.culReplay_kept | apply kept_ite) | split

theorem State.rxCodeword_kept {a0 : State} (n : Nat) (r : Option (List Nat) × RxPcs) (s : State) (h0 : Kept a0 s) :
    Kept a0 (State.rxCodeword n r s) := by
  unfold State.rxCodeword
  repeat' first | (with_reducible first | assumption | apply State.onCore_kept | apply State.onPort_kept) | split

theorem State.rxCodewords_kept {a0 : State} (n k : Nat) (s : State) (h0 : Kept a0 s) : Kept a0 (State.rxCodewords n k s) := by
  induction k generalizing s with
  | zero => exact h0
  | succ k ih =>
    unfold State.rxCodewords
    exact kept_ite h0 (ih _ (State.rxCodeword_kept _ _ _ h0))

theorem State.rxWords_kept {a0 : State} (n : Nat) (w : List (List (BitVec 64))) (s : State) (h0 : Kept a0 s) : Kept a0 (State.rxWords n w s) := by
  unfold State.rxWords
  repeat' first | (with_reducible first | assumption | apply State.onPort_kept) | split

theorem State.rxFlit_kept {a0 : State} (n : Nat) (w : List (List (BitVec 64))) (s : State) (h0 : Kept a0 s) : Kept a0 (State.rxFlit n w s).2 := by
  unfold State.rxFlit
  dsimp only
  repeat' first | (with_reducible first | assumption | apply State.onPort_kept | apply State.rxCodewords_kept | apply State.rxWords_kept) | split

/-! CulLoss. -/

theorem State.culControl_kept {a0 : State} (op : BitVec 8) (dest : BitVec 6) (h : Hdr) (body : Option Beats) (s : State) (h0 : Kept a0 s) :
    Kept a0 (State.culControl op dest h body s) := by
  unfold State.culControl
  repeat' first | (with_reducible first | assumption | apply State.culRoute_kept) | split

theorem State.fenceCopies_kept {a0 : State} (origin : BitVec 6) (lost : BitVec 3) (d : Nat) (vcs : BitVec 10) (s : State) (h0 : Kept a0 s) :
    Kept a0 (State.fenceCopies origin lost d vcs s) := by
  unfold State.fenceCopies
  repeat' first | (with_reducible first | assumption | apply State.culRoute_kept | apply kept_foldS) | intro _ _ _ | split

theorem State.releaseDests_kept {a0 : State} (m : BitVec 64) (s : State) (h0 : Kept a0 s) : Kept a0 (State.releaseDests m s) := by
  unfold State.releaseDests
  repeat' first | (with_reducible first | assumption | apply State.onCul_kept | apply State.culRoute_kept | apply kept_foldS) | split

theorem State.fenceRelease_kept {a0 : State} (f : Fence) (m : BitVec 64) (s : State) (h0 : Kept a0 s) : Kept a0 (State.fenceRelease f m s) := by
  unfold State.fenceRelease
  repeat' first
    | (with_reducible first
        | assumption | apply State.completeOpt_kept | apply State.onCul_kept | apply State.releaseDests_kept | apply kept_ite)
    | split

theorem State.takeFenceAck_kept {a0 : State} (h : Hdr) (s : State) (h0 : Kept a0 s) : Kept a0 (State.takeFenceAck h s) := by
  unfold State.takeFenceAck
  repeat' first
    | (with_reducible first
        | assumption | apply State.onCul_kept | apply State.fenceRelease_kept | apply kept_foldS | apply kept_ite)
    | intro _ _ _ | split

theorem State.fenceLimit_kept {a0 : State} (n : Nat) (s : State) (h0 : Kept a0 s) : Kept a0 (State.fenceLimit n s) := by
  unfold State.fenceLimit
  repeat' first
    | (with_reducible first
        | assumption | apply State.raise_kept | apply State.onCul_kept | apply State.fenceRelease_kept | apply kept_foldS | apply kept_ite)
    | intro _ _ _ | split

theorem State.fenceInGo_kept {a0 : State} (f : FenceIn) (s : State) (h0 : Kept a0 s) : Kept a0 (State.fenceInGo f s) := by
  unfold State.fenceInGo
  repeat' first
    | (with_reducible first
        | assumption | apply State.onPort_kept | apply State.onCul_kept | apply State.culControl_kept | apply State.fenceCopies_kept
        | apply kept_foldS | apply kept_ite)
    | intro _ _ _ | split

theorem State.fenceReconcile_kept {a0 : State} (s : State) (h0 : Kept a0 s) : Kept a0 (State.fenceReconcile s) := by
  unfold State.fenceReconcile
  repeat' first | (with_reducible first | assumption | apply State.fenceInGo_kept | apply kept_foldS) | split

theorem State.takeFence_kept {a0 : State} (vc : Nat) (h : Hdr) (s : State) (h0 : Kept a0 s) : Kept a0 (State.takeFence vc h s) := by
  unfold State.takeFence
  repeat' first
    | (with_reducible first
        | assumption | apply State.onCul_kept | apply State.culControl_kept | apply State.fenceInGo_kept | apply kept_ite)
    | split

theorem State.takeSalvage_kept {a0 : State} (h : Hdr) (d : Beats) (s : State) (h0 : Kept a0 s) : Kept a0 (State.takeSalvage h d s) := by
  unfold State.takeSalvage
  repeat' first | (with_reducible first | assumption | apply State.culAccept_kept | apply kept_ite) | split

theorem State.culSalvage_kept {a0 : State} (n : Nat) (s : State) (h0 : Kept a0 s) : Kept a0 (State.culSalvage n s) := by
  unfold State.culSalvage
  repeat' first
    | (with_reducible first
        | assumption | apply State.onPort_kept | apply State.onCul_kept | apply State.culControl_kept | apply kept_foldS | apply kept_ite)
    | intro _ _ _ | split

theorem State.requeue_kept {a0 : State} (n : Nat) (s : State) (h0 : Kept a0 s) : Kept a0 (State.requeue n s) := by
  unfold State.requeue
  repeat' first
    | (with_reducible first
        | assumption | apply State.onPort_kept | apply State.culRoute_kept | apply kept_foldS)
    | intro _ _ _ | split

theorem State.reroute_kept {a0 : State} (n : Nat) (s : State) (h0 : Kept a0 s) : Kept a0 (State.reroute n s) := by
  unfold State.reroute
  repeat' first
    | (with_reducible first
        | assumption | apply State.onCul_kept | apply State.culSalvage_kept | apply State.requeue_kept | apply kept_ite)
    | split

theorem State.culLate_kept {a0 : State} (s : State) (h0 : Kept a0 s) : Kept a0 (State.culLate s) := by
  unfold State.culLate
  repeat' first | (with_reducible first | assumption | apply State.onCul_kept | apply State.culSalvage_kept | apply kept_foldS) | split

theorem State.culAbandon_kept {a0 : State} (n : Nat) (s : State) (h0 : Kept a0 s) : Kept a0 (State.culAbandon n s) := by
  unfold State.culAbandon
  repeat' first | (with_reducible first | assumption | apply State.completeOpt_kept | apply State.onPort_kept) | extract_lets | split

theorem State.culLeave_kept {a0 : State} (n : Nat) (st : CulSt) (reason : Nat) (s : State) (h0 : Kept a0 s) :
    Kept a0 (State.culLeave n st reason s) := by
  unfold State.culLeave
  repeat' first
    | (with_reducible first
        | assumption | apply State.completeOpt_kept | apply State.onPort_kept | apply State.requeue_kept | apply State.reroute_kept
        | apply State.culAbandon_kept | apply kept_ite)
    | split

theorem State.culLost_kept {a0 : State} (n reason : Nat) (s : State) (h0 : Kept a0 s) : Kept a0 (State.culLost n reason s) := by
  unfold State.culLost
  repeat' first | (with_reducible first | assumption | apply State.raise_kept | apply State.culLeave_kept) | split

theorem State.culRetrain_kept {a0 : State} (n : Nat) (cmd : Option Nat) (s : State) (h0 : Kept a0 s) : Kept a0 (State.culRetrain n cmd s) := by
  unfold State.culRetrain
  repeat' first
    | (with_reducible first
        | assumption | apply State.onPort_kept | apply State.sayLm_kept | apply State.culAbandon_kept)
    | split

theorem State.culLoss_kept {a0 : State} (n : Nat) (s : State) (h0 : Kept a0 s) : Kept a0 (State.culLoss n s) := by
  unfold State.culLoss
  repeat' first
    | (with_reducible first
        | assumption | apply State.sayLm_kept | apply State.culLost_kept | apply State.culRetrain_kept | apply kept_ite)
    | split

theorem State.culPeerDown_kept {a0 : State} (n : Nat) (s : State) (h0 : Kept a0 s) : Kept a0 (State.culPeerDown n s) := by
  unfold State.culPeerDown
  repeat' first | (with_reducible first | assumption | apply State.sayLm_kept | apply State.culLost_kept) | split

theorem State.lossTimer_kept {a0 : State} (n : Nat) (s : State) (h0 : Kept a0 s) : Kept a0 (State.lossTimer n s) := by
  unfold State.lossTimer
  repeat' first | (with_reducible first | assumption | apply State.culLoss_kept | apply kept_ite) | split

theorem State.retrainTimeout_kept {a0 : State} (n : Nat) (s : State) (h0 : Kept a0 s) : Kept a0 (State.retrainTimeout n s) := by
  unfold State.retrainTimeout
  repeat' first | (with_reducible first | assumption | apply State.culLost_kept | apply kept_ite) | split

theorem State.culDisable_kept {a0 : State} (n : Nat) (s : State) (h0 : Kept a0 s) : Kept a0 (State.culDisable n s) := by
  unfold State.culDisable
  repeat' first | (with_reducible first | assumption | apply State.onPort_kept | apply State.culLeave_kept | apply kept_ite) | split

theorem State.culSealed_kept {a0 : State} (n : Nat) (s : State) (h0 : Kept a0 s) : Kept a0 (State.culSealed n s) := by
  unfold State.culSealed
  repeat' first | (with_reducible first | assumption | apply State.sayLm_kept | apply State.culLost_kept | apply kept_ite) | split

theorem State.culBlockSealed_kept {a0 : State} (s : State) (h0 : Kept a0 s) : Kept a0 (State.culBlockSealed s) := by
  unfold State.culBlockSealed
  repeat' first | (with_reducible first | assumption | apply State.sayLm_kept | apply kept_foldS | apply kept_ite) | intro _ _ _ | split

theorem State.routeReturn_kept {a0 : State} (cmd : Nat) (mask : BitVec 64) (s : State) (h0 : Kept a0 s) : Kept a0 (State.routeReturn cmd mask s) := by
  unfold State.routeReturn
  repeat' first
    | (with_reducible first
        | assumption | apply State.complete_kept | apply State.onCul_kept | apply State.fenceCopies_kept | apply kept_foldS | apply kept_ite)
    | intro _ _ _ | split

/-! CulTrain. -/

theorem State.switchStart_kept {a0 : State} (n lane spare : Nat) (cmd : Option Nat) (s : State) (h0 : Kept a0 s) :
    Kept a0 (State.switchStart n lane spare cmd s) := by
  unfold State.switchStart
  repeat' first | (with_reducible first | assumption | apply State.raise_kept | apply State.onPort_kept) | split

theorem State.laneFault_kept {a0 : State} (n j : Nat) (s : State) (h0 : Kept a0 s) : Kept a0 (State.laneFault n j s) := by
  unfold State.laneFault
  dsimp only
  repeat' first
    | (with_reducible first
        | assumption | apply State.onPort_kept | apply State.culLoss_kept | apply State.switchStart_kept | apply kept_ite)
    | split

theorem State.switchCodeword_kept {a0 : State} (n : Nat) (rx : Bool) (s : State) (h0 : Kept a0 s) : Kept a0 (State.switchCodeword n rx s) := by
  unfold State.switchCodeword
  repeat' first | (with_reducible first | assumption | apply State.onPort_kept | apply kept_ite) | split

theorem State.nextFault_kept {a0 : State} (n : Nat) (l : List Nat) (s : State) (h0 : Kept a0 s) : Kept a0 (State.nextFault n l s) := by
  induction l generalizing s with
  | nil => exact h0
  | cons j l ih =>
    unfold State.nextFault
    repeat' first | (with_reducible first | assumption | apply ih | apply State.onPort_kept | apply State.laneFault_kept | apply kept_ite) | split

theorem State.switchEnd_kept {a0 : State} (n : Nat) (s : State) (h0 : Kept a0 s) : Kept a0 (State.switchEnd n s) := by
  unfold State.switchEnd
  repeat' first
    | (with_reducible first
        | assumption | apply State.completeOpt_kept | apply State.onPort_kept | apply State.nextFault_kept | apply kept_ite)
    | split

theorem State.takeSpareReq_kept {a0 : State} (n arg : Nat) (s : State) (h0 : Kept a0 s) : Kept a0 (State.takeSpareReq n arg s) := by
  unfold State.takeSpareReq
  repeat' first | (with_reducible first | assumption | apply State.onPort_kept | apply kept_ite) | extract_lets | split

theorem State.takeLm_kept {a0 : State} (n code arg : Nat) (s : State) (h0 : Kept a0 s) : Kept a0 (State.takeLm n code arg s) := by
  unfold State.takeLm
  repeat' first
    | (with_reducible first
        | assumption | apply State.onPort_kept | apply State.culLoss_kept | apply State.culPeerDown_kept | apply State.takeSpareReq_kept
        | apply kept_ite)
    | split

theorem State.takeFlit_kept {a0 : State} (n : Nat) (f : BitVec 2048) (bad : Bool) (s : State) (h0 : Kept a0 s) :
    Kept a0 (State.takeFlit n f bad s) := by
  unfold State.takeFlit
  repeat' first
    | (with_reducible first
        | assumption | apply State.onPort_kept | apply State.culFlit_kept | apply State.takeLm_kept | apply kept_ite)
    | split

theorem State.takeAnswer_kept {a0 : State} (n : Nat) (f : BitVec 2048) (bad : Bool) (s : State) (h0 : Kept a0 s) :
    Kept a0 (State.takeAnswer n f bad s) := by
  unfold State.takeAnswer
  repeat' first | (with_reducible first | assumption | apply State.onPort_kept | apply kept_ite) | split

theorem State.flitIn_kept {a0 : State} (n : Nat) (w : List (List (BitVec 64))) (s : State) (h0 : Kept a0 s) : Kept a0 (State.flitIn n w s) := by
  have h := State.rxFlit_kept n w s h0
  unfold State.flitIn
  generalize State.rxFlit n w s = r at h ⊢
  obtain ⟨_ | ⟨f, b⟩, t⟩ := r <;> dsimp only at h ⊢ <;>
    repeat' first | (with_reducible first | assumption | apply State.takeFlit_kept | apply State.takeAnswer_kept | apply kept_ite) | split

theorem State.alignment_kept {a0 : State} (n : Nat) (w : List (List (BitVec 64))) (s : State) (h0 : Kept a0 s) : Kept a0 (State.alignment n w s) := by
  unfold State.alignment
  repeat' first
    | (with_reducible first
        | assumption | apply State.onPort_kept | apply State.rxWords_kept | apply State.laneFault_kept | apply kept_foldS | apply kept_ite)
    | intro _ _ _ | split

theorem State.culSpare_kept {a0 : State} (n lane spare cmd : Nat) (s : State) (h0 : Kept a0 s) : Kept a0 (State.culSpare n lane spare cmd s) := by
  unfold State.culSpare
  repeat' first | (with_reducible first | assumption | apply State.switchStart_kept) | split

theorem State.culPowerOn_kept {a0 : State} (n : Nat) (s : State) (h0 : Kept a0 s) : Kept a0 (State.culPowerOn n s) := by
  unfold State.culPowerOn
  repeat' first | (with_reducible first | assumption | apply State.onCore_kept | apply State.onPort_kept | apply kept_ite) | split

theorem State.culPowerOff_kept {a0 : State} (n : Nat) (s : State) (h0 : Kept a0 s) : Kept a0 (State.culPowerOff n s) := by
  unfold State.culPowerOff
  repeat' first | (with_reducible first | assumption | apply State.onPort_kept | apply State.culLeave_kept | apply kept_ite) | split

theorem State.culDetect_kept {a0 : State} (n : Nat) (s : State) (h0 : Kept a0 s) : Kept a0 (State.culDetect n s) := by
  unfold State.culDetect
  repeat' first | (with_reducible first | assumption | apply State.onCore_kept | apply State.onPort_kept | apply kept_ite) | split

theorem State.trainSend_kept {a0 : State} (n count : Nat) (s : State) (h0 : Kept a0 s) : Kept a0 (State.trainSend n count s) := by
  unfold State.trainSend
  repeat' first
    | (with_reducible first
        | assumption | apply State.onCore_kept | apply State.onPort_kept | apply kept_foldS | apply kept_ite)
    | split

theorem State.culIdent_kept {a0 : State} (n : Nat) (b : TBlock) (s : State) (h0 : Kept a0 s) : Kept a0 (State.culIdent n b s) := by
  unfold State.culIdent
  repeat' first | (with_reducible first | assumption | apply State.raise_kept | apply State.onPort_kept | apply kept_ite) | split

theorem State.cellsForget_kept {a0 : State} (n : Nat) (s : State) (h0 : Kept a0 s) : Kept a0 (State.cellsForget n s) := by
  unfold State.cellsForget
  repeat' first
    | (with_reducible first
        | assumption | apply State.onCore_kept | apply State.onCul_kept | apply kept_ite)
    | (simp only [kept_mk]; with_reducible refine Kept.fold ?_)

theorem State.culActivate_kept {a0 : State} (n : Nat) (rx : List Nat) (good : BitVec 18) (s : State) (h0 : Kept a0 s) :
    Kept a0 (State.culActivate n rx good s) := by
  unfold State.culActivate
  repeat' first
    | (with_reducible first
        | assumption | apply State.raise_kept | apply State.onPort_kept | apply State.lanesOut_kept | apply State.trainSend_kept
        | apply State.cellsForget_kept | apply kept_ite)
    | split

theorem State.culResume_kept {a0 : State} (n : Nat) (s : State) (h0 : Kept a0 s) : Kept a0 (State.culResume n s) := by
  unfold State.culResume
  repeat' first | (with_reducible first | assumption | apply State.culRehold_kept | apply State.requeue_kept | apply kept_ite) | split

theorem State.trainTo_kept {a0 : State} (n : Nat) (st : CulSt) (s : State) (h0 : Kept a0 s) : Kept a0 (State.trainTo n st s) := by
  unfold State.trainTo
  repeat' first | (with_reducible first | assumption | apply State.onPort_kept | apply kept_ite) | split

theorem State.trainFew_kept {a0 : State} (n : Nat) (s : State) (h0 : Kept a0 s) : Kept a0 (State.trainFew n s) := by
  unfold State.trainFew
  repeat' first | (with_reducible first | assumption | apply State.raise_kept | apply State.culLeave_kept | apply kept_ite) | split

theorem State.trainLock_kept {a0 : State} (n : Nat) (l : List (Nat × TBlock)) (s : State) (h0 : Kept a0 s) : Kept a0 (State.trainLock n l s) := by
  unfold State.trainLock
  repeat' first | (with_reducible first | assumption | apply State.onPort_kept | apply State.trainTo_kept) | split

theorem State.trainMap_kept {a0 : State} (n : Nat) (l : List (Nat × TBlock)) (late : BitVec 18) (s : State) (h0 : Kept a0 s) :
    Kept a0 (State.trainMap n l late s) := by
  unfold State.trainMap
  repeat' first
    | (with_reducible first
        | assumption | apply State.onPort_kept | apply State.trainTo_kept | apply State.trainFew_kept | apply kept_ite)
    | split

theorem State.trainIdent_kept {a0 : State} (n : Nat) (b : TBlock) (s : State) (h0 : Kept a0 s) : Kept a0 (State.trainIdent n b s) := by
  unfold State.trainIdent
  repeat' first
    | (with_reducible first
        | assumption | apply State.onCore_kept | apply State.culLeave_kept | apply State.culIdent_kept | apply State.trainTo_kept
        | apply kept_ite)
    | split

theorem State.trainConfig_kept {a0 : State} (n : Nat) (b : TBlock) (s : State) (h0 : Kept a0 s) : Kept a0 (State.trainConfig n b s) := by
  unfold State.trainConfig
  repeat' first
    | (with_reducible first
        | assumption | apply State.completeOpt_kept | apply State.onPort_kept | apply State.culReplay_kept | apply State.culActivate_kept
        | apply State.culResume_kept | apply kept_ite)
    | split

theorem State.trainAdvance_kept {a0 : State} (n : Nat) (blocks : List TrainSeen) (late : BitVec 18) (sent : Nat) (s : State) (h0 : Kept a0 s) :
    Kept a0 (State.trainAdvance n blocks late sent s) := by
  unfold State.trainAdvance
  dsimp only
  repeat' first
    | (with_reducible first
        | assumption | apply State.onPort_kept | apply State.trainSend_kept | apply State.trainTo_kept | apply State.trainFew_kept
        | apply State.trainLock_kept | apply State.trainMap_kept | apply State.trainIdent_kept | apply State.trainConfig_kept
        | apply kept_ite)
    | split

theorem State.testEnd_kept {a0 : State} (n : Nat) (errs : List (Fin 18 × Nat)) (bits : Nat) (s : State) (h0 : Kept a0 s) :
    Kept a0 (State.testEnd n errs bits s) := by
  unfold State.testEnd
  repeat' first | (with_reducible first | assumption | apply State.onPort_kept | apply State.trainTo_kept | apply kept_ite) | split

theorem State.trainBudget_kept {a0 : State} (n : Nat) (s : State) (h0 : Kept a0 s) : Kept a0 (State.trainBudget n s) := by
  unfold State.trainBudget
  repeat' first
    | (with_reducible first
        | assumption | apply State.raise_kept | apply State.culLeave_kept | apply kept_ite)
    | extract_lets | split

theorem State.detectGo_kept {a0 : State} (n : Nat) (s : State) (h0 : Kept a0 s) : Kept a0 (State.detectGo n s) := by
  unfold State.detectGo
  repeat' first | (with_reducible first | assumption | apply State.trainTo_kept | apply kept_ite) | split

theorem State.serdesReady_kept {a0 : State} (n : Nat) (signal lock : BitVec 18) (s : State) (h0 : Kept a0 s) :
    Kept a0 (State.serdesReady n signal lock s) := by
  unfold State.serdesReady
  repeat' first | (with_reducible first | assumption | apply State.onPort_kept | apply State.detectGo_kept | apply kept_ite) | split

theorem State.laneSignal_kept {a0 : State} (n j : Nat) (signal lock : Bool) (s : State) (h0 : Kept a0 s) :
    Kept a0 (State.laneSignal n j signal lock s) := by
  unfold State.laneSignal
  repeat' first
    | (with_reducible first
        | assumption | apply State.onPort_kept | apply State.laneFault_kept | apply State.trainFew_kept | apply State.detectGo_kept
        | apply kept_ite)
    | extract_lets | split

/-! Power. -/

theorem State.onPwr_kept {a0 : State} (f : Pwr → Pwr) (s : State) (h0 : Kept a0 s) : Kept a0 (State.onPwr f s) := by
  unfold State.onPwr
  repeat' first | (with_reducible first | assumption) | (simp only [kept_mk]; with_reducible refine Kept.fold ?_)

theorem State.leavePump_kept {a0 : State} (s : State) (h0 : Kept a0 s) : Kept a0 (State.leavePump s) := by
  unfold State.leavePump
  repeat' first | (with_reducible first | assumption | apply State.onPwr_kept | apply kept_ite) | extract_lets | split

theorem State.leaveWithdraw_kept {a0 : State} (s : State) (h0 : Kept a0 s) : Kept a0 (State.leaveWithdraw s) := by
  unfold State.leaveWithdraw
  repeat' first | (with_reducible first | assumption | apply State.onPwr_kept) | split

theorem State.leaveAsk_kept {a0 : State} (l : Leave) (s : State) (h0 : Kept a0 s) : Kept a0 (State.leaveAsk l s) := by
  unfold State.leaveAsk
  repeat' first
    | (with_reducible first
        | assumption | apply State.onPwr_kept | apply State.leavePump_kept | apply State.leaveWithdraw_kept | apply kept_ite)
    | split

theorem State.leaveReconcile_kept {a0 : State} (s : State) (h0 : Kept a0 s) : Kept a0 (State.leaveReconcile s) := by
  unfold State.leaveReconcile
  repeat' first | (with_reducible first | assumption | apply State.leavePump_kept | apply State.leaveWithdraw_kept | apply kept_ite) | split

theorem State.leaveLate_kept {a0 : State} (s : State) (h0 : Kept a0 s) : Kept a0 (State.leaveLate s) := by
  unfold State.leaveLate
  repeat' first | (with_reducible first | assumption | apply State.raise_kept | apply State.onPwr_kept | apply kept_ite) | split

theorem State.gntStuck_kept {a0 : State} (s : State) (h0 : Kept a0 s) : Kept a0 (State.gntStuck s) := by
  unfold State.gntStuck
  repeat' first | (with_reducible first | assumption | apply State.raise_kept | apply State.onPwr_kept | apply kept_ite) | split

theorem State.gntFall_kept {a0 : State} (early : Bool) (s : State) (h0 : Kept a0 s) : Kept a0 (State.gntFall early s) := by
  unfold State.gntFall
  repeat' first
    | (with_reducible first
        | assumption | apply State.raise_kept | apply State.onPwr_kept | apply State.leavePump_kept | apply kept_ite)
    | split

theorem State.workAsk_kept {a0 : State} (w : Switching) (s : State) (h0 : Kept a0 s) : Kept a0 (State.workAsk w s) := by
  unfold State.workAsk
  repeat' first | (with_reducible first | assumption | apply State.onPwr_kept | apply State.leaveAsk_kept | apply kept_ite) | split

theorem State.workPump_kept {a0 : State} (s : State) (h0 : Kept a0 s) : Kept a0 (State.workPump s) := by
  unfold State.workPump
  repeat' first | (with_reducible first | assumption | apply State.workAsk_kept | apply kept_foldS) | split

theorem State.workOn_kept {a0 : State} (cmd : Option Nat) (unit : Nat) (doms : List Nat) (failover : Bool) (s : State) (h0 : Kept a0 s) :
    Kept a0 (State.workOn cmd unit doms failover s) := by
  unfold State.workOn
  repeat' first | (with_reducible first | assumption | apply State.onPwr_kept | apply State.workPump_kept) | split

theorem State.sliceMarker_kept {a0 : State} (p : Nat) (s : State) (h0 : Kept a0 s) : Kept a0 (State.sliceMarker p s) := by
  unfold State.sliceMarker
  repeat' first | (with_reducible first | assumption | apply State.marker_kept) | split

theorem State.isolate_kept {a0 : State} (d : Nat) (s : State) (h0 : Kept a0 s) : Kept a0 (State.isolate d s) := by
  unfold State.isolate
  repeat' first
    | (with_reducible first
        | assumption | apply State.onCore_kept | apply State.onPwr_kept | apply State.sliceMarker_kept | apply kept_ite)
    | split

theorem State.workOff_kept {a0 : State} (cmd : Option Nat) (unit : Nat) (doms : List Nat) (s : State) (h0 : Kept a0 s) :
    Kept a0 (State.workOff cmd unit doms s) := by
  unfold State.workOff
  repeat' first | (with_reducible first | assumption | apply State.onPwr_kept | apply State.isolate_kept | apply kept_foldS) | split

theorem State.remapClear_kept {a0 : State} (p : Nat) (s : State) (h0 : Kept a0 s) : Kept a0 (State.remapClear p s) := by
  unfold State.remapClear
  repeat' first | (with_reducible first | assumption | apply State.onCore_kept | apply kept_foldS) | split

theorem State.sliceDark_kept {a0 : State} (p : Nat) (s : State) (h0 : Kept a0 s) : Kept a0 (State.sliceDark p s) := by
  unfold State.sliceDark
  repeat' first
    | (with_reducible first
        | assumption | apply State.onCore_kept | apply State.onGal_kept | apply State.remapClear_kept)
    | split

theorem State.slicePower_kept {a0 : State} (p mask : Nat) (cmd : Option Nat) (s : State) (h0 : Kept a0 s) :
    Kept a0 (State.slicePower p mask cmd s) := by
  unfold State.slicePower
  repeat' first
    | (with_reducible first
        | assumption | apply State.onSlice_kept | apply State.workOn_kept | apply State.workOff_kept | apply State.sliceDark_kept
        | apply kept_ite)
    | split

theorem State.idleLeave_kept {a0 : State} (cmd : Nat) (s : State) (h0 : Kept a0 s) : Kept a0 (State.idleLeave cmd s) := by
  unfold State.idleLeave
  repeat' first | (with_reducible first | assumption | apply State.marker_kept | apply State.complete_kept | apply State.onPwr_kept) | split

theorem State.trainAsk_kept {a0 : State} (n : Nat) (s : State) (h0 : Kept a0 s) : Kept a0 (State.trainAsk n s) := by
  unfold State.trainAsk
  repeat' first | (with_reducible first | assumption | apply State.leaveAsk_kept | apply kept_ite) | split

theorem State.culEnable_kept {a0 : State} (n : Nat) (s : State) (h0 : Kept a0 s) : Kept a0 (State.culEnable n s) := by
  unfold State.culEnable
  repeat' first
    | (with_reducible first
        | assumption | apply State.onPort_kept | apply State.workOn_kept | apply State.trainAsk_kept | apply kept_ite)
    | split

theorem State.switchedOn_kept {a0 : State} (w : Switching) (s : State) (h0 : Kept a0 s) : Kept a0 (State.switchedOn w s) := by
  unfold State.switchedOn
  repeat' first
    | (with_reducible first
        | assumption | apply State.onCore_kept | apply State.marker_kept | apply State.completeOpt_kept | apply State.onSlice_kept
        | apply State.culPowerOn_kept | apply State.idleLeave_kept | apply State.trainAsk_kept | apply kept_ite)
    | extract_lets | split

theorem State.blockReset_kept {a0 : State} (dest : BlockSt) (s : State) (h0 : Kept a0 s) : Kept a0 (State.blockReset dest s) := by
  refine ⟨h0.1, fun _ => ⟨fun k _ => ?_, fun e he => ?_, fun e he => ?_⟩⟩
  · show (0 : BitVec 256).getLsbD k = false
    simp
  · cases he
  · cases he

theorem State.enterInit_kept {a0 : State} (s : State) (h0 : Kept a0 s) : Kept a0 (State.enterInit s) := by
  unfold State.enterInit
  repeat' first
    | (with_reducible first
        | assumption | apply State.onCore_kept | apply State.leaveAsk_kept | apply State.blockReset_kept | apply kept_ite)
    | split

theorem State.switchedOff_kept {a0 : State} (w : Switching) (s : State) (h0 : Kept a0 s) : Kept a0 (State.switchedOff w s) := by
  unfold State.switchedOff
  repeat' first
    | (with_reducible first
        | assumption | apply State.marker_kept | apply State.completeOpt_kept | apply State.blockReset_kept | apply kept_ite)
    | split

theorem State.domainOn_kept {a0 : State} (d : Nat) (s : State) (h0 : Kept a0 s) : Kept a0 (State.domainOn d s) := by
  unfold State.domainOn
  repeat' first
    | (with_reducible first
        | assumption | apply State.onCore_kept | apply State.onPwr_kept | apply State.workPump_kept | apply State.sliceMarker_kept
        | apply State.switchedOn_kept | apply kept_ite)
    | intro _ _ _ | extract_lets | split | (simp only [kept_mk]; with_reducible refine Kept.fold ?_) | exact fun o => State.tgt_ok _ o
    | (rename_i hq; first | obtain rfl := congrArg Prod.snd hq | obtain rfl := congrArg (fun x => x.2.2.2) hq)
    | dsimp +zetaDelta only

theorem State.domainOff_kept {a0 : State} (d : Nat) (s : State) (h0 : Kept a0 s) : Kept a0 (State.domainOff d s) := by
  unfold State.domainOff
  repeat' first
    | (with_reducible first
        | assumption | apply State.onPwr_kept | apply State.workPump_kept | apply State.switchedOff_kept | apply kept_ite)
    | extract_lets | split

theorem State.divPump_kept {a0 : State} (p : Nat) (s : State) (h0 : Kept a0 s) : Kept a0 (State.divPump p s) := by
  unfold State.divPump
  repeat' first | (with_reducible first | assumption | apply State.divNow_kept | apply kept_ite) | split

theorem State.clkWrite_kept {a0 : State} (p : Nat) (v : Word) (s : State) (h0 : Kept a0 s) : Kept a0 (State.clkWrite p v s) := by
  unfold State.clkWrite
  repeat' first
    | (with_reducible first
        | assumption | apply State.onCore_kept | apply State.leaveAsk_kept | apply State.divPump_kept | apply kept_ite)
    | split

theorem State.clockAbsent_kept {a0 : State} (d : Nat) (s : State) (h0 : Kept a0 s) : Kept a0 (State.clockAbsent d s) := by
  unfold State.clockAbsent
  repeat' first
    | (with_reducible first
        | assumption | apply State.raise_kept | apply State.onPwr_kept | apply kept_foldS | apply kept_ite)
    | intro _ _ _ | split

theorem State.clockReturn_kept {a0 : State} (d : Nat) (s : State) (h0 : Kept a0 s) : Kept a0 (State.clockReturn d s) := by
  unfold State.clockReturn
  repeat' first | (with_reducible first | assumption | apply State.onPwr_kept | apply kept_ite) | split

theorem State.ungate_kept {a0 : State} (p : Nat) (s : State) (h0 : Kept a0 s) : Kept a0 (State.ungate p s) := by
  unfold State.ungate
  repeat' first | (with_reducible first | assumption | apply State.onPwr_kept) | split

theorem State.gateClose_kept {a0 : State} (g : Option (Fin 18)) (s : State) (h0 : Kept a0 s) : Kept a0 (State.gateClose g s) := by
  unfold State.gateClose
  repeat' first | (with_reducible first | assumption | apply State.onCore_kept | apply State.onPwr_kept | apply kept_ite) | split

theorem State.gateReconcile_kept {a0 : State} (s : State) (h0 : Kept a0 s) : Kept a0 (State.gateReconcile s) := by
  unfold State.gateReconcile
  repeat' first | (with_reducible first | assumption | apply State.marker_kept | apply State.onPwr_kept | apply kept_ite) | split

theorem State.pwrIdle_kept {a0 : State} (on : Bool) (cmd : Nat) (s : State) (h0 : Kept a0 s) : Kept a0 (State.pwrIdle on cmd s) := by
  unfold State.pwrIdle
  repeat' first
    | (with_reducible first
        | assumption | apply State.marker_kept | apply State.complete_kept | apply State.onPwr_kept | apply State.workOn_kept
        | apply State.idleLeave_kept | apply kept_foldS | apply kept_ite)
    | intro _ _ _ | split

theorem State.pwrHalf_kept {a0 : State} (element half : Nat) (on : Bool) (cmd : Nat) (s : State) (h0 : Kept a0 s) :
    Kept a0 (State.pwrHalf element half on cmd s) := by
  unfold State.pwrHalf
  repeat' first
    | (with_reducible first
        | assumption | apply State.complete_kept | apply State.workOn_kept | apply State.workOff_kept | apply kept_ite)
    | split

theorem State.portPower_kept {a0 : State} (unit : Nat) (on : Bool) (cmd : Nat) (s : State) (h0 : Kept a0 s) :
    Kept a0 (State.portPower unit on cmd s) := by
  unfold State.portPower
  repeat' first
    | (with_reducible first
        | assumption | apply State.onCore_kept | apply State.culPowerOff_kept | apply State.workOn_kept | apply State.workOff_kept
        | apply kept_ite)
    | split

theorem State.traceAll_kept {a0 : State}  (n : Nat) (s : State) (h0 : Kept a0 s) : Kept a0 (State.traceAll n s) := by
  induction n generalizing s with
  | zero => exact h0
  | succ n ih =>
    unfold State.traceAll
    repeat' first | (with_reducible first | assumption | apply ih | apply State.traceWrite_kept | apply kept_ite) | split

theorem State.spillAll_kept {a0 : State}  (n : Nat) (s : State) (h0 : Kept a0 s) : Kept a0 (State.spillAll n s) := by
  induction n generalizing s with
  | zero => exact h0
  | succ n ih =>
    unfold State.spillAll
    repeat' first | (with_reducible first | assumption | apply ih | apply State.spillOne_kept | apply kept_ite) | split

theorem State.pwrDeep_kept {a0 : State} (cmd : Nat) (s : State) (h0 : Kept a0 s) : Kept a0 (State.pwrDeep cmd s) := by
  unfold State.pwrDeep
  repeat' first
    | (with_reducible first
        | assumption | apply State.marker_kept | apply State.onPwr_kept | apply State.traceAll_kept | apply State.spillAll_kept | apply kept_ite)
    | split

theorem State.deepReconcile_kept {a0 : State} (s : State) (h0 : Kept a0 s) : Kept a0 (State.deepReconcile s) := by
  unfold State.deepReconcile
  repeat' first
    | (with_reducible first
        | assumption | apply State.marker_kept | apply State.culPowerOff_kept | apply State.onPwr_kept | apply State.workOff_kept
        | apply State.sliceDark_kept | apply kept_foldS | apply kept_ite)
    | intro _ _ _ | split

theorem State.goodRise_kept {a0 : State} (s : State) (h0 : Kept a0 s) : Kept a0 (State.goodRise s) := by
  unfold State.goodRise
  repeat' first | (with_reducible first | assumption | apply State.onPwr_kept | apply State.enterInit_kept | apply kept_ite) | split

theorem State.goodFall_kept {a0 : State} (s : State) (h0 : Kept a0 s) : Kept a0 (State.goodFall s) := by
  unfold State.goodFall
  repeat' first | (with_reducible first | assumption | apply State.onPwr_kept | apply State.blockReset_kept | apply kept_ite) | split

theorem State.supplyOn_kept {a0 : State} (st : Straps) (good : Bool) (s : State) (h0 : Kept a0 s) : Kept a0 (State.supplyOn st good s) := by
  unfold State.supplyOn
  repeat' first
    | (with_reducible first
        | assumption | apply State.onCore_kept | apply State.onTow_kept | apply State.onPwr_kept | apply State.blockReset_kept
        | apply State.enterInit_kept | apply kept_ite)
    | split

theorem State.supplyOff_kept {a0 : State} (s : State) (h0 : Kept a0 s) : Kept a0 (State.supplyOff s) := by
  unfold State.supplyOff
  repeat' first
    | (with_reducible first
        | assumption | apply State.onCore_kept | apply State.onPwr_kept | apply State.blockReset_kept)
    | split

theorem State.wakeFire_kept {a0 : State} (k : Nat) (s : State) (h0 : Kept a0 s) : Kept a0 (State.wakeFire k s) := by
  unfold State.wakeFire
  repeat' first | (with_reducible first | assumption | apply State.onPwr_kept | apply State.enterInit_kept | apply kept_ite) | split

theorem State.plWake_kept {a0 : State} (v : Word) (s : State) (h0 : Kept a0 s) : Kept a0 (State.plWake v s) := by
  unfold State.plWake
  repeat' first | (with_reducible first | assumption | apply State.onPwr_kept | apply State.enterInit_kept | apply kept_ite) | split

theorem State.selftest_kept {a0 : State} (r : SelfTest) (s : State) (h0 : Kept a0 s) : Kept a0 (State.selftest r s) := by
  unfold State.selftest
  repeat' first
    | (with_reducible first
        | assumption | apply State.onCore_kept | apply State.marker_kept | apply State.irqWake_kept | apply State.onStart_kept | apply kept_foldS
        | apply kept_ite)
    | intro _ _ _ | split

theorem State.testReset_kept {a0 : State} (s : State) (h0 : Kept a0 s) : Kept a0 (State.testReset s) := by
  unfold State.testReset
  repeat' first | (with_reducible first | assumption | apply State.onPwr_kept | apply State.enterInit_kept) | split

theorem State.wrapper_kept {a0 : State} (ir : BitVec 5) (s : State) (h0 : Kept a0 s) : Kept a0 (State.wrapper ir s) := by
  unfold State.wrapper
  repeat' first | (with_reducible first | assumption | apply State.onPwr_kept | apply State.testReset_kept | apply kept_ite) | split

theorem State.wrapperReset_kept {a0 : State} (s : State) (h0 : Kept a0 s) : Kept a0 (State.wrapperReset s) := by
  unfold State.wrapperReset
  repeat' first | (with_reducible first | assumption | apply State.onPwr_kept | apply State.testReset_kept | apply kept_ite) | split

theorem State.leaveStep_kept {a0 : State} (t : Step_) (s : State) (h0 : Kept a0 s) : Kept a0 (State.leaveStep t s) := by
  unfold State.leaveStep
  repeat' first
    | (with_reducible first
        | assumption | apply State.onCore_kept | apply State.onGal_kept | apply State.culDetect_kept | apply State.onPwr_kept
        | apply State.divPump_kept | apply kept_ite)
    | split

theorem State.leaveGnt_kept {a0 : State} (raced : Bool) (s : State) (h0 : Kept a0 s) : Kept a0 (State.leaveGnt raced s) := by
  unfold State.leaveGnt
  repeat' first
    | (with_reducible first
        | assumption | apply State.onPwr_kept | apply State.leaveWithdraw_kept | apply State.leaveStep_kept | apply kept_foldS | apply kept_ite)
    | extract_lets | split

theorem State.scrubAsk_kept {a0 : State} (s : State) (h0 : Kept a0 s) : Kept a0 (State.scrubAsk s) := by
  unfold State.scrubAsk
  repeat' first | (with_reducible first | assumption | apply State.leaveAsk_kept | apply kept_ite) | split

theorem State.interrogReconcile_kept {a0 : State} (s : State) (h0 : Kept a0 s) : Kept a0 (State.interrogReconcile s) := by
  unfold State.interrogReconcile
  repeat' first | (with_reducible first | assumption | apply State.onPwr_kept | apply State.leaveAsk_kept | apply kept_ite) | split

theorem State.bistRemap_kept {a0 : State} (p : Nat) (faults : List WayFault) (s : State) (h0 : Kept a0 s) : Kept a0 (State.bistRemap p faults s) := by
  unfold State.bistRemap
  repeat' first
    | (with_reducible first
        | assumption | apply State.onCore_kept | apply State.raise_kept | apply State.remapClear_kept | apply kept_foldS | apply kept_ite)
    | split

theorem State.wakeEnd_kept {a0 : State} (p : Nat) (faults : List WayFault) (same : Bool) (s : State) (h0 : Kept a0 s) :
    Kept a0 (State.wakeEnd p faults same s) := by
  unfold State.wakeEnd
  repeat' first
    | (with_reducible first
        | assumption | apply State.onCore_kept | apply State.raise_kept | apply State.completeOpt_kept | apply State.onSlice_kept
        | apply State.workPump_kept | apply State.divPump_kept | apply State.bistRemap_kept | apply kept_ite)
    | split

/-! Drain. -/

theorem State.sliceServe_kept {a0 : State} (p l : Nat) (cmd : Nat) (s : State) (h0 : Kept a0 s) : Kept a0 (State.sliceServe p l cmd s) := by
  unfold State.sliceServe
  repeat' first | (with_reducible first | assumption | apply State.onCore_kept | apply State.complete_kept) | split

theorem State.drainStart_kept {a0 : State} (j : DrainJob) (s : State) (h0 : Kept a0 s) : Kept a0 (State.drainStart j s) := by
  unfold State.drainStart
  repeat' first | (with_reducible first | assumption | apply State.onCore_kept | apply State.onStart_kept | apply kept_foldS) | split

theorem State.drainMark_kept {a0 : State} (l : List Nat) (s : State) (h0 : Kept a0 s) : Kept a0 (State.drainMark l s) := by
  unfold State.drainMark
  repeat' first | (with_reducible first | assumption | apply State.onSlice_kept | apply kept_foldS) | intro _ _ _ | split

theorem State.sliceDrain_kept {a0 : State} (p : Nat) (toSpare : Bool) (cmd : Nat) (s : State) (h0 : Kept a0 s) :
    Kept a0 (State.sliceDrain p toSpare cmd s) := by
  unfold State.sliceDrain
  repeat' first | (with_reducible first | assumption | apply State.drainStart_kept | apply State.drainMark_kept) | split

theorem State.sliceSwap_kept {a0 : State} (p q : Nat) (toSpare : Bool) (cmd : Nat) (s : State) (h0 : Kept a0 s) :
    Kept a0 (State.sliceSwap p q toSpare cmd s) := by
  unfold State.sliceSwap
  repeat' first | (with_reducible first | assumption | apply State.drainStart_kept | apply State.drainMark_kept) | split

theorem State.pwrTrim_kept {a0 : State} (t : Nat) (adds : List (Nat × Nat)) (cmd : Nat) (s : State) (h0 : Kept a0 s) :
    Kept a0 (State.pwrTrim t adds cmd s) := by
  unfold State.pwrTrim
  repeat' first
    | (with_reducible first
        | assumption | apply State.onSlice_kept | apply State.drainStart_kept | apply State.drainMark_kept | apply kept_foldS | apply kept_ite)
    | intro _ _ _ | split

theorem State.drainFail_kept {a0 : State} (j : DrainJob) (s : State) (h0 : Kept a0 s) : Kept a0 (State.drainFail j s) := by
  unfold State.drainFail
  repeat' first
    | (with_reducible first
        | assumption | apply State.completeFree_kept | apply State.onSlice_kept | apply State.onStart_kept | apply kept_foldS | apply kept_ite)
    | intro _ _ _ | split

theorem State.drainMap_kept {a0 : State} (k : DrainFor) (s : State) (h0 : Kept a0 s) : Kept a0 (State.drainMap k s) := by
  unfold State.drainMap
  repeat' first | (with_reducible first | assumption | apply State.onCore_kept | apply kept_foldS) | split

theorem State.drainFinish_kept {a0 : State} (j : DrainJob) (s : State) (h0 : Kept a0 s) : Kept a0 (State.drainFinish j s) := by
  unfold State.drainFinish
  repeat' first
    | (with_reducible first
        | assumption | apply State.onCore_kept | apply State.marker_kept | apply State.complete_kept | apply State.onStart_kept
        | apply State.slicePower_kept | apply State.divPump_kept | apply State.drainMap_kept | apply kept_foldS)
    | intro _ _ _ | split

theorem State.drainComplete_kept {a0 : State} (p : Nat) (s : State) (h0 : Kept a0 s) : Kept a0 (State.drainComplete p s) := by
  unfold State.drainComplete
  repeat' first | (with_reducible first | assumption | apply State.drainFinish_kept | apply kept_ite) | split

theorem State.drainReconcile_kept {a0 : State} (s : State) (h0 : Kept a0 s) : Kept a0 (State.drainReconcile s) := by
  unfold State.drainReconcile
  repeat' first
    | (with_reducible first
        | assumption | apply State.onCore_kept | apply State.drainFail_kept | apply kept_foldS | apply kept_ite)
    | intro _ _ _ | split

/-! Charter. -/

theorem State.onCommit_kept {a0 : State} (f : Commit → Commit) (s : State) (h0 : Kept a0 s) : Kept a0 (State.onCommit f s) := by
  unfold State.onCommit
  repeat' first | (with_reducible first | assumption | apply State.onStart_kept) | split

theorem State.takeCommitAll_kept {a0 : State} (s : State) (h0 : Kept a0 s) : Kept a0 (State.takeCommitAll s) := by
  unfold State.takeCommitAll
  repeat' first | (with_reducible first | assumption | apply State.onCommit_kept | apply kept_ite) | split

theorem State.takeCommitAck_kept {a0 : State} (i : BitVec 6) (s : State) (h0 : Kept a0 s) : Kept a0 (State.takeCommitAck i s) := by
  unfold State.takeCommitAck
  repeat' first
    | (with_reducible first
        | assumption | apply State.culControl_kept | apply State.onCommit_kept | apply State.takeCommitAll_kept | apply kept_foldS
        | apply kept_ite)
    | intro _ _ _ | split

theorem State.commitFail_kept {a0 : State} (code entry : Nat) (inst : BitVec 6) (s : State) (h0 : Kept a0 s) :
    Kept a0 (State.commitFail code entry inst s) := by
  unfold State.commitFail
  repeat' first | (with_reducible first | assumption | apply State.completeOpt_kept | apply State.onCommit_kept) | split

theorem State.takeCommitGo_kept {a0 : State} (h : Hdr) (s : State) (h0 : Kept a0 s) : Kept a0 (State.takeCommitGo h s) := by
  unfold State.takeCommitGo
  repeat' first
    | (with_reducible first
        | assumption | apply State.onCore_kept | apply State.completeOpt_kept | apply State.culControl_kept | apply State.onCommit_kept
        | apply State.takeCommitAck_kept | apply State.commitFail_kept | apply kept_ite)
    | split

theorem State.commitDecide_kept {a0 : State} (s : State) (h0 : Kept a0 s) : Kept a0 (State.commitDecide s) := by
  unfold State.commitDecide
  repeat' first
    | (with_reducible first
        | assumption | apply State.culControl_kept | apply State.onCommit_kept | apply State.takeCommitGo_kept | apply kept_foldS)
    | intro _ _ _ | split

theorem State.commitTry_kept {a0 : State} (s : State) (h0 : Kept a0 s) : Kept a0 (State.commitTry s) := by
  unfold State.commitTry
  repeat' first | (with_reducible first | assumption | apply State.commitDecide_kept | apply kept_ite) | split

theorem State.takeCommitReport_kept {a0 : State} (r : Report) (s : State) (h0 : Kept a0 s) : Kept a0 (State.takeCommitReport r s) := by
  unfold State.takeCommitReport
  repeat' first
    | (with_reducible first
        | assumption | apply State.culControl_kept | apply State.onCommit_kept | apply State.commitTry_kept | apply kept_ite)
    | split

theorem State.charterCommit_kept {a0 : State} (cmd : Nat) (id : Word) (s : State) (h0 : Kept a0 s) : Kept a0 (State.charterCommit cmd id s) := by
  unfold State.charterCommit
  repeat' first
    | (with_reducible first
        | assumption | apply State.complete_kept | apply State.culControl_kept | apply State.onCommit_kept | apply State.takeCommitReport_kept
        | apply kept_ite)
    | split

theorem State.commitReportLimit_kept {a0 : State} (s : State) (h0 : Kept a0 s) : Kept a0 (State.commitReportLimit s) := by
  unfold State.commitReportLimit
  repeat' first | (with_reducible first | assumption | apply State.commitDecide_kept | apply kept_ite) | split

theorem State.commitGoLimit_kept {a0 : State} (s : State) (h0 : Kept a0 s) : Kept a0 (State.commitGoLimit s) := by
  unfold State.commitGoLimit
  repeat' first | (with_reducible first | assumption | apply State.commitFail_kept | apply kept_ite) | split

theorem State.charterRelease_kept {a0 : State} (s : State) (h0 : Kept a0 s) : Kept a0 (State.charterRelease s) := by
  unfold State.charterRelease
  repeat' first | (with_reducible first | assumption | apply State.onCore_kept | apply State.onCommit_kept) | split

/-! Discover. -/

theorem State.onDisc_kept {a0 : State} (f : Disc → Disc) (s : State) (h0 : Kept a0 s) : Kept a0 (State.onDisc f s) := by
  unfold State.onDisc
  repeat' first | (with_reducible first | assumption | apply State.onStart_kept) | split

theorem State.helloOut_kept {a0 : State} (c : CulMsg) (but : Nat) (s : State) (h0 : Kept a0 s) : Kept a0 (State.helloOut c but s) := by
  unfold State.helloOut
  repeat' first | (with_reducible first | assumption | apply State.culEnqueue_kept | apply kept_foldS | apply kept_ite) | intro _ _ _ | split

theorem State.helloSend_kept {a0 : State} (s : State) (h0 : Kept a0 s) : Kept a0 (State.helloSend s) := by
  unfold State.helloSend
  repeat' first | (with_reducible first | assumption | apply State.onCul_kept | apply State.helloOut_kept) | split

theorem State.helloRecord_kept {a0 : State} (i : BitVec 6) (p : BitVec 61) (s : State) (h0 : Kept a0 s) : Kept a0 (State.helloRecord i p s) := by
  unfold State.helloRecord
  repeat' first | (with_reducible first | assumption | apply State.onDisc_kept) | split

theorem State.discover_kept {a0 : State} (cmd : Nat) (round : BitVec 8) (s : State) (h0 : Kept a0 s) : Kept a0 (State.discover cmd round s) := by
  unfold State.discover
  repeat' first
    | (with_reducible first
        | assumption | apply State.onDisc_kept | apply State.helloSend_kept | apply State.helloRecord_kept)
    | split

theorem State.helloResend_kept {a0 : State} (s : State) (h0 : Kept a0 s) : Kept a0 (State.helloResend s) := by
  unfold State.helloResend
  repeat' first | (with_reducible first | assumption | apply State.onDisc_kept | apply State.helloSend_kept | apply kept_ite) | split

theorem State.takeHello_kept {a0 : State} (n hops : Nat) (h : Hdr) (s : State) (h0 : Kept a0 s) : Kept a0 (State.takeHello n hops h s) := by
  unfold State.takeHello
  repeat' first
    | (with_reducible first
        | assumption | apply State.onCul_kept | apply State.helloOut_kept | apply State.helloRecord_kept | apply kept_ite)
    | split

theorem State.discEnd_kept {a0 : State} (status : BitVec 8) (s : State) (h0 : Kept a0 s) : Kept a0 (State.discEnd status s) := by
  unfold State.discEnd
  repeat' first | (with_reducible first | assumption | apply State.complete_kept | apply State.onDisc_kept) | split

theorem State.discQuiet_kept {a0 : State} (s : State) (h0 : Kept a0 s) : Kept a0 (State.discQuiet s) := by
  unfold State.discQuiet
  repeat' first | (with_reducible first | assumption | apply State.discEnd_kept | apply kept_ite) | split

theorem State.discLimit_kept {a0 : State} (s : State) (h0 : Kept a0 s) : Kept a0 (State.discLimit s) := by
  unfold State.discLimit
  repeat' first | (with_reducible first | assumption | apply State.discEnd_kept) | split

/-! Service. -/

theorem State.genAdvance_kept {a0 : State} (g : BitVec 48) (s : State) (h0 : Kept a0 s) : Kept a0 (State.genAdvance g s) := by
  unfold State.genAdvance
  repeat' first | (with_reducible first | assumption | apply State.onCore_kept | apply State.leaveAsk_kept) | split

theorem State.serviceEnter_kept {a0 : State} (s : State) (h0 : Kept a0 s) : Kept a0 (State.serviceEnter s) := by
  unfold State.serviceEnter
  repeat' first | (with_reducible first | assumption | apply State.onCore_kept | apply kept_ite) | split

theorem State.agentAdmit_kept {a0 : State} (cmd : Nat) (a : AgentId) (s : State) (h0 : Kept a0 s) : Kept a0 (State.agentAdmit cmd a s) := by
  unfold State.agentAdmit
  repeat' first
    | (with_reducible first
        | assumption | apply State.onCore_kept | apply State.complete_kept | apply State.onStart_kept | apply kept_ite)
    | split

theorem State.admitReconcile_kept {a0 : State} (s : State) (h0 : Kept a0 s) : Kept a0 (State.admitReconcile s) := by
  unfold State.admitReconcile
  repeat' first
    | (with_reducible first
        | assumption | apply State.onCore_kept | apply State.onStart_kept | apply kept_foldS | apply kept_ite)
    | intro _ _ _ | split

theorem State.admitDone_kept {a0 : State} (a : AgentId) (s : State) (h0 : Kept a0 s) : Kept a0 (State.admitDone a s) := by
  unfold State.admitDone
  repeat' first
    | (with_reducible first
        | assumption | apply State.onCore_kept | apply State.complete_kept | apply State.onStart_kept | apply kept_ite)
    | split

theorem State.agentRetire_kept {a0 : State} (cmd : Nat) (a : AgentId) (s : State) (h0 : Kept a0 s) : Kept a0 (State.agentRetire cmd a s) := by
  unfold State.agentRetire
  repeat' first
    | (with_reducible first
        | assumption | apply State.onCore_kept | apply State.complete_kept | apply State.onStart_kept | apply kept_ite)
    | split

theorem State.retireReconcile_kept {a0 : State} (s : State) (h0 : Kept a0 s) : Kept a0 (State.retireReconcile s) := by
  unfold State.retireReconcile
  repeat' first
    | (with_reducible first
        | assumption | apply State.onCore_kept | apply State.complete_kept | apply State.onStart_kept | apply kept_foldS | apply kept_ite)
    | intro _ _ _ | split

theorem State.retireLimit_kept {a0 : State} (a : AgentId) (s : State) (h0 : Kept a0 s) : Kept a0 (State.retireLimit a s) := by
  unfold State.retireLimit
  repeat' first | (with_reducible first | assumption | apply State.onCore_kept | apply State.onStart_kept | apply kept_ite) | split

theorem State.overlayStart_kept {a0 : State} (cmd pa : Nat) (s : State) (h0 : Kept a0 s) : Kept a0 (State.overlayStart cmd pa s) := by
  unfold State.overlayStart
  repeat' first
    | (with_reducible first
        | assumption | apply State.onCore_kept | apply State.completeFree_kept | apply State.onStart_kept | apply kept_ite)
    | split

theorem State.overlayReconcile_kept {a0 : State} (s : State) (h0 : Kept a0 s) : Kept a0 (State.overlayReconcile s) := by
  unfold State.overlayReconcile
  repeat' first
    | (with_reducible first
        | assumption | apply State.onCore_kept | apply State.onSlice_kept | apply State.onStart_kept | apply kept_ite)
    | split

theorem State.overlayRead_kept {a0 : State} (s : State) (h0 : Kept a0 s) : Kept a0 (State.overlayRead s) := by
  unfold State.overlayRead
  repeat' first | (with_reducible first | assumption | apply State.onStart_kept) | split

theorem State.overlayEnd_kept {a0 : State} (sig ok : Bool) (result : Word) (s : State) (h0 : Kept a0 s) :
    Kept a0 (State.overlayEnd sig ok result s) := by
  unfold State.overlayEnd
  repeat' first
    | (with_reducible first
        | assumption | apply State.complete_kept | apply State.completeFree_kept | apply State.onStart_kept | apply kept_ite)
    | split

theorem State.sliceSpare_kept {a0 : State} (p : Nat) (s : State) (h0 : Kept a0 s) : Kept a0 (State.sliceSpare p s) := by
  unfold State.sliceSpare
  repeat' first | (with_reducible first | assumption | apply State.onSlice_kept) | split

theorem State.lsRebuild_kept {a0 : State} (mask : BitVec 16) (s : State) (h0 : Kept a0 s) : Kept a0 (State.lsRebuild mask s) := by
  unfold State.lsRebuild
  repeat' first | (with_reducible first | assumption | apply State.onCore_kept | apply kept_ite) | split

/-! RegView. -/


/-! Regs. -/

theorem State.readFxLow_kept {a0 : State} (o : Nat) (s : State) (h0 : Kept a0 s) : Kept a0 (State.readFxLow o s) := by
  unfold State.readFxLow
  repeat' first
    | (with_reducible first
        | assumption | apply State.onCore_kept | apply State.irqClaim_kept | apply State.irqCountClear_kept | apply kept_ite)
    | split

theorem State.readFxHigh_kept {a0 : State} (o : Nat) (s : State) (h0 : Kept a0 s) : Kept a0 (State.readFxHigh o s) := by
  unfold State.readFxHigh
  repeat' first
    | (with_reducible first
        | assumption | apply State.onCore_kept | apply State.onWatch_kept | apply State.galCntClear_kept | apply State.culCntClear_kept
        | apply State.culLerrClear_kept | apply State.onPwr_kept | apply kept_ite)
    | split

theorem State.regRead_kept {a0 : State} (o : Nat) (s : State) (h0 : Kept a0 s) : Kept a0 (State.regRead o s).2 := by
  unfold State.regRead
  repeat' first | (with_reducible first | assumption | apply State.readFxLow_kept | apply State.readFxHigh_kept | apply kept_ite) | split

theorem State.lockViol_kept {a0 : State} (s : State) (h0 : Kept a0 s) : Kept a0 (State.lockViol s) := by
  unfold State.lockViol
  repeat' first | (with_reducible first | assumption | apply State.onCore_kept | apply State.raise_kept) | split

theorem State.storeFields_kept {a0 : State} (o : Nat) (v : Word) (s : State) (h0 : Kept a0 s) : Kept a0 (State.storeFields o v s).2 := by
  unfold State.storeFields
  repeat' first
    | (with_reducible first
        | assumption | apply State.onCore_kept | apply State.lockViol_kept | apply kept_ite)
    | extract_lets | split

theorem State.gateResume_kept {a0 : State} (s : State) (h0 : Kept a0 s) : Kept a0 (State.gateResume s) := by
  unfold State.gateResume
  repeat' first | (with_reducible first | assumption | apply State.onCore_kept | apply State.dumpPump_kept | apply kept_foldS) | split

theorem State.afterLow_kept {a0 : State} (o : Nat) (old : Word) (v : Word) (s : State) (h0 : Kept a0 s) : Kept a0 (State.afterLow o old v s) := by
  unfold State.afterLow
  repeat' first
    | (with_reducible first
        | assumption | apply State.onCore_kept | apply State.putTgt_kept | apply State.irqRaise_kept | apply State.culRehold_kept
        | apply kept_ite)
    | intro _ _ _ | extract_lets | split | (simp only [kept_mk]; with_reducible refine Kept.fold ?_) | exact fun o => State.tgt_ok _ o
    | (rename_i hq; first | obtain rfl := congrArg Prod.snd hq | obtain rfl := congrArg (fun x => x.2.2.2) hq)
    | dsimp +zetaDelta only

theorem State.afterHigh_kept {a0 : State} (o : Nat) (v : Word) (s : State) (h0 : Kept a0 s) : Kept a0 (State.afterHigh o v s) := by
  unfold State.afterHigh
  repeat' first
    | (with_reducible first
        | assumption | apply State.galInject_kept | apply State.onCul_kept | apply State.culDisable_kept | apply State.culEnable_kept
        | apply State.gateResume_kept | apply kept_ite)
    | split

theorem State.writeOwnLow_kept {a0 : State} (o : Nat) (v : Word) (s : State) (h0 : Kept a0 s) : OptKept a0 (State.writeOwnLow o v s) := by
  unfold State.writeOwnLow
  repeat' first
    | (with_reducible first
        | assumption | apply State.onCore_kept | apply State.putTgt_kept | apply State.irqEoi_kept | apply State.irqPendWrite_kept
        | apply optKept_some | apply optKept_ite | apply kept_ite)
    | intro _ _ _ | extract_lets | split | (simp only [kept_mk]; with_reducible refine Kept.fold ?_) | exact fun o => State.tgt_ok _ o
    | (rename_i hq; first | obtain rfl := congrArg Prod.snd hq | obtain rfl := congrArg (fun x => x.2.2.2) hq)
    | dsimp +zetaDelta only | exact optKept_none

theorem State.writePilot_kept {a0 : State} (o : Nat) (v : Word) (s : State) (h0 : Kept a0 s) : Kept a0 (State.writePilot o v s) := by
  unfold State.writePilot
  repeat' first
    | (with_reducible first
        | assumption | apply State.onCore_kept | apply State.onPwr_kept | apply State.plWake_kept | apply kept_ite)
    | split

theorem State.writeOwnHigh_kept {a0 : State} (o : Nat) (v : Word) (s : State) (h0 : Kept a0 s) : OptKept a0 (State.writeOwnHigh o v s) := by
  unfold State.writeOwnHigh
  repeat' first
    | (with_reducible first
        | assumption | apply State.onCore_kept | apply State.onWatch_kept | apply State.cntValWrite_kept | apply State.logRd_kept
        | apply State.logMemRd_kept | apply State.onGal_kept | apply State.clkWrite_kept | apply State.writePilot_kept
        | apply optKept_some | apply optKept_ite | apply kept_ite)
    | split | exact optKept_none

theorem State.writeHoldup_kept {a0 : State} (v : Word) (s : State) (h0 : Kept a0 s) : Kept a0 (State.writeHoldup v s).2 := by
  unfold State.writeHoldup
  repeat' first | (with_reducible first | assumption | apply State.onCore_kept | apply State.lockViol_kept | apply kept_ite) | split

theorem State.regWrite_kept {a0 : State} (o : Nat) (v : Word) (s : State) (h0 : Kept a0 s) : Kept a0 (State.regWrite o v s).2 := by
  unfold State.regWrite
  repeat' first
    | (with_reducible first
        | assumption | (refine OptKept.elim (optKept_ite ?_ ?_) (by assumption)) | apply State.writeOwnLow_kept | apply State.writeOwnHigh_kept
        | apply State.storeFields_kept | apply State.afterLow_kept | apply State.afterHigh_kept
        | (refine OptKept.elim (State.writeOwnLow_kept _ _ _ ?_) (by assumption))
        | (refine OptKept.elim (State.writeOwnHigh_kept _ _ _ ?_) (by assumption)) | apply State.writeHoldup_kept | apply kept_ite)
    | split

theorem State.regMask_kept {a0 : State} (o : Nat) (v m : Word) (s : State) (h0 : Kept a0 s) : Kept a0 (State.regMask o v m s).2 := by
  unfold State.regMask
  repeat' first | (with_reducible first | assumption | apply State.regWrite_kept) | split

/-! Maint. -/

theorem State.maintAddr_kept {a0 : State} (o : MaintOp) (x : LineAddr) (cmd : Nat) (s : State) (h0 : Kept a0 s) :
    Kept a0 (State.maintAddr o x cmd s) := by
  unfold State.maintAddr
  repeat' first | (with_reducible first | assumption | apply State.onCore_kept | apply State.onSlice_kept) | split

theorem State.putMaint_kept {a0 : State} (j : MaintJob) (s : State) (h0 : Kept a0 s) : Kept a0 (State.putMaint j s) := by
  unfold State.putMaint
  repeat' first | (with_reducible first | assumption | apply State.onStart_kept) | split

theorem State.maintEnd_kept {a0 : State} (j : MaintJob) (status : BitVec 8) (res : Word) (s : State) (h0 : Kept a0 s) :
    Kept a0 (State.maintEnd j status res s) := by
  unfold State.maintEnd
  repeat' first
    | (with_reducible first
        | assumption | apply State.onCore_kept | apply State.complete_kept | apply State.onStart_kept)
    | split

theorem State.maintGo_kept {a0 : State} (j : MaintJob) (s : State) (h0 : Kept a0 s) : Kept a0 (State.maintGo j s) := by
  unfold State.maintGo
  repeat' first
    | (with_reducible first
        | assumption | apply State.onCore_kept | apply State.completeFree_kept | apply State.onSlice_kept | apply State.onStart_kept
        | apply State.putMaint_kept | apply State.maintEnd_kept | apply kept_ite)
    | split

theorem State.maintReconcile_kept {a0 : State} (s : State) (h0 : Kept a0 s) : Kept a0 (State.maintReconcile s) := by
  unfold State.maintReconcile
  repeat' first | (with_reducible first | assumption | apply State.maintGo_kept | apply kept_foldS | apply kept_ite) | split

theorem State.maintEntry_kept {a0 : State} (p idx : Nat) (o : MaintOp) (cmd : Nat) (s : State) (h0 : Kept a0 s) :
    Kept a0 (State.maintEntry p idx o cmd s) := by
  unfold State.maintEntry
  repeat' first | (with_reducible first | assumption | apply State.onStart_kept | apply State.maintReconcile_kept) | split

theorem State.larderRead_kept {a0 : State} (page cmd : Nat) (s : State) (h0 : Kept a0 s) : Kept a0 (State.larderRead page cmd s) := by
  unfold State.larderRead
  repeat' first | (with_reducible first | assumption | apply State.onCore_kept | apply State.complete_kept | apply kept_ite) | split

theorem State.dirRebuild_kept {a0 : State} (page cmd : Nat) (s : State) (h0 : Kept a0 s) : Kept a0 (State.dirRebuild page cmd s) := by
  unfold State.dirRebuild
  repeat' first | (with_reducible first | assumption | apply State.onCore_kept) | split

theorem State.dumpEntry_kept {a0 : State} (p a i : Nat) (s : State) (h0 : Kept a0 s) : Kept a0 (State.dumpEntry p a i s).2 := by
  unfold State.dumpEntry
  repeat' first | (with_reducible first | assumption | apply State.freeWord_kept | apply kept_ite) | split

theorem State.dumpFrom_kept {a0 : State} (p a : Nat) (n m : Nat) (s : State) (h0 : Kept a0 s) : Kept a0 (State.dumpFrom p a n m s).2 := by
  induction n generalizing s m with
  | zero => exact h0
  | succ n ih =>
    unfold State.dumpFrom
    repeat' first | (with_reducible first | assumption | apply ih | apply State.dumpEntry_kept) | split

theorem State.completePay_kept {a0 : State} (id : Nat) (l : List Word) (s : State) (h0 : Kept a0 s) : Kept a0 (State.completePay id l s) := by
  unfold State.completePay
  repeat' first | (with_reducible first | assumption | apply State.freeWord_kept | apply State.complete_kept) | split

theorem State.dirDump_kept {a0 : State} (p a first n cmd : Nat) (s : State) (h0 : Kept a0 s) : Kept a0 (State.dirDump p a first n cmd s) := by
  unfold State.dirDump
  repeat' first | (with_reducible first | assumption | apply State.dumpFrom_kept | apply State.completePay_kept) | split

/-! Towpath. -/

theorem State.towError_kept {a0 : State} (op tag : BitVec 8) (v : Via) (status : BitVec 8) (res : Option Word) (s : State) (h0 : Kept a0 s) :
    Kept a0 (State.towError op tag v status res s) := by
  unfold State.towError
  repeat' first | (with_reducible first | assumption | apply State.freeWord_kept | apply State.sendReply_kept) | split

theorem State.towRun_kept {a0 : State} (r : TowRow) (hr : RowKept r) (c : TowCmd) (s : State) (h0 : Kept a0 s) : Kept a0 (State.towRun r c s) := by
  unfold State.towRun
  refine hr _ _ _ _ ?_
  repeat' first
    | (with_reducible first
        | assumption | apply State.sendReply_kept | apply State.setPrev_kept | apply State.onTow_kept | apply kept_foldS | apply kept_ite)
    | split

theorem State.towTake_kept {a0 : State} (r : TowRow) (hr : RowKept r) (c : TowCmd) (s : State) (h0 : Kept a0 s) : Kept a0 (State.towTake r c s) := by
  unfold State.towTake
  repeat' first
    | (with_reducible first
        | assumption | apply State.towRun_kept | apply State.setPrev_kept | apply State.towError_kept | apply kept_foldS | apply kept_ite)
    | split

theorem State.towUnknown_kept {a0 : State} (op : BitVec 8) (c : TowCmd) (s : State) (h0 : Kept a0 s) : Kept a0 (State.towUnknown op c s) := by
  unfold State.towUnknown
  repeat' first | (with_reducible first | assumption | apply State.setPrev_kept | apply State.towError_kept | apply kept_ite) | split

theorem State.viaTaken_kept {a0 : State} (op : BitVec 8) (c : TowCmd) (s : State) (h0 : Kept a0 s) : Kept a0 (State.viaTaken op c s) := by
  unfold State.viaTaken
  repeat' first | (with_reducible first | assumption | apply State.onTow_kept | apply State.putWindow_kept) | split

theorem State.towArrive_kept {a0 : State} (op : BitVec 8) (take : State → State) (ht : ∀ s, Kept a0 s → Kept a0 (take s)) (c : TowCmd) (s : State)
    (h0 : Kept a0 s) : Kept a0 (State.towArrive op take c s) := by
  unfold State.towArrive
  repeat' first
    | (with_reducible first
        | assumption | apply State.viaTaken_kept | apply State.onTow_kept | apply State.raise_kept | apply ht | apply kept_foldS | apply kept_ite)
    | split

theorem State.towRow_kept {a0 : State} (r : TowRow) (hr : RowKept r) (c : TowCmd) (s : State) (h0 : Kept a0 s) : Kept a0 (State.towRow r c s) :=
  State.towArrive_kept _ _ (fun t ht => State.towTake_kept r hr c t ht) _ _ h0

theorem State.towOk_kept {a0 : State} (id : Nat) (res : Word) (s : State) (h0 : Kept a0 s) : Kept a0 (State.towOk id res s) := by
  unfold State.towOk
  repeat' first | (with_reducible first | assumption | apply State.complete_kept) | split

/-! TowSession. -/

theorem rowNop_kept : RowKept rowNop := by
  intro a0 id c s h0
  dsimp only [rowNop, blockRow, sliceRow, culRow]
  repeat' first | (with_reducible first | assumption | apply State.towOk_kept) | split

theorem rowIdentify_kept : RowKept rowIdentify := by
  intro a0 id c s h0
  dsimp only [rowIdentify, blockRow, sliceRow, culRow]
  repeat' first | (with_reducible first | assumption | apply State.completePay_kept) | split

theorem State.freeHeld_kept {a0 : State} (h : Held) (s : State) (h0 : Kept a0 s) : Kept a0 (State.freeHeld h s) := by
  unfold State.freeHeld
  repeat' first | (with_reducible first | assumption | apply State.onTow_kept | apply State.putWindow_kept | apply kept_ite) | split

theorem State.tagQuery_kept {a0 : State} (id : Nat) (c : TowCmd) (s : State) (h0 : Kept a0 s) : Kept a0 (State.tagQuery id c s) := by
  unfold State.tagQuery
  repeat' first
    | (with_reducible first
        | assumption | apply State.complete_kept | apply State.towOk_kept | apply State.freeHeld_kept | apply kept_ite)
    | split

theorem rowTagQuery_kept : RowKept rowTagQuery := by
  intro a0 id c s h0
  dsimp only [rowTagQuery, blockRow, sliceRow, culRow]
  repeat' first | (with_reducible first | assumption | apply State.tagQuery_kept) | split

theorem State.transportReset_kept {a0 : State} (id : Nat) (c : TowCmd) (s : State) (h0 : Kept a0 s) : Kept a0 (State.transportReset id c s) := by
  unfold State.transportReset
  repeat' first | (with_reducible first | assumption | apply State.onTow_kept | apply State.towOk_kept | apply kept_ite) | split

theorem rowTransportReset_kept : RowKept rowTransportReset := by
  intro a0 id c s h0
  dsimp only [rowTransportReset, blockRow, sliceRow, culRow]
  repeat' first | (with_reducible first | assumption | apply State.transportReset_kept) | split

theorem State.towRegRead_kept {a0 : State} (id : Nat) (c : TowCmd) (s : State) (h0 : Kept a0 s) : Kept a0 (State.towRegRead id c s) := by
  unfold State.towRegRead
  repeat' first | (with_reducible first | assumption | apply State.regRead_kept | apply State.towOk_kept) | split

theorem rowRegRead_kept : RowKept rowRegRead := by
  intro a0 id c s h0
  dsimp only [rowRegRead, blockRow, sliceRow, culRow]
  repeat' first | (with_reducible first | assumption | apply State.towRegRead_kept) | split

theorem State.towRegWrite_kept {a0 : State} (id : Nat) (c : TowCmd) (s : State) (h0 : Kept a0 s) : Kept a0 (State.towRegWrite id c s) := by
  unfold State.towRegWrite
  repeat' first | (with_reducible first | assumption | apply State.complete_kept | apply State.regWrite_kept) | split

theorem rowRegWrite_kept : RowKept rowRegWrite := by
  intro a0 id c s h0
  dsimp only [rowRegWrite, blockRow, sliceRow, culRow]
  repeat' first | (with_reducible first | assumption | apply State.towRegWrite_kept) | split

theorem State.regReads_kept {a0 : State}  (n m : Nat) (s : State) (h0 : Kept a0 s) : Kept a0 (State.regReads n m s).2 := by
  induction n generalizing s m with
  | zero => exact h0
  | succ n ih =>
    unfold State.regReads
    repeat' first | (with_reducible first | assumption | apply ih | apply State.regRead_kept) | split

theorem State.towRegReadBlock_kept {a0 : State} (id : Nat) (c : TowCmd) (s : State) (h0 : Kept a0 s) : Kept a0 (State.towRegReadBlock id c s) := by
  unfold State.towRegReadBlock
  repeat' first | (with_reducible first | assumption | apply State.completePay_kept | apply State.regReads_kept) | split

theorem rowRegReadBlock_kept : RowKept rowRegReadBlock := by
  intro a0 id c s h0
  dsimp only [rowRegReadBlock, blockRow, sliceRow, culRow]
  repeat' first | (with_reducible first | assumption | apply State.towRegReadBlock_kept) | split

theorem State.towRegWriteMasked_kept {a0 : State} (id : Nat) (c : TowCmd) (s : State) (h0 : Kept a0 s) :
    Kept a0 (State.towRegWriteMasked id c s) := by
  unfold State.towRegWriteMasked
  repeat' first | (with_reducible first | assumption | apply State.complete_kept | apply State.regMask_kept) | split

theorem rowRegWriteMasked_kept : RowKept rowRegWriteMasked := by
  intro a0 id c s h0
  dsimp only [rowRegWriteMasked, blockRow, sliceRow, culRow]
  repeat' first | (with_reducible first | assumption | apply State.towRegWriteMasked_kept) | split

/-! TowDomain. -/

theorem State.loadPairs_kept {a0 : State} (l : List Word) (n : Nat) (r : Bool) (s : State) (h0 : Kept a0 s) :
    Kept a0 (State.loadPairs l n r s).2.2.2 := by
  fun_induction State.loadPairs l n r s with
  | case1 => exact h0
  | case2 o v l n r s h q s1 hq ih =>
    have k := State.regWrite_kept (bits o 23 0) v s h0
    rw [hq] at k
    exact ih k
  | case3 => exact h0

theorem State.charterLoad_kept {a0 : State} (id : Nat) (c : TowCmd) (s : State) (h0 : Kept a0 s) : Kept a0 (State.charterLoad id c s) := by
  unfold State.charterLoad
  repeat' first
    | (with_reducible first
        | assumption | apply State.complete_kept | apply State.loadPairs_kept)
    | intro _ _ _ | extract_lets | split | (simp only [kept_mk]; with_reducible refine Kept.fold ?_) | exact fun o => State.tgt_ok _ o
    | (rename_i hq; first | obtain rfl := congrArg Prod.snd hq | obtain rfl := congrArg (fun x => x.2.2.2) hq)
    | dsimp +zetaDelta only

theorem rowCharterLoad_kept : RowKept rowCharterLoad := by
  intro a0 id c s h0
  dsimp only [rowCharterLoad, blockRow, sliceRow, culRow]
  repeat' first | (with_reducible first | assumption | apply State.charterLoad_kept) | split

theorem State.towCharterCheck_kept {a0 : State} (id : Nat) (c : TowCmd) (s : State) (h0 : Kept a0 s) : Kept a0 (State.towCharterCheck id c s) := by
  unfold State.towCharterCheck
  repeat' first | (with_reducible first | assumption | apply State.complete_kept | apply kept_ite) | split

theorem rowCharterCheck_kept : RowKept rowCharterCheck := by
  intro a0 id c s h0
  dsimp only [rowCharterCheck, blockRow, sliceRow, culRow]
  repeat' first | (with_reducible first | assumption | apply State.towCharterCheck_kept) | split

theorem rowCharterCommit_kept : RowKept rowCharterCommit := by
  intro a0 id c s h0
  dsimp only [rowCharterCommit, blockRow, sliceRow, culRow]
  repeat' first | (with_reducible first | assumption | apply State.charterCommit_kept) | split

theorem rowCharterRelease_kept : RowKept rowCharterRelease := by
  intro a0 id c s h0
  dsimp only [rowCharterRelease, blockRow, sliceRow, culRow]
  repeat' first | (with_reducible first | assumption | apply State.charterRelease_kept | apply State.towOk_kept) | split

theorem rowDiscover_kept : RowKept rowDiscover := by
  intro a0 id c s h0
  dsimp only [rowDiscover, blockRow, sliceRow, culRow]
  repeat' first | (with_reducible first | assumption | apply State.discover_kept) | split

theorem rowGenAdvance_kept : RowKept rowGenAdvance := by
  intro a0 id c s h0
  dsimp only [rowGenAdvance, blockRow, sliceRow, culRow]
  repeat' first | (with_reducible first | assumption | apply State.genAdvance_kept | apply State.towOk_kept) | split

theorem rowServiceEnter_kept : RowKept rowServiceEnter := by
  intro a0 id c s h0
  dsimp only [rowServiceEnter, blockRow, sliceRow, culRow]
  repeat' first | (with_reducible first | assumption | apply State.serviceEnter_kept | apply State.towOk_kept | apply kept_ite) | split

theorem rowAgentAdmit_kept : RowKept rowAgentAdmit := by
  intro a0 id c s h0
  dsimp only [rowAgentAdmit, blockRow, sliceRow, culRow]
  repeat' first | (with_reducible first | assumption | apply State.agentAdmit_kept) | split

theorem rowAgentRetire_kept : RowKept rowAgentRetire := by
  intro a0 id c s h0
  dsimp only [rowAgentRetire, blockRow, sliceRow, culRow]
  repeat' first | (with_reducible first | assumption | apply State.agentRetire_kept) | split

theorem rowSlicePower_kept : RowKept rowSlicePower := by
  intro a0 id c s h0
  dsimp only [rowSlicePower, blockRow, sliceRow, culRow]
  repeat' first | (with_reducible first | assumption | apply State.slicePower_kept) | split

theorem rowSliceSpare_kept : RowKept rowSliceSpare := by
  intro a0 id c s h0
  dsimp only [rowSliceSpare, blockRow, sliceRow, culRow]
  repeat' first | (with_reducible first | assumption | apply State.sliceSpare_kept | apply State.towOk_kept) | split

theorem rowSliceServe_kept : RowKept rowSliceServe := by
  intro a0 id c s h0
  dsimp only [rowSliceServe, blockRow, sliceRow, culRow]
  repeat' first | (with_reducible first | assumption | apply State.sliceServe_kept) | split

theorem rowSliceDrain_kept : RowKept rowSliceDrain := by
  intro a0 id c s h0
  dsimp only [rowSliceDrain, blockRow, sliceRow, culRow]
  repeat' first | (with_reducible first | assumption | apply State.sliceDrain_kept) | split

theorem rowSliceSwap_kept : RowKept rowSliceSwap := by
  intro a0 id c s h0
  dsimp only [rowSliceSwap, blockRow, sliceRow, culRow]
  repeat' first | (with_reducible first | assumption | apply State.sliceSwap_kept) | split

theorem State.sliceFailover_kept {a0 : State} (id : Nat) (c : TowCmd) (s : State) (h0 : Kept a0 s) : Kept a0 (State.sliceFailover id c s) := by
  unfold State.sliceFailover
  repeat' first | (with_reducible first | assumption | apply State.onCore_kept | apply State.towOk_kept | apply kept_ite) | split

theorem rowSliceFailover_kept : RowKept rowSliceFailover := by
  intro a0 id c s h0
  dsimp only [rowSliceFailover, blockRow, sliceRow, culRow]
  repeat' first | (with_reducible first | assumption | apply State.sliceFailover_kept) | split

theorem State.towLsRebuild_kept {a0 : State} (id : Nat) (c : TowCmd) (s : State) (h0 : Kept a0 s) : Kept a0 (State.towLsRebuild id c s) := by
  unfold State.towLsRebuild
  repeat' first | (with_reducible first | assumption | apply State.lsRebuild_kept | apply State.towOk_kept) | split

theorem rowLsRebuild_kept : RowKept rowLsRebuild := by
  intro a0 id c s h0
  dsimp only [rowLsRebuild, blockRow, sliceRow, culRow]
  repeat' first | (with_reducible first | assumption | apply State.towLsRebuild_kept) | split

/-! TowImage. -/

theorem State.mcLoadOpen_kept {a0 : State} (id : Nat) (c : TowCmd) (s : State) (h0 : Kept a0 s) : Kept a0 (State.mcLoadOpen id c s) := by
  unfold State.mcLoadOpen
  repeat' first | (with_reducible first | assumption | apply State.loadOpen_kept | apply State.towOk_kept) | split

theorem rowMcLoadOpen_kept : RowKept rowMcLoadOpen := by
  intro a0 id c s h0
  dsimp only [rowMcLoadOpen, blockRow, sliceRow, culRow]
  repeat' first | (with_reducible first | assumption | apply State.mcLoadOpen_kept) | split

theorem State.mcLoadData_kept {a0 : State} (id : Nat) (c : TowCmd) (s : State) (h0 : Kept a0 s) : Kept a0 (State.mcLoadData id c s) := by
  unfold State.mcLoadData
  repeat' first | (with_reducible first | assumption | apply State.loadData_kept | apply State.towOk_kept) | split

theorem rowMcLoadData_kept : RowKept rowMcLoadData := by
  intro a0 id c s h0
  dsimp only [rowMcLoadData, blockRow, sliceRow, culRow]
  repeat' first | (with_reducible first | assumption | apply State.mcLoadData_kept) | split

theorem State.mcLoadClose_kept {a0 : State} (id : Nat) (c : TowCmd) (s : State) (h0 : Kept a0 s) : Kept a0 (State.mcLoadClose id c s) := by
  unfold State.mcLoadClose
  repeat' first | (with_reducible first | assumption | apply State.completeFree_kept | apply State.loadClose_kept) | split

theorem rowMcLoadClose_kept : RowKept rowMcLoadClose := by
  intro a0 id c s h0
  dsimp only [rowMcLoadClose, blockRow, sliceRow, culRow]
  repeat' first | (with_reducible first | assumption | apply State.mcLoadClose_kept) | split

theorem rowMcActivate_kept : RowKept rowMcActivate := by
  intro a0 id c s h0
  dsimp only [rowMcActivate, blockRow, sliceRow, culRow]
  repeat' first | (with_reducible first | assumption | apply State.galActivate_kept) | split

theorem rowMcProofStart_kept : RowKept rowMcProofStart := by
  intro a0 id c s h0
  dsimp only [rowMcProofStart, blockRow, sliceRow, culRow]
  repeat' first | (with_reducible first | assumption | apply State.galProof_kept | apply State.towOk_kept) | split

theorem rowMcProofEnd_kept : RowKept rowMcProofEnd := by
  intro a0 id c s h0
  dsimp only [rowMcProofEnd, blockRow, sliceRow, culRow]
  repeat' first | (with_reducible first | assumption | apply State.onGal_kept) | split

theorem State.proofEntry_kept {a0 : State} (p i : Nat) (s : State) (h0 : Kept a0 s) : Kept a0 (State.proofEntry p i s).2 := by
  unfold State.proofEntry
  repeat' first | (with_reducible first | assumption | apply State.freeWord_kept) | split

theorem State.proofEntries_kept {a0 : State} (p : Nat) (n m : Nat) (s : State) (h0 : Kept a0 s) : Kept a0 (State.proofEntries p n m s).2 := by
  induction n generalizing s m with
  | zero => exact h0
  | succ n ih =>
    unfold State.proofEntries
    repeat' first | (with_reducible first | assumption | apply ih | apply State.proofEntry_kept) | split

theorem State.mcProofLogRead_kept {a0 : State} (id : Nat) (c : TowCmd) (s : State) (h0 : Kept a0 s) : Kept a0 (State.mcProofLogRead id c s) := by
  unfold State.mcProofLogRead
  repeat' first | (with_reducible first | assumption | apply State.completePay_kept | apply State.proofEntries_kept) | split

theorem rowMcProofLogRead_kept : RowKept rowMcProofLogRead := by
  intro a0 id c s h0
  dsimp only [rowMcProofLogRead, blockRow, sliceRow, culRow]
  repeat' first | (with_reducible first | assumption | apply State.mcProofLogRead_kept) | split

theorem rowMcDiscard_kept : RowKept rowMcDiscard := by
  intro a0 id c s h0
  dsimp only [rowMcDiscard, blockRow, sliceRow, culRow]
  repeat' first | (with_reducible first | assumption | apply State.onSlice_kept | apply State.towOk_kept) | split

theorem rowLkOverlay_kept : RowKept rowLkOverlay := by
  intro a0 id c s h0
  dsimp only [rowLkOverlay, blockRow, sliceRow, culRow]
  repeat' first | (with_reducible first | assumption | apply State.overlayStart_kept) | split

/-! TowMaint. -/

theorem rowDirDump_kept : RowKept rowDirDump := by
  intro a0 id c s h0
  dsimp only [rowDirDump, blockRow, sliceRow, culRow]
  repeat' first | (with_reducible first | assumption | apply State.dirDump_kept) | split

theorem rowDirRebuild_kept : RowKept rowDirRebuild := by
  intro a0 id c s h0
  dsimp only [rowDirRebuild, blockRow, sliceRow, culRow]
  repeat' first | (with_reducible first | assumption | apply State.dirRebuild_kept) | split

theorem rowLarderRead_kept : RowKept rowLarderRead := by
  intro a0 id c s h0
  dsimp only [rowLarderRead, blockRow, sliceRow, culRow]
  repeat' first | (with_reducible first | assumption | apply State.larderRead_kept) | split

theorem State.towMaintAddr_kept {a0 : State} (id : Nat) (c : TowCmd) (s : State) (h0 : Kept a0 s) : Kept a0 (State.towMaintAddr id c s) := by
  unfold State.towMaintAddr
  repeat' first | (with_reducible first | assumption | apply State.maintAddr_kept) | split

theorem rowMaintAddr_kept : RowKept rowMaintAddr := by
  intro a0 id c s h0
  dsimp only [rowMaintAddr, blockRow, sliceRow, culRow]
  repeat' first | (with_reducible first | assumption | apply State.towMaintAddr_kept) | split

theorem State.towMaintEntry_kept {a0 : State} (id : Nat) (c : TowCmd) (s : State) (h0 : Kept a0 s) : Kept a0 (State.towMaintEntry id c s) := by
  unfold State.towMaintEntry
  repeat' first | (with_reducible first | assumption | apply State.maintEntry_kept) | split

theorem rowMaintEntry_kept : RowKept rowMaintEntry := by
  intro a0 id c s h0
  dsimp only [rowMaintEntry, blockRow, sliceRow, culRow]
  repeat' first | (with_reducible first | assumption | apply State.towMaintEntry_kept) | split

theorem rowCulRetrain_kept : RowKept rowCulRetrain := by
  intro a0 id c s h0
  dsimp only [rowCulRetrain, blockRow, sliceRow, culRow]
  repeat' first | (with_reducible first | assumption | apply State.culRetrain_kept) | split

theorem rowCulSpare_kept : RowKept rowCulSpare := by
  intro a0 id c s h0
  dsimp only [rowCulSpare, blockRow, sliceRow, culRow]
  repeat' first | (with_reducible first | assumption | apply State.culSpare_kept) | split

theorem rowCulRouteReturn_kept : RowKept rowCulRouteReturn := by
  intro a0 id c s h0
  dsimp only [rowCulRouteReturn, blockRow, sliceRow, culRow]
  repeat' first | (with_reducible first | assumption | apply State.routeReturn_kept) | split

theorem rowCulStatus_kept : RowKept rowCulStatus := by
  intro a0 id c s h0
  dsimp only [rowCulStatus, blockRow, sliceRow, culRow]
  repeat' first | (with_reducible first | assumption | apply State.completePay_kept) | split

/-! TowPower. -/

theorem State.towPwrTrim_kept {a0 : State} (id : Nat) (c : TowCmd) (s : State) (h0 : Kept a0 s) : Kept a0 (State.towPwrTrim id c s) := by
  unfold State.towPwrTrim
  repeat' first | (with_reducible first | assumption | apply State.pwrTrim_kept | apply State.towOk_kept | apply kept_ite) | split

theorem rowPwrTrim_kept : RowKept rowPwrTrim := by
  intro a0 id c s h0
  dsimp only [rowPwrTrim, blockRow, sliceRow, culRow]
  repeat' first | (with_reducible first | assumption | apply State.towPwrTrim_kept) | split

theorem rowPwrIdle_kept : RowKept rowPwrIdle := by
  intro a0 id c s h0
  dsimp only [rowPwrIdle, blockRow, sliceRow, culRow]
  repeat' first | (with_reducible first | assumption | apply State.pwrIdle_kept) | split

theorem rowPwrDeep_kept : RowKept rowPwrDeep := by
  intro a0 id c s h0
  dsimp only [rowPwrDeep, blockRow, sliceRow, culRow]
  repeat' first | (with_reducible first | assumption | apply State.pwrDeep_kept) | split

theorem rowPwrHalf_kept : RowKept rowPwrHalf := by
  intro a0 id c s h0
  dsimp only [rowPwrHalf, blockRow, sliceRow, culRow]
  repeat' first | (with_reducible first | assumption | apply State.pwrHalf_kept) | split

theorem State.pfRelease_kept {a0 : State} (s : State) (h0 : Kept a0 s) : Kept a0 (State.pfRelease s) := by
  unfold State.pfRelease
  repeat' first
    | (with_reducible first
        | assumption | apply State.onCore_kept | apply State.marker_kept | apply State.arriveAll_kept | apply State.culLate_kept)
    | split

theorem State.towPfRelease_kept {a0 : State} (id : Nat) (c : TowCmd) (s : State) (h0 : Kept a0 s) : Kept a0 (State.towPfRelease id c s) := by
  unfold State.towPfRelease
  repeat' first | (with_reducible first | assumption | apply State.towOk_kept | apply State.pfRelease_kept) | split

theorem rowPfRelease_kept : RowKept rowPfRelease := by
  intro a0 id c s h0
  dsimp only [rowPfRelease, blockRow, sliceRow, culRow]
  repeat' first | (with_reducible first | assumption | apply State.towPfRelease_kept) | split

theorem State.towPortPower_kept {a0 : State} (id : Nat) (c : TowCmd) (s : State) (h0 : Kept a0 s) : Kept a0 (State.towPortPower id c s) := by
  unfold State.towPortPower
  repeat' first | (with_reducible first | assumption | apply State.portPower_kept | apply State.towOk_kept | apply kept_ite) | split

theorem rowPortPower_kept : RowKept rowPortPower := by
  intro a0 id c s h0
  dsimp only [rowPortPower, blockRow, sliceRow, culRow]
  repeat' first | (with_reducible first | assumption | apply State.towPortPower_kept | apply kept_ite) | split

theorem rowCntRead_kept : RowKept rowCntRead := by
  intro a0 id c s h0
  dsimp only [rowCntRead, blockRow, sliceRow, culRow]
  repeat' first | (with_reducible first | assumption | apply State.completePay_kept) | split

theorem rowLogbookRead_kept : RowKept rowLogbookRead := by
  intro a0 id c s h0
  dsimp only [rowLogbookRead, blockRow, sliceRow, culRow]
  repeat' first | (with_reducible first | assumption | apply State.completePay_kept) | split

theorem State.dumpNow_kept {a0 : State} (id : Nat) (s : State) (h0 : Kept a0 s) : Kept a0 (State.dumpNow id s) := by
  unfold State.dumpNow
  repeat' first | (with_reducible first | assumption | apply State.onWatch_kept | apply State.dumpStart_kept) | split

theorem rowDumpNow_kept : RowKept rowDumpNow := by
  intro a0 id c s h0
  dsimp only [rowDumpNow, blockRow, sliceRow, culRow]
  repeat' first | (with_reducible first | assumption | apply State.dumpNow_kept) | split

theorem State.logRead_kept {a0 : State} (id : Nat) (c : TowCmd) (s : State) (h0 : Kept a0 s) : Kept a0 (State.logRead id c s) := by
  unfold State.logRead
  repeat' first | (with_reducible first | assumption | apply State.onCore_kept | apply State.complete_kept | apply kept_ite) | split

theorem rowLogRead_kept : RowKept rowLogRead := by
  intro a0 id c s h0
  dsimp only [rowLogRead, blockRow, sliceRow, culRow]
  repeat' first | (with_reducible first | assumption | apply State.logRead_kept) | split

theorem State.fltInject_kept {a0 : State} (id : Nat) (c : TowCmd) (s : State) (h0 : Kept a0 s) : Kept a0 (State.fltInject id c s) := by
  unfold State.fltInject
  repeat' first | (with_reducible first | assumption | apply State.onCore_kept | apply State.freeWord_kept | apply State.towOk_kept) | split

theorem rowFltInject_kept : RowKept rowFltInject := by
  intro a0 id c s h0
  dsimp only [rowFltInject, blockRow, sliceRow, culRow]
  repeat' first | (with_reducible first | assumption | apply State.fltInject_kept | apply kept_ite) | split

theorem rowSealBlock_kept : RowKept rowSealBlock := by
  intro a0 id c s h0
  dsimp only [rowSealBlock, blockRow, sliceRow, culRow]
  repeat' first | (with_reducible first | assumption | apply State.onCore_kept | apply State.towOk_kept) | split

/-! TowPort. -/

theorem rowLow_kept {o : Nat} {r : TowRow} (h : rowLow o = some r) : RowKept r := by
  unfold rowLow at h
  split at h <;> first
    | cases h; done
    | (injection h with h
       subst h
       with_reducible first
         | exact rowNop_kept | exact rowIdentify_kept | exact rowTagQuery_kept | exact rowTransportReset_kept
         | exact rowRegRead_kept | exact rowRegWrite_kept | exact rowRegReadBlock_kept | exact rowRegWriteMasked_kept
         | exact rowCharterLoad_kept | exact rowCharterCheck_kept | exact rowCharterCommit_kept | exact rowCharterRelease_kept
         | exact rowDiscover_kept | exact rowGenAdvance_kept | exact rowServiceEnter_kept | exact rowAgentAdmit_kept
         | exact rowAgentRetire_kept | exact rowSlicePower_kept | exact rowSliceSpare_kept | exact rowSliceServe_kept
         | exact rowSliceDrain_kept | exact rowSliceSwap_kept | exact rowSliceFailover_kept | exact rowLsRebuild_kept)

theorem rowHigh_kept {o : Nat} {r : TowRow} (h : rowHigh o = some r) : RowKept r := by
  unfold rowHigh at h
  split at h <;> first
    | cases h; done
    | (injection h with h
       subst h
       with_reducible first
         | exact rowMcLoadOpen_kept | exact rowMcLoadData_kept | exact rowMcLoadClose_kept | exact rowMcActivate_kept
         | exact rowMcProofStart_kept | exact rowMcProofEnd_kept | exact rowMcProofLogRead_kept | exact rowMcDiscard_kept
         | exact rowLkOverlay_kept | exact rowDirDump_kept | exact rowDirRebuild_kept | exact rowLarderRead_kept
         | exact rowMaintAddr_kept | exact rowMaintEntry_kept | exact rowCulRetrain_kept | exact rowCulSpare_kept
         | exact rowCulRouteReturn_kept | exact rowCulStatus_kept | exact rowPwrTrim_kept | exact rowPwrIdle_kept
         | exact rowPwrDeep_kept | exact rowPwrHalf_kept | exact rowPfRelease_kept | exact rowPortPower_kept
         | exact rowCntRead_kept | exact rowLogbookRead_kept | exact rowDumpNow_kept | exact rowLogRead_kept
         | exact rowFltInject_kept | exact rowSealBlock_kept)

theorem rowOf_kept {op : BitVec 8} {r : TowRow} (h : rowOf op = some r) : RowKept r := by
  unfold rowOf at h
  split at h
  · exact rowLow_kept h
  · exact rowHigh_kept h

theorem State.towTakeOp_kept {a0 : State} (op : BitVec 8) (c : TowCmd) (s : State) (h0 : Kept a0 s) : Kept a0 (State.towTakeOp op c s) := by
  unfold State.towTakeOp
  split
  · rename_i r hr
    exact State.towTake_kept r (rowOf_kept hr) c s h0
  · exact State.towUnknown_kept _ _ _ h0

theorem State.towPacket_kept {a0 : State} (op : BitVec 8) (c : TowCmd) (s : State) (h0 : Kept a0 s) : Kept a0 (State.towPacket op c s) :=
  State.towArrive_kept _ _ (fun t ht => State.towTakeOp_kept op c t ht) _ _ h0

theorem State.towResume_kept {a0 : State} (s : State) (h0 : Kept a0 s) : Kept a0 (State.towResume s) := by
  unfold State.towResume
  repeat' first | (with_reducible first | assumption | apply State.onTow_kept | apply State.towTakeOp_kept) | split

theorem State.cmdCredit_kept {a0 : State} (n : Nat) (s : State) (h0 : Kept a0 s) : Kept a0 (State.cmdCredit n s) := State.onCore_kept _ s h0

theorem State.streamPacket_kept {a0 : State} (l : List Word) (s : State) (h0 : Kept a0 s) : Kept a0 (State.streamPacket l s) := by
  unfold State.streamPacket
  repeat' first
    | (with_reducible first
        | assumption | apply State.raise_kept | apply State.towError_kept | apply State.towPacket_kept | apply State.cmdCredit_kept | apply kept_ite)
    | split

theorem State.ring_kept {a0 : State} (w : Fin 8) (s : State) (h0 : Kept a0 s) : Kept a0 (State.ring w s) := by
  unfold State.ring
  repeat' first | (with_reducible first | assumption | apply State.towPacket_kept) | split

theorem State.wireBad_kept {a0 : State} (l : List (BitVec 8)) (s : State) (h0 : Kept a0 s) : Kept a0 (State.wireBad l s) := by
  unfold State.wireBad
  repeat' first
    | (with_reducible first
        | assumption | apply State.raise_kept | apply State.onTow_kept | apply State.freeWord_kept | apply State.towError_kept | apply kept_ite)
    | split

theorem State.wireWrite_kept {a0 : State} (l : List (BitVec 8)) (s : State) (h0 : Kept a0 s) : Kept a0 (State.wireWrite l s) := by
  unfold State.wireWrite
  repeat' first | (with_reducible first | assumption | apply State.towPacket_kept | apply State.wireBad_kept | apply kept_ite) | split

theorem State.wireRead_kept {a0 : State} (n : Nat) (s : State) (h0 : Kept a0 s) : Kept a0 (State.wireRead n s) := by
  unfold State.wireRead
  repeat' first | (with_reducible first | assumption | apply State.onTow_kept | apply State.wireOut_kept | apply kept_ite) | split

theorem State.wireTimeout_kept {a0 : State} (s : State) (h0 : Kept a0 s) : Kept a0 (State.wireTimeout s) := by
  unfold State.wireTimeout
  repeat' first | (with_reducible first | assumption | apply State.onTow_kept | apply State.wireOut_kept | apply State.wireRead_kept) | split

theorem State.mmioRead_kept {a0 : State} (o : Nat) (s : State) (h0 : Kept a0 s) : Kept a0 (State.mmioRead o s).2 := by
  unfold State.mmioRead
  repeat' first | (with_reducible first | assumption | apply State.regRead_kept | apply kept_ite) | split

theorem State.mmioWrite_kept {a0 : State} (o : Nat) (v : Word) (s : State) (h0 : Kept a0 s) : Kept a0 (State.mmioWrite o v s) := by
  unfold State.mmioWrite
  repeat' first
    | (with_reducible first
        | assumption | apply State.putWindow_kept | apply State.regWrite_kept | apply State.ring_kept | apply kept_ite)
    | split

theorem State.mmio_kept {a0 : State} (f : Fin 4) (write : Bool) (size : BitVec 2) (off : BitVec 16) (v : Word) (id : BitVec 8) (s : State) (h0 : Kept a0 s) :
    Kept a0 (State.mmio f write size off v id s) := by
  unfold State.mmio
  repeat' first
    | (with_reducible first
        | assumption | apply State.onCore_kept | apply State.mmioRead_kept | apply State.mmioWrite_kept | apply kept_ite)
    | split

/-! Finish. -/

theorem State.culService_kept {a0 : State} (c : CulMsg) (s : State) (h0 : Kept a0 s) : OptKept a0 (State.culService c s) := by
  unfold State.culService
  repeat' first
    | (with_reducible first
        | assumption | apply State.takeFenceAck_kept | apply State.takeFence_kept | apply State.takeSalvage_kept | apply State.takeCommitAll_kept
        | apply State.takeCommitAck_kept | apply State.takeCommitGo_kept | apply State.takeCommitReport_kept | apply optKept_some
        | apply optKept_ite | apply kept_ite)
    | split | exact optKept_none

theorem State.culRecv_kept {a0 : State} (n : Nat) (c : CulMsg) (s : State) (h0 : Kept a0 s) : Kept a0 (State.culRecv n c s) := by
  unfold State.culRecv
  repeat' first
    | (with_reducible first
        | assumption | apply State.culService_kept | apply State.onCore_kept | apply State.raise_kept | apply State.culTransit_kept
        | apply State.takeHello_kept | (refine OptKept.elim (State.culService_kept _ _ ?_) (by assumption)) | apply kept_ite)
    | split

theorem State.doUp_kept {a0 : State} (u : Up) (s : State) (h0 : Kept a0 s) : Kept a0 (State.doUp u s) := by
  unfold State.doUp
  repeat' first
    | (with_reducible first
        | assumption | apply State.dumpLine_kept | apply State.offer_kept | apply State.complete_kept | apply State.galMode_kept
        | apply State.galSends_kept | apply State.culSealed_kept | apply State.culBlockSealed_kept | apply State.workOn_kept
        | apply State.overlayRead_kept | apply kept_ite)
    | split

theorem State.moveOut_kept {a0 : State} (s : State) (h0 : Kept a0 s) : Kept a0 (State.moveOut s) := by
  unfold State.moveOut
  repeat' first | (with_reducible first | assumption | apply State.onCore_kept | apply State.culRoute_kept | apply kept_foldS) | split

theorem State.moveUp_kept {a0 : State} (s : State) (h0 : Kept a0 s) : Kept a0 (State.moveUp s) := by
  unfold State.moveUp
  repeat' first | (with_reducible first | assumption | apply State.onCore_kept | apply State.doUp_kept | apply kept_foldS) | split

theorem State.takeIn_kept {a0 : State} (n : Nat) (c : CulMsg) (s : State) (h0 : Kept a0 s) : Kept a0 (State.takeIn n c s) := by
  unfold State.takeIn
  repeat' first
    | (with_reducible first
        | assumption | apply State.onCul_kept | apply State.cellsFree_kept | apply State.culRecv_kept | apply kept_ite)
    | split

theorem State.moveIn_kept {a0 : State} (s : State) (h0 : Kept a0 s) : Kept a0 (State.moveIn s) := by
  unfold State.moveIn
  repeat' first
    | (with_reducible first
        | assumption | apply State.onCul_kept | apply State.takeIn_kept | apply kept_foldS)
    | intro _ _ _ | split

theorem State.unpark_kept {a0 : State} (s : State) (h0 : Kept a0 s) : Kept a0 (State.unpark s) := by
  unfold State.unpark
  repeat' first
    | (with_reducible first
        | assumption | apply State.onCul_kept | apply State.cellsFree_kept | apply kept_foldS)
    | intro _ _ _ | split

theorem State.pump_kept {a0 : State}  (n : Nat) (s : State) (h0 : Kept a0 s) : Kept a0 (State.pump n s) := by
  induction n generalizing s with
  | zero => exact h0
  | succ n ih =>
    unfold State.pump
    repeat' first
    | (with_reducible first
        | assumption | apply ih | apply State.onCore_kept | apply State.moveOut_kept | apply State.moveUp_kept | apply State.moveIn_kept
        | apply kept_ite)
    | split

theorem State.dumpReconcile_kept {a0 : State} (s : State) (h0 : Kept a0 s) : Kept a0 (State.dumpReconcile s) := by
  unfold State.dumpReconcile
  repeat' first
    | (with_reducible first
        | assumption | apply State.onWatch_kept | apply State.complete_kept | apply State.completeFree_kept | apply kept_foldS | apply kept_ite)
    | intro _ _ _ | split

theorem State.reconcile_kept {a0 : State} (s : State) (h0 : Kept a0 s) : Kept a0 (State.reconcile s) := by
  unfold State.reconcile
  repeat' first
    | (with_reducible first
        | assumption | apply State.galReconcile_kept | apply State.loadReconcile_kept | apply State.fenceReconcile_kept
        | apply State.leaveReconcile_kept | apply State.workPump_kept | apply State.gateReconcile_kept | apply State.deepReconcile_kept
        | apply State.interrogReconcile_kept | apply State.drainReconcile_kept | apply State.admitReconcile_kept
        | apply State.retireReconcile_kept | apply State.overlayReconcile_kept | apply State.maintReconcile_kept
        | apply State.unpark_kept | apply State.dumpReconcile_kept | apply kept_foldS)
    | split

theorem State.resumeAll_kept {a0 : State}  (n : Nat) (s : State) (h0 : Kept a0 s) : Kept a0 (State.resumeAll n s) := by
  induction n generalizing s with
  | zero => exact h0
  | succ n ih =>
    unfold State.resumeAll
    repeat' first
    | (with_reducible first
        | assumption | apply ih | apply State.towResume_kept | apply State.pump_kept | apply kept_ite)
    | split

theorem State.goOn_kept {a0 : State} (s0 s : State) (h0 : Kept a0 s) : Kept a0 (State.goOn s0 s) := by
  unfold State.goOn
  repeat' first
    | (with_reducible first
        | assumption | apply State.pump_kept | apply State.reconcile_kept | apply State.resumeAll_kept)
    | split

theorem State.finish_kept {a0 : State} (s0 s : State) (h0 : Kept a0 s) : Kept a0 (State.finish s0 s) := by
  unfold State.finish
  repeat' first
    | (with_reducible first
        | assumption | apply State.irqCycle_kept | apply State.commitAll_kept | apply State.pump_kept | apply State.goOn_kept | apply kept_ite)
    | split

theorem State.upset_kept {a0 : State} (s : State) (h0 : Kept a0 s) : Kept a0 (State.upset s) := by
  unfold State.upset
  repeat' first
    | (with_reducible first
        | assumption | apply State.onCore_kept | apply State.raise_kept | apply State.freeWord_kept | apply kept_ite)
    | split

/-! Entry. -/

theorem State.readOut_kept {a0 : State} (o : Nat) (s : State) (h0 : Kept a0 s) : Kept a0 (State.readOut o s) := by
  unfold State.readOut
  repeat' first | (with_reducible first | assumption | apply State.onCore_kept | apply State.regRead_kept) | split

theorem State.writeAt_kept {a0 : State} (o : Nat) (v : Word) (s : State) (h0 : Kept a0 s) : Kept a0 (State.writeAt o v s) := by
  unfold State.writeAt
  repeat' first | (with_reducible first | assumption | apply State.regWrite_kept) | split

theorem State.writeGeneric_kept {a0 : State} (o : Nat) (v : Word) (s : State) (h0 : Kept a0 s) : Kept a0 (State.writeGeneric o v s) := by
  unfold State.writeGeneric
  repeat' first | (with_reducible first | assumption | apply State.writeAt_kept | apply kept_ite) | split

theorem State.culArrive_kept {a0 : State} (n : Fin 6) (c : CulMsg) (s : State) (h0 : Kept a0 s) : Kept a0 (State.culArrive n c s) := by
  unfold State.culArrive
  repeat' first | (with_reducible first | assumption | apply State.arrive_kept | apply State.culTransit_kept | apply kept_ite) | split

theorem State.transitIn_kept {a0 : State} (n : Fin 6) (hops : Fin 4) (dl : Bool) (op : BitVec 8) (h : Hdr) (d : Option Beats) (s : State) (h0 : Kept a0 s) :
    Kept a0 (State.transitIn n hops dl op h d s) := by
  unfold State.transitIn
  repeat' first | (with_reducible first | assumption | apply State.culTake_kept | apply kept_ite) | split

theorem State.powerFail_kept {a0 : State} (s : State) (h0 : Kept a0 s) : Kept a0 (State.powerFail s) := by
  unfold State.powerFail
  repeat' first
    | (with_reducible first
        | assumption | apply State.onCore_kept | apply State.marker_kept | apply State.galAbandon_kept | apply State.onPwr_kept | apply kept_foldS
        | apply kept_ite)
    | intro _ _ _ | split

theorem State.presence_kept {a0 : State} (l : BitVec 6) (up : Bool) (s : State) (h0 : Kept a0 s) : Kept a0 (State.presence l up s) := by
  unfold State.presence
  repeat' first | (with_reducible first | assumption | apply State.onCore_kept | apply kept_ite) | split

theorem State.extChange_kept {a0 : State} (i : Nat) (up : Bool) (s : State) (h0 : Kept a0 s) : Kept a0 (State.extChange i up s) :=
  State.onIrq_kept _ (fun o => ⟨o.1, o.2.1, o.2.2⟩) h0

theorem State.tickSlice_kept {a0 : State} (p : Nat) (s : State) (h0 : Kept a0 s) : Kept a0 (State.tickSlice p s) := by
  unfold State.tickSlice
  repeat' first
    | (with_reducible first
        | assumption | apply State.onCore_kept | apply State.onSlice_kept | apply State.galTick_kept | apply kept_ite)
    | split

theorem State.tickPort_kept {a0 : State} (u : Nat) (s : State) (h0 : Kept a0 s) : Kept a0 (State.tickPort u s) := by
  unfold State.tickPort
  repeat' first | (with_reducible first | assumption | apply State.onCore_kept | apply State.freeWord_kept | apply kept_ite) | split

theorem State.ageTick_kept {a0 : State} (s : State) (h0 : Kept a0 s) : Kept a0 (State.ageTick s) := by
  unfold State.ageTick
  repeat' first
    | (with_reducible first
        | assumption | apply State.onCore_kept | apply State.tickSlice_kept | apply State.tickPort_kept | apply kept_foldS | apply kept_ite)
    | split

/-! Outcomes. -/

theorem State.ended_kept {s t u : State} (k : Kept s t) (h : s.ended t = .next u) : Kept s u := by
  unfold State.ended at h
  cases h
  exact kept_ite (State.upset_kept _ k) k
theorem State.does_kept {f : State → State} (hf : ∀ a s, Kept a s → Kept a (f s)) {s t : State} (h : s.does f = .next t) : Kept s t :=
  State.ended_kept (State.finish_kept s (f s) (hf s s (Kept.refl s))) h
theorem State.writes_kept {f : State → State} (hf : ∀ a s, Kept a s → Kept a (f s)) {s t : State} (h : s.writes f = .next t) : Kept s t := by
  unfold State.writes at h
  split at h
  · exact State.does_kept (fun a s k => State.upset_kept _ (hf a s k)) h
  · exact State.does_kept hf h
theorem State.doesOn_kept {f : State → State} (hf : ∀ a s, Kept a s → Kept a (f s)) {s t : State} (h : s.doesOn f = .next t) : Kept s t := by
  unfold State.doesOn at h
  split at h
  · exact State.does_kept hf h
  · cases h
    exact Kept.refl s
theorem State.fabricArrive_kept {f : Fin 4} {a : Arrival} {s t : State} (h : s.fabricArrive f a = .next t) : Kept s t := by
  unfold State.fabricArrive at h
  split at h
  · exact State.does_kept (fun _ s => State.arrive_kept _ s) h
  · cases h
    exact Kept.refl s
theorem State.chipArrive_kept {n : Fin 6} {op : BitVec 8} {h : Hdr} {d : Option Beats} {s t : State} (e : s.chipArrive n op h d = .next t) :
    Kept s t :=
  State.doesOn_kept (fun _ s => State.culArrive_kept _ _ s) e
theorem State.requestIn_kept {op : BitVec 8} {src : Src} {h : Hdr} {s t : State} (e : s.requestIn op src h = .next t) : Kept s t := by
  unfold State.requestIn at e
  split at e
  · split at e
    · exact State.does_kept (fun _ s k => State.upset_kept _ (State.arrive_kept _ s k)) e
    · exact State.fabricArrive_kept e
  · exact State.chipArrive_kept e
theorem State.responseIn_kept {op : BitVec 8} {src : Src} {h : Hdr} {s t : State} (e : s.responseIn op src h = .next t) : Kept s t := by
  unfold State.responseIn at e
  split at e
  · exact State.fabricArrive_kept e
  · exact State.chipArrive_kept e
theorem State.dataIn_kept {op : BitVec 8} {src : Src} {h : Hdr} {d : Beats} {s t : State} (e : s.dataIn op src h d = .next t) : Kept s t := by
  unfold State.dataIn at e
  split at e
  · exact State.fabricArrive_kept e
  · exact State.chipArrive_kept e

end Sys2Proof.Machine
end

