-- ==== Sys2Proof/Laws/Maps.lean ====
section
/-!
SUPPORT. Sys2Proof/Laws/Maps.lean: every operation on a sparse array keeps its canonical form, and the arrays of the state after reset have it.
-/
namespace Sys2Proof.Machine

/-- Keys that rise from a bound rise from any lower one. -/
theorem mrising_low {α : Type} {a b : Nat} (h : a ≤ b) : ∀ {m : Map α}, mrising b m = true → mrising a m = true
  | [], _ => rfl
  | _ :: _, k => by
    simp only [mrising, Bool.and_eq_true, decide_eq_true_eq] at k ⊢
    exact ⟨Nat.le_trans h k.1, k.2⟩

theorem merase_rising {α : Type} (k : Nat) : ∀ {b : Nat} {m : Map α}, mrising b m = true → mrising b (merase m k) = true
  | _, [], h => h
  | b, (j, v) :: m, h => by
    simp only [mrising, Bool.and_eq_true, decide_eq_true_eq] at h
    unfold merase
    split
    · exact mrising_low (by omega) h.2
    · split <;> simp only [mrising, Bool.and_eq_true, decide_eq_true_eq]
      · exact h
      · exact ⟨h.1, merase_rising k h.2⟩

theorem mput_rising {α : Type} (k : Nat) (v : α) : ∀ {b : Nat} {m : Map α}, b ≤ k → mrising b m = true → mrising b (mput m k v) = true
  | b, [], hb, _ => by simp [mput, mrising, hb]
  | b, (j, u) :: m, hb, h => by
    simp only [mrising, Bool.and_eq_true, decide_eq_true_eq] at h
    unfold mput
    split
    · rename_i e
      subst e
      simp only [mrising, Bool.and_eq_true, decide_eq_true_eq]
      exact h
    · split <;> simp only [mrising, Bool.and_eq_true, decide_eq_true_eq]
      · exact ⟨hb, by omega, h.2⟩
      · exact ⟨h.1, mput_rising k v (by omega) h.2⟩

theorem merase_mem {α : Type} {e : Nat × α} (k : Nat) : ∀ {m : Map α}, e ∈ merase m k → e ∈ m
  | [], h => h
  | (j, v) :: m, h => by
    unfold merase at h
    split at h
    · exact List.mem_cons_of_mem _ h
    · split at h
      · exact h
      · rcases List.mem_cons.mp h with h | h
        · exact List.mem_cons.mpr (.inl h)
        · exact List.mem_cons_of_mem _ (merase_mem k h)

theorem mput_mem {α : Type} {e : Nat × α} (k : Nat) (v : α) : ∀ {m : Map α}, e ∈ mput m k v → e = (k, v) ∨ e ∈ m
  | [], h => .inl (List.mem_singleton.mp h)
  | (j, u) :: m, h => by
    unfold mput at h
    split at h
    · rcases List.mem_cons.mp h with h | h
      · exact .inl h
      · exact .inr (List.mem_cons_of_mem _ h)
    · split at h
      · exact (List.mem_cons.mp h)
      · rcases List.mem_cons.mp h with h | h
        · exact .inr (List.mem_cons.mpr (.inl h))
        · exact (mput_mem k v h).imp_right (List.mem_cons_of_mem _)

/-- Writing an entry keeps the canonical form. -/
theorem mset_wf {α : Type} [DecidableEq α] (d v : α) (k : Nat) {m : Map α} (h : Map.wf d m = true) : Map.wf d (mset d m k v) = true := by
  simp only [Map.wf, Bool.and_eq_true, List.all_eq_true, decide_eq_true_eq] at h ⊢
  unfold mset
  split
  · exact ⟨merase_rising k h.1, fun e he => h.2 e (merase_mem k he)⟩
  · rename_i n
    refine ⟨mput_rising k v (Nat.zero_le k) h.1, fun e he => ?_⟩
    rcases mput_mem k v he with rfl | he
    · exact n
    · exact h.2 e he

/-- The state after reset lists nothing in any of them. -/
theorem reset_maps : Map.wf 0 State.reset.watch.sram = true ∧ Map.wf Slice.reset State.reset.core.slices = true ∧ mrising 0 State.reset.core.regs = true ∧
    Map.wf 0 State.reset.core.flt.ring = true ∧ Map.wf Gal.reset State.reset.gals = true ∧ Map.wf CPort.reset State.reset.cul.ports = true :=
  ⟨rfl, rfl, rfl, rfl, rfl, rfl⟩

end Sys2Proof.Machine
end

