-- ==== Sys2Proof/Laws/Outcome.lean ====
section
/-!
SUPPORT. Sys2Proof/Laws/Outcome.lean: how a command's own effect becomes its outcome, one lemma for each shape of command.
-/
namespace Sys2Proof.Machine

theorem State.ended_next {s : State} (t : State) (h : s.tow.waiting = []) : s.ended t = .next t := by
  unfold State.ended
  simp [h]
theorem State.does_next {s : State} (f : State → State) (h : s.tow.waiting = []) : s.does f = .next (State.finish s (f s)) :=
  State.ended_next _ h
theorem State.doesOn_next {s : State} (f : State → State) (h : s.Able) : s.doesOn f = .next (State.finish s (f s)) := by
  unfold State.doesOn
  simp only [h.1, if_true]
  exact State.does_next f h.2
theorem State.doesOn_off {s : State} (f : State → State) (h : s.powered = false) : s.doesOn f = .next s := by
  unfold State.doesOn
  simp [h]
/-- INST_ID has not moved where no port was enabled, or where the instance number is the same. -/
theorem State.idMoved_unused {s : State} (t : State) (h : s.cul.used = false) : s.idMoved t = false := by
  unfold State.idMoved
  simp [h]
theorem State.idMoved_same {s t : State} (h : t.core.self = s.core.self) : s.idMoved t = false := by
  simp [State.idMoved, State.self, h]
theorem State.writes_next {s : State} (f : State → State) (h : s.tow.waiting = []) (k : s.idMoved (f s) = false) :
    s.writes f = .next (State.finish s (f s)) := by
  unfold State.writes
  simp only [k]
  exact State.does_next f h
theorem State.fabricArrive_next {s : State} {f : Fin 4} (a : Arrival) (h : s.fabOn f.val = true) (w : s.tow.waiting = []) :
    s.fabricArrive f a = .next (State.finish s (s.arrive a)) := by
  unfold State.fabricArrive
  simp only [h, if_true]
  exact State.does_next _ w
theorem State.chipArrive_next {s : State} (n : Fin 6) (op : BitVec 8) (h : Hdr) (d : Option Beats) (a : s.Able) :
    s.chipArrive n op h d = .next (State.finish s (State.culArrive n (culIn op h d) s)) :=
  State.doesOn_next _ a

end Sys2Proof.Machine
end

