-- ==== Sys2Proof/Laws/State.lean ====
section
/-!
SUPPORT. Sys2Proof/Laws/State.lean: what each update of one part of the state leaves in every part, one lemma for each field.
-/
namespace Sys2Proof.Machine

/-! State.onCore. -/

@[simp] theorem State.onCore_core (f : Core → Core) (s : State) : (State.onCore f s).core = f s.core := rfl
@[simp] theorem State.onCore_irq (f : Core → Core) (s : State) : (State.onCore f s).irq = s.irq := rfl
@[simp] theorem State.onCore_watch (f : Core → Core) (s : State) : (State.onCore f s).watch = s.watch := rfl
@[simp] theorem State.onCore_tow (f : Core → Core) (s : State) : (State.onCore f s).tow = s.tow := rfl
@[simp] theorem State.onCore_gals (f : Core → Core) (s : State) : (State.onCore f s).gals = s.gals := rfl
@[simp] theorem State.onCore_cul (f : Core → Core) (s : State) : (State.onCore f s).cul = s.cul := rfl
@[simp] theorem State.onCore_pwr (f : Core → Core) (s : State) : (State.onCore f s).pwr = s.pwr := rfl
@[simp] theorem State.onCore_start (f : Core → Core) (s : State) : (State.onCore f s).start = s.start := rfl
@[simp] theorem State.onCore_arrivals (f : Core → Core) (s : State) : (State.onCore f s).arrivals = s.arrivals := rfl
@[simp] theorem State.onCore_pending (f : Core → Core) (s : State) : (State.onCore f s).pending = s.pending := rfl

/-! State.onIrq. -/

@[simp] theorem State.onIrq_core (f : Irq → Irq) (s : State) : (State.onIrq f s).core = s.core := rfl
@[simp] theorem State.onIrq_irq (f : Irq → Irq) (s : State) : (State.onIrq f s).irq = f s.irq := rfl
@[simp] theorem State.onIrq_watch (f : Irq → Irq) (s : State) : (State.onIrq f s).watch = s.watch := rfl
@[simp] theorem State.onIrq_tow (f : Irq → Irq) (s : State) : (State.onIrq f s).tow = s.tow := rfl
@[simp] theorem State.onIrq_gals (f : Irq → Irq) (s : State) : (State.onIrq f s).gals = s.gals := rfl
@[simp] theorem State.onIrq_cul (f : Irq → Irq) (s : State) : (State.onIrq f s).cul = s.cul := rfl
@[simp] theorem State.onIrq_pwr (f : Irq → Irq) (s : State) : (State.onIrq f s).pwr = s.pwr := rfl
@[simp] theorem State.onIrq_start (f : Irq → Irq) (s : State) : (State.onIrq f s).start = s.start := rfl
@[simp] theorem State.onIrq_arrivals (f : Irq → Irq) (s : State) : (State.onIrq f s).arrivals = s.arrivals := rfl
@[simp] theorem State.onIrq_pending (f : Irq → Irq) (s : State) : (State.onIrq f s).pending = s.pending := rfl

/-! State.onWatch. -/

@[simp] theorem State.onWatch_core (f : Watch → Watch) (s : State) : (State.onWatch f s).core = s.core := rfl
@[simp] theorem State.onWatch_irq (f : Watch → Watch) (s : State) : (State.onWatch f s).irq = s.irq := rfl
@[simp] theorem State.onWatch_watch (f : Watch → Watch) (s : State) : (State.onWatch f s).watch = f s.watch := rfl
@[simp] theorem State.onWatch_tow (f : Watch → Watch) (s : State) : (State.onWatch f s).tow = s.tow := rfl
@[simp] theorem State.onWatch_gals (f : Watch → Watch) (s : State) : (State.onWatch f s).gals = s.gals := rfl
@[simp] theorem State.onWatch_cul (f : Watch → Watch) (s : State) : (State.onWatch f s).cul = s.cul := rfl
@[simp] theorem State.onWatch_pwr (f : Watch → Watch) (s : State) : (State.onWatch f s).pwr = s.pwr := rfl
@[simp] theorem State.onWatch_start (f : Watch → Watch) (s : State) : (State.onWatch f s).start = s.start := rfl
@[simp] theorem State.onWatch_arrivals (f : Watch → Watch) (s : State) : (State.onWatch f s).arrivals = s.arrivals := rfl
@[simp] theorem State.onWatch_pending (f : Watch → Watch) (s : State) : (State.onWatch f s).pending = s.pending := rfl

/-! State.onTow. -/

@[simp] theorem State.onTow_core (f : Tow → Tow) (s : State) : (State.onTow f s).core = s.core := rfl
@[simp] theorem State.onTow_irq (f : Tow → Tow) (s : State) : (State.onTow f s).irq = s.irq := rfl
@[simp] theorem State.onTow_watch (f : Tow → Tow) (s : State) : (State.onTow f s).watch = s.watch := rfl
@[simp] theorem State.onTow_tow (f : Tow → Tow) (s : State) : (State.onTow f s).tow = f s.tow := rfl
@[simp] theorem State.onTow_gals (f : Tow → Tow) (s : State) : (State.onTow f s).gals = s.gals := rfl
@[simp] theorem State.onTow_cul (f : Tow → Tow) (s : State) : (State.onTow f s).cul = s.cul := rfl
@[simp] theorem State.onTow_pwr (f : Tow → Tow) (s : State) : (State.onTow f s).pwr = s.pwr := rfl
@[simp] theorem State.onTow_start (f : Tow → Tow) (s : State) : (State.onTow f s).start = s.start := rfl
@[simp] theorem State.onTow_arrivals (f : Tow → Tow) (s : State) : (State.onTow f s).arrivals = s.arrivals := rfl
@[simp] theorem State.onTow_pending (f : Tow → Tow) (s : State) : (State.onTow f s).pending = s.pending := rfl

/-! State.onCul. -/

@[simp] theorem State.onCul_core (f : Cul → Cul) (s : State) : (State.onCul f s).core = s.core := rfl
@[simp] theorem State.onCul_irq (f : Cul → Cul) (s : State) : (State.onCul f s).irq = s.irq := rfl
@[simp] theorem State.onCul_watch (f : Cul → Cul) (s : State) : (State.onCul f s).watch = s.watch := rfl
@[simp] theorem State.onCul_tow (f : Cul → Cul) (s : State) : (State.onCul f s).tow = s.tow := rfl
@[simp] theorem State.onCul_gals (f : Cul → Cul) (s : State) : (State.onCul f s).gals = s.gals := rfl
@[simp] theorem State.onCul_cul (f : Cul → Cul) (s : State) : (State.onCul f s).cul = f s.cul := rfl
@[simp] theorem State.onCul_pwr (f : Cul → Cul) (s : State) : (State.onCul f s).pwr = s.pwr := rfl
@[simp] theorem State.onCul_start (f : Cul → Cul) (s : State) : (State.onCul f s).start = s.start := rfl
@[simp] theorem State.onCul_arrivals (f : Cul → Cul) (s : State) : (State.onCul f s).arrivals = s.arrivals := rfl
@[simp] theorem State.onCul_pending (f : Cul → Cul) (s : State) : (State.onCul f s).pending = s.pending := rfl

/-! State.onPwr. -/

@[simp] theorem State.onPwr_core (f : Pwr → Pwr) (s : State) : (State.onPwr f s).core = s.core := rfl
@[simp] theorem State.onPwr_irq (f : Pwr → Pwr) (s : State) : (State.onPwr f s).irq = s.irq := rfl
@[simp] theorem State.onPwr_watch (f : Pwr → Pwr) (s : State) : (State.onPwr f s).watch = s.watch := rfl
@[simp] theorem State.onPwr_tow (f : Pwr → Pwr) (s : State) : (State.onPwr f s).tow = s.tow := rfl
@[simp] theorem State.onPwr_gals (f : Pwr → Pwr) (s : State) : (State.onPwr f s).gals = s.gals := rfl
@[simp] theorem State.onPwr_cul (f : Pwr → Pwr) (s : State) : (State.onPwr f s).cul = s.cul := rfl
@[simp] theorem State.onPwr_pwr (f : Pwr → Pwr) (s : State) : (State.onPwr f s).pwr = f s.pwr := rfl
@[simp] theorem State.onPwr_start (f : Pwr → Pwr) (s : State) : (State.onPwr f s).start = s.start := rfl
@[simp] theorem State.onPwr_arrivals (f : Pwr → Pwr) (s : State) : (State.onPwr f s).arrivals = s.arrivals := rfl
@[simp] theorem State.onPwr_pending (f : Pwr → Pwr) (s : State) : (State.onPwr f s).pending = s.pending := rfl

/-! State.onStart. -/

@[simp] theorem State.onStart_core (f : Start → Start) (s : State) : (State.onStart f s).core = s.core := rfl
@[simp] theorem State.onStart_irq (f : Start → Start) (s : State) : (State.onStart f s).irq = s.irq := rfl
@[simp] theorem State.onStart_watch (f : Start → Start) (s : State) : (State.onStart f s).watch = s.watch := rfl
@[simp] theorem State.onStart_tow (f : Start → Start) (s : State) : (State.onStart f s).tow = s.tow := rfl
@[simp] theorem State.onStart_gals (f : Start → Start) (s : State) : (State.onStart f s).gals = s.gals := rfl
@[simp] theorem State.onStart_cul (f : Start → Start) (s : State) : (State.onStart f s).cul = s.cul := rfl
@[simp] theorem State.onStart_pwr (f : Start → Start) (s : State) : (State.onStart f s).pwr = s.pwr := rfl
@[simp] theorem State.onStart_start (f : Start → Start) (s : State) : (State.onStart f s).start = f s.start := rfl
@[simp] theorem State.onStart_arrivals (f : Start → Start) (s : State) : (State.onStart f s).arrivals = s.arrivals := rfl
@[simp] theorem State.onStart_pending (f : Start → Start) (s : State) : (State.onStart f s).pending = s.pending := rfl

/-! State.onGal. -/

@[simp] theorem State.onGal_core (p : Nat) (f : Gal → Gal) (s : State) : (State.onGal p f s).core = s.core := rfl
@[simp] theorem State.onGal_irq (p : Nat) (f : Gal → Gal) (s : State) : (State.onGal p f s).irq = s.irq := rfl
@[simp] theorem State.onGal_watch (p : Nat) (f : Gal → Gal) (s : State) : (State.onGal p f s).watch = s.watch := rfl
@[simp] theorem State.onGal_tow (p : Nat) (f : Gal → Gal) (s : State) : (State.onGal p f s).tow = s.tow := rfl
@[simp] theorem State.onGal_gals (p : Nat) (f : Gal → Gal) (s : State) : (State.onGal p f s).gals = mset Gal.reset s.gals p (f (s.gal p)) := rfl
@[simp] theorem State.onGal_cul (p : Nat) (f : Gal → Gal) (s : State) : (State.onGal p f s).cul = s.cul := rfl
@[simp] theorem State.onGal_pwr (p : Nat) (f : Gal → Gal) (s : State) : (State.onGal p f s).pwr = s.pwr := rfl
@[simp] theorem State.onGal_start (p : Nat) (f : Gal → Gal) (s : State) : (State.onGal p f s).start = s.start := rfl
@[simp] theorem State.onGal_arrivals (p : Nat) (f : Gal → Gal) (s : State) : (State.onGal p f s).arrivals = s.arrivals := rfl
@[simp] theorem State.onGal_pending (p : Nat) (f : Gal → Gal) (s : State) : (State.onGal p f s).pending = s.pending := rfl

/-! State.putTgt. -/

@[simp] theorem State.putTgt_core (t : Nat) (x : IrqTarget) (s : State) : (State.putTgt t x s).core = s.core := rfl
@[simp] theorem State.putTgt_irq (t : Nat) (x : IrqTarget) (s : State) : (State.putTgt t x s).irq = { s.irq with targets := mset IrqTarget.none s.irq.targets t x } := rfl
@[simp] theorem State.putTgt_watch (t : Nat) (x : IrqTarget) (s : State) : (State.putTgt t x s).watch = s.watch := rfl
@[simp] theorem State.putTgt_tow (t : Nat) (x : IrqTarget) (s : State) : (State.putTgt t x s).tow = s.tow := rfl
@[simp] theorem State.putTgt_gals (t : Nat) (x : IrqTarget) (s : State) : (State.putTgt t x s).gals = s.gals := rfl
@[simp] theorem State.putTgt_cul (t : Nat) (x : IrqTarget) (s : State) : (State.putTgt t x s).cul = s.cul := rfl
@[simp] theorem State.putTgt_pwr (t : Nat) (x : IrqTarget) (s : State) : (State.putTgt t x s).pwr = s.pwr := rfl
@[simp] theorem State.putTgt_start (t : Nat) (x : IrqTarget) (s : State) : (State.putTgt t x s).start = s.start := rfl
@[simp] theorem State.putTgt_arrivals (t : Nat) (x : IrqTarget) (s : State) : (State.putTgt t x s).arrivals = s.arrivals := rfl
@[simp] theorem State.putTgt_pending (t : Nat) (x : IrqTarget) (s : State) : (State.putTgt t x s).pending = s.pending := rfl

/-! State.putWindow. -/

@[simp] theorem State.putWindow_core (w : Nat) (x : Window) (s : State) : (State.putWindow w x s).core = s.core := rfl
@[simp] theorem State.putWindow_irq (w : Nat) (x : Window) (s : State) : (State.putWindow w x s).irq = s.irq := rfl
@[simp] theorem State.putWindow_watch (w : Nat) (x : Window) (s : State) : (State.putWindow w x s).watch = s.watch := rfl
@[simp] theorem State.putWindow_tow (w : Nat) (x : Window) (s : State) : (State.putWindow w x s).tow = { s.tow with windows := mset Window.none s.tow.windows w x } := rfl
@[simp] theorem State.putWindow_gals (w : Nat) (x : Window) (s : State) : (State.putWindow w x s).gals = s.gals := rfl
@[simp] theorem State.putWindow_cul (w : Nat) (x : Window) (s : State) : (State.putWindow w x s).cul = s.cul := rfl
@[simp] theorem State.putWindow_pwr (w : Nat) (x : Window) (s : State) : (State.putWindow w x s).pwr = s.pwr := rfl
@[simp] theorem State.putWindow_start (w : Nat) (x : Window) (s : State) : (State.putWindow w x s).start = s.start := rfl
@[simp] theorem State.putWindow_arrivals (w : Nat) (x : Window) (s : State) : (State.putWindow w x s).arrivals = s.arrivals := rfl
@[simp] theorem State.putWindow_pending (w : Nat) (x : Window) (s : State) : (State.putWindow w x s).pending = s.pending := rfl

/-! State.putPort. -/

@[simp] theorem State.putPort_core (n : Nat) (x : CPort) (s : State) : (State.putPort n x s).core = s.core := rfl
@[simp] theorem State.putPort_irq (n : Nat) (x : CPort) (s : State) : (State.putPort n x s).irq = s.irq := rfl
@[simp] theorem State.putPort_watch (n : Nat) (x : CPort) (s : State) : (State.putPort n x s).watch = s.watch := rfl
@[simp] theorem State.putPort_tow (n : Nat) (x : CPort) (s : State) : (State.putPort n x s).tow = s.tow := rfl
@[simp] theorem State.putPort_gals (n : Nat) (x : CPort) (s : State) : (State.putPort n x s).gals = s.gals := rfl
@[simp] theorem State.putPort_cul (n : Nat) (x : CPort) (s : State) : (State.putPort n x s).cul = { s.cul with ports := mset CPort.reset s.cul.ports n x } := rfl
@[simp] theorem State.putPort_pwr (n : Nat) (x : CPort) (s : State) : (State.putPort n x s).pwr = s.pwr := rfl
@[simp] theorem State.putPort_start (n : Nat) (x : CPort) (s : State) : (State.putPort n x s).start = s.start := rfl
@[simp] theorem State.putPort_arrivals (n : Nat) (x : CPort) (s : State) : (State.putPort n x s).arrivals = s.arrivals := rfl
@[simp] theorem State.putPort_pending (n : Nat) (x : CPort) (s : State) : (State.putPort n x s).pending = s.pending := rfl

/-! State.onPort. -/

@[simp] theorem State.onPort_core (n : Nat) (f : CPort → CPort) (s : State) : (State.onPort n f s).core = s.core := rfl
@[simp] theorem State.onPort_irq (n : Nat) (f : CPort → CPort) (s : State) : (State.onPort n f s).irq = s.irq := rfl
@[simp] theorem State.onPort_watch (n : Nat) (f : CPort → CPort) (s : State) : (State.onPort n f s).watch = s.watch := rfl
@[simp] theorem State.onPort_tow (n : Nat) (f : CPort → CPort) (s : State) : (State.onPort n f s).tow = s.tow := rfl
@[simp] theorem State.onPort_gals (n : Nat) (f : CPort → CPort) (s : State) : (State.onPort n f s).gals = s.gals := rfl
@[simp] theorem State.onPort_cul (n : Nat) (f : CPort → CPort) (s : State) : (State.onPort n f s).cul = { s.cul with ports := mset CPort.reset s.cul.ports n (f (s.cport n)) } := rfl
@[simp] theorem State.onPort_pwr (n : Nat) (f : CPort → CPort) (s : State) : (State.onPort n f s).pwr = s.pwr := rfl
@[simp] theorem State.onPort_start (n : Nat) (f : CPort → CPort) (s : State) : (State.onPort n f s).start = s.start := rfl
@[simp] theorem State.onPort_arrivals (n : Nat) (f : CPort → CPort) (s : State) : (State.onPort n f s).arrivals = s.arrivals := rfl
@[simp] theorem State.onPort_pending (n : Nat) (f : CPort → CPort) (s : State) : (State.onPort n f s).pending = s.pending := rfl

/-! Core.onHost. -/

@[simp] theorem Core.onHost_regs (f : HostPort → HostPort) (s : Core) : (Core.onHost f s).regs = s.regs := rfl
@[simp] theorem Core.onHost_block (f : HostPort → HostPort) (s : Core) : (Core.onHost f s).block = s.block := rfl
@[simp] theorem Core.onHost_host (f : HostPort → HostPort) (s : Core) : (Core.onHost f s).host = f s.host := rfl
@[simp] theorem Core.onHost_slices (f : HostPort → HostPort) (s : Core) : (Core.onHost f s).slices = s.slices := rfl
@[simp] theorem Core.onHost_eng (f : HostPort → HostPort) (s : Core) : (Core.onHost f s).eng = s.eng := rfl
@[simp] theorem Core.onHost_mem (f : HostPort → HostPort) (s : Core) : (Core.onHost f s).mem = s.mem := rfl
@[simp] theorem Core.onHost_pf (f : HostPort → HostPort) (s : Core) : (Core.onHost f s).pf = s.pf := rfl
@[simp] theorem Core.onHost_fab (f : HostPort → HostPort) (s : Core) : (Core.onHost f s).fab = s.fab := rfl
@[simp] theorem Core.onHost_wharf (f : HostPort → HostPort) (s : Core) : (Core.onHost f s).wharf = s.wharf := rfl
@[simp] theorem Core.onHost_toSend (f : HostPort → HostPort) (s : Core) : (Core.onHost f s).toSend = s.toSend := rfl
@[simp] theorem Core.onHost_todo (f : HostPort → HostPort) (s : Core) : (Core.onHost f s).todo = s.todo := rfl
@[simp] theorem Core.onHost_up (f : HostPort → HostPort) (s : Core) : (Core.onHost f s).up = s.up := rfl
@[simp] theorem Core.onHost_flt (f : HostPort → HostPort) (s : Core) : (Core.onHost f s).flt = s.flt := rfl
@[simp] theorem Core.onHost_frz (f : HostPort → HostPort) (s : Core) : (Core.onHost f s).frz = s.frz := rfl
@[simp] theorem Core.onHost_failovers (f : HostPort → HostPort) (s : Core) : (Core.onHost f s).failovers = s.failovers := rfl
@[simp] theorem Core.onHost_cntPend (f : HostPort → HostPort) (s : Core) : (Core.onHost f s).cntPend = s.cntPend := rfl
@[simp] theorem Core.onHost_out (f : HostPort → HostPort) (s : Core) : (Core.onHost f s).out = s.out := rfl
@[simp] theorem Core.onHost_doms (f : HostPort → HostPort) (s : Core) : (Core.onHost f s).doms = s.doms := rfl
@[simp] theorem Core.onHost_nextId (f : HostPort → HostPort) (s : Core) : (Core.onHost f s).nextId = s.nextId := rfl
@[simp] theorem Core.onHost_freeCtr (f : HostPort → HostPort) (s : Core) : (Core.onHost f s).freeCtr = s.freeCtr := rfl
@[simp] theorem Core.onHost_cycles (f : HostPort → HostPort) (s : Core) : (Core.onHost f s).cycles = s.cycles := rfl

/-! Core.onEng. -/

@[simp] theorem Core.onEng_regs (f : Engines → Engines) (s : Core) : (Core.onEng f s).regs = s.regs := rfl
@[simp] theorem Core.onEng_block (f : Engines → Engines) (s : Core) : (Core.onEng f s).block = s.block := rfl
@[simp] theorem Core.onEng_host (f : Engines → Engines) (s : Core) : (Core.onEng f s).host = s.host := rfl
@[simp] theorem Core.onEng_slices (f : Engines → Engines) (s : Core) : (Core.onEng f s).slices = s.slices := rfl
@[simp] theorem Core.onEng_eng (f : Engines → Engines) (s : Core) : (Core.onEng f s).eng = f s.eng := rfl
@[simp] theorem Core.onEng_mem (f : Engines → Engines) (s : Core) : (Core.onEng f s).mem = s.mem := rfl
@[simp] theorem Core.onEng_pf (f : Engines → Engines) (s : Core) : (Core.onEng f s).pf = s.pf := rfl
@[simp] theorem Core.onEng_fab (f : Engines → Engines) (s : Core) : (Core.onEng f s).fab = s.fab := rfl
@[simp] theorem Core.onEng_wharf (f : Engines → Engines) (s : Core) : (Core.onEng f s).wharf = s.wharf := rfl
@[simp] theorem Core.onEng_toSend (f : Engines → Engines) (s : Core) : (Core.onEng f s).toSend = s.toSend := rfl
@[simp] theorem Core.onEng_todo (f : Engines → Engines) (s : Core) : (Core.onEng f s).todo = s.todo := rfl
@[simp] theorem Core.onEng_up (f : Engines → Engines) (s : Core) : (Core.onEng f s).up = s.up := rfl
@[simp] theorem Core.onEng_flt (f : Engines → Engines) (s : Core) : (Core.onEng f s).flt = s.flt := rfl
@[simp] theorem Core.onEng_frz (f : Engines → Engines) (s : Core) : (Core.onEng f s).frz = s.frz := rfl
@[simp] theorem Core.onEng_failovers (f : Engines → Engines) (s : Core) : (Core.onEng f s).failovers = s.failovers := rfl
@[simp] theorem Core.onEng_cntPend (f : Engines → Engines) (s : Core) : (Core.onEng f s).cntPend = s.cntPend := rfl
@[simp] theorem Core.onEng_out (f : Engines → Engines) (s : Core) : (Core.onEng f s).out = s.out := rfl
@[simp] theorem Core.onEng_doms (f : Engines → Engines) (s : Core) : (Core.onEng f s).doms = s.doms := rfl
@[simp] theorem Core.onEng_nextId (f : Engines → Engines) (s : Core) : (Core.onEng f s).nextId = s.nextId := rfl
@[simp] theorem Core.onEng_freeCtr (f : Engines → Engines) (s : Core) : (Core.onEng f s).freeCtr = s.freeCtr := rfl
@[simp] theorem Core.onEng_cycles (f : Engines → Engines) (s : Core) : (Core.onEng f s).cycles = s.cycles := rfl

/-! Core.setSlice. -/

@[simp] theorem Core.setSlice_regs (p : Nat) (x : Slice) (s : Core) : (Core.setSlice p x s).regs = s.regs := rfl
@[simp] theorem Core.setSlice_block (p : Nat) (x : Slice) (s : Core) : (Core.setSlice p x s).block = s.block := rfl
@[simp] theorem Core.setSlice_host (p : Nat) (x : Slice) (s : Core) : (Core.setSlice p x s).host = s.host := rfl
@[simp] theorem Core.setSlice_eng (p : Nat) (x : Slice) (s : Core) : (Core.setSlice p x s).eng = s.eng := rfl
@[simp] theorem Core.setSlice_mem (p : Nat) (x : Slice) (s : Core) : (Core.setSlice p x s).mem = s.mem := rfl
@[simp] theorem Core.setSlice_pf (p : Nat) (x : Slice) (s : Core) : (Core.setSlice p x s).pf = s.pf := rfl
@[simp] theorem Core.setSlice_fab (p : Nat) (x : Slice) (s : Core) : (Core.setSlice p x s).fab = s.fab := rfl
@[simp] theorem Core.setSlice_wharf (p : Nat) (x : Slice) (s : Core) : (Core.setSlice p x s).wharf = s.wharf := rfl
@[simp] theorem Core.setSlice_toSend (p : Nat) (x : Slice) (s : Core) : (Core.setSlice p x s).toSend = s.toSend := rfl
@[simp] theorem Core.setSlice_todo (p : Nat) (x : Slice) (s : Core) : (Core.setSlice p x s).todo = s.todo := rfl
@[simp] theorem Core.setSlice_up (p : Nat) (x : Slice) (s : Core) : (Core.setSlice p x s).up = s.up := rfl
@[simp] theorem Core.setSlice_flt (p : Nat) (x : Slice) (s : Core) : (Core.setSlice p x s).flt = s.flt := rfl
@[simp] theorem Core.setSlice_frz (p : Nat) (x : Slice) (s : Core) : (Core.setSlice p x s).frz = s.frz := rfl
@[simp] theorem Core.setSlice_failovers (p : Nat) (x : Slice) (s : Core) : (Core.setSlice p x s).failovers = s.failovers := rfl
@[simp] theorem Core.setSlice_cntPend (p : Nat) (x : Slice) (s : Core) : (Core.setSlice p x s).cntPend = s.cntPend := rfl
@[simp] theorem Core.setSlice_out (p : Nat) (x : Slice) (s : Core) : (Core.setSlice p x s).out = s.out := rfl
@[simp] theorem Core.setSlice_doms (p : Nat) (x : Slice) (s : Core) : (Core.setSlice p x s).doms = s.doms := rfl
@[simp] theorem Core.setSlice_nextId (p : Nat) (x : Slice) (s : Core) : (Core.setSlice p x s).nextId = s.nextId := rfl
@[simp] theorem Core.setSlice_freeCtr (p : Nat) (x : Slice) (s : Core) : (Core.setSlice p x s).freeCtr = s.freeCtr := rfl
@[simp] theorem Core.setSlice_cycles (p : Nat) (x : Slice) (s : Core) : (Core.setSlice p x s).cycles = s.cycles := rfl

/-! Core.onSlice. -/

@[simp] theorem Core.onSlice_regs (p : Nat) (f : Slice → Slice) (s : Core) : (Core.onSlice p f s).regs = s.regs := rfl
@[simp] theorem Core.onSlice_block (p : Nat) (f : Slice → Slice) (s : Core) : (Core.onSlice p f s).block = s.block := rfl
@[simp] theorem Core.onSlice_host (p : Nat) (f : Slice → Slice) (s : Core) : (Core.onSlice p f s).host = s.host := rfl
@[simp] theorem Core.onSlice_eng (p : Nat) (f : Slice → Slice) (s : Core) : (Core.onSlice p f s).eng = s.eng := rfl
@[simp] theorem Core.onSlice_mem (p : Nat) (f : Slice → Slice) (s : Core) : (Core.onSlice p f s).mem = s.mem := rfl
@[simp] theorem Core.onSlice_pf (p : Nat) (f : Slice → Slice) (s : Core) : (Core.onSlice p f s).pf = s.pf := rfl
@[simp] theorem Core.onSlice_fab (p : Nat) (f : Slice → Slice) (s : Core) : (Core.onSlice p f s).fab = s.fab := rfl
@[simp] theorem Core.onSlice_wharf (p : Nat) (f : Slice → Slice) (s : Core) : (Core.onSlice p f s).wharf = s.wharf := rfl
@[simp] theorem Core.onSlice_toSend (p : Nat) (f : Slice → Slice) (s : Core) : (Core.onSlice p f s).toSend = s.toSend := rfl
@[simp] theorem Core.onSlice_todo (p : Nat) (f : Slice → Slice) (s : Core) : (Core.onSlice p f s).todo = s.todo := rfl
@[simp] theorem Core.onSlice_up (p : Nat) (f : Slice → Slice) (s : Core) : (Core.onSlice p f s).up = s.up := rfl
@[simp] theorem Core.onSlice_flt (p : Nat) (f : Slice → Slice) (s : Core) : (Core.onSlice p f s).flt = s.flt := rfl
@[simp] theorem Core.onSlice_frz (p : Nat) (f : Slice → Slice) (s : Core) : (Core.onSlice p f s).frz = s.frz := rfl
@[simp] theorem Core.onSlice_failovers (p : Nat) (f : Slice → Slice) (s : Core) : (Core.onSlice p f s).failovers = s.failovers := rfl
@[simp] theorem Core.onSlice_cntPend (p : Nat) (f : Slice → Slice) (s : Core) : (Core.onSlice p f s).cntPend = s.cntPend := rfl
@[simp] theorem Core.onSlice_out (p : Nat) (f : Slice → Slice) (s : Core) : (Core.onSlice p f s).out = s.out := rfl
@[simp] theorem Core.onSlice_doms (p : Nat) (f : Slice → Slice) (s : Core) : (Core.onSlice p f s).doms = s.doms := rfl
@[simp] theorem Core.onSlice_nextId (p : Nat) (f : Slice → Slice) (s : Core) : (Core.onSlice p f s).nextId = s.nextId := rfl
@[simp] theorem Core.onSlice_freeCtr (p : Nat) (f : Slice → Slice) (s : Core) : (Core.onSlice p f s).freeCtr = s.freeCtr := rfl
@[simp] theorem Core.onSlice_cycles (p : Nat) (f : Slice → Slice) (s : Core) : (Core.onSlice p f s).cycles = s.cycles := rfl

/-! Core.setReg. -/

@[simp] theorem Core.setReg_regs (o : Nat) (w : Word) (s : Core) : (Core.setReg o w s).regs = if w = resetOf o then merase s.regs o else mput s.regs o w := rfl
@[simp] theorem Core.setReg_block (o : Nat) (w : Word) (s : Core) : (Core.setReg o w s).block = s.block := rfl
@[simp] theorem Core.setReg_host (o : Nat) (w : Word) (s : Core) : (Core.setReg o w s).host = s.host := rfl
@[simp] theorem Core.setReg_slices (o : Nat) (w : Word) (s : Core) : (Core.setReg o w s).slices = s.slices := rfl
@[simp] theorem Core.setReg_eng (o : Nat) (w : Word) (s : Core) : (Core.setReg o w s).eng = s.eng := rfl
@[simp] theorem Core.setReg_mem (o : Nat) (w : Word) (s : Core) : (Core.setReg o w s).mem = s.mem := rfl
@[simp] theorem Core.setReg_pf (o : Nat) (w : Word) (s : Core) : (Core.setReg o w s).pf = s.pf := rfl
@[simp] theorem Core.setReg_fab (o : Nat) (w : Word) (s : Core) : (Core.setReg o w s).fab = s.fab := rfl
@[simp] theorem Core.setReg_wharf (o : Nat) (w : Word) (s : Core) : (Core.setReg o w s).wharf = s.wharf := rfl
@[simp] theorem Core.setReg_toSend (o : Nat) (w : Word) (s : Core) : (Core.setReg o w s).toSend = s.toSend := rfl
@[simp] theorem Core.setReg_todo (o : Nat) (w : Word) (s : Core) : (Core.setReg o w s).todo = s.todo := rfl
@[simp] theorem Core.setReg_up (o : Nat) (w : Word) (s : Core) : (Core.setReg o w s).up = s.up := rfl
@[simp] theorem Core.setReg_flt (o : Nat) (w : Word) (s : Core) : (Core.setReg o w s).flt = s.flt := rfl
@[simp] theorem Core.setReg_frz (o : Nat) (w : Word) (s : Core) : (Core.setReg o w s).frz = s.frz := rfl
@[simp] theorem Core.setReg_failovers (o : Nat) (w : Word) (s : Core) : (Core.setReg o w s).failovers = s.failovers := rfl
@[simp] theorem Core.setReg_cntPend (o : Nat) (w : Word) (s : Core) : (Core.setReg o w s).cntPend = s.cntPend := rfl
@[simp] theorem Core.setReg_out (o : Nat) (w : Word) (s : Core) : (Core.setReg o w s).out = s.out := rfl
@[simp] theorem Core.setReg_doms (o : Nat) (w : Word) (s : Core) : (Core.setReg o w s).doms = s.doms := rfl
@[simp] theorem Core.setReg_nextId (o : Nat) (w : Word) (s : Core) : (Core.setReg o w s).nextId = s.nextId := rfl
@[simp] theorem Core.setReg_freeCtr (o : Nat) (w : Word) (s : Core) : (Core.setReg o w s).freeCtr = s.freeCtr := rfl
@[simp] theorem Core.setReg_cycles (o : Nat) (w : Word) (s : Core) : (Core.setReg o w s).cycles = s.cycles := rfl

/-! Core.emit. -/

@[simp] theorem Core.emit_regs (x : Out) (s : Core) : (Core.emit x s).regs = s.regs := rfl
@[simp] theorem Core.emit_block (x : Out) (s : Core) : (Core.emit x s).block = s.block := rfl
@[simp] theorem Core.emit_host (x : Out) (s : Core) : (Core.emit x s).host = s.host := rfl
@[simp] theorem Core.emit_slices (x : Out) (s : Core) : (Core.emit x s).slices = s.slices := rfl
@[simp] theorem Core.emit_eng (x : Out) (s : Core) : (Core.emit x s).eng = s.eng := rfl
@[simp] theorem Core.emit_mem (x : Out) (s : Core) : (Core.emit x s).mem = s.mem := rfl
@[simp] theorem Core.emit_pf (x : Out) (s : Core) : (Core.emit x s).pf = s.pf := rfl
@[simp] theorem Core.emit_fab (x : Out) (s : Core) : (Core.emit x s).fab = s.fab := rfl
@[simp] theorem Core.emit_wharf (x : Out) (s : Core) : (Core.emit x s).wharf = s.wharf := rfl
@[simp] theorem Core.emit_toSend (x : Out) (s : Core) : (Core.emit x s).toSend = s.toSend := rfl
@[simp] theorem Core.emit_todo (x : Out) (s : Core) : (Core.emit x s).todo = s.todo := rfl
@[simp] theorem Core.emit_up (x : Out) (s : Core) : (Core.emit x s).up = s.up := rfl
@[simp] theorem Core.emit_flt (x : Out) (s : Core) : (Core.emit x s).flt = s.flt := rfl
@[simp] theorem Core.emit_frz (x : Out) (s : Core) : (Core.emit x s).frz = s.frz := rfl
@[simp] theorem Core.emit_failovers (x : Out) (s : Core) : (Core.emit x s).failovers = s.failovers := rfl
@[simp] theorem Core.emit_cntPend (x : Out) (s : Core) : (Core.emit x s).cntPend = s.cntPend := rfl
@[simp] theorem Core.emit_out (x : Out) (s : Core) : (Core.emit x s).out = x :: s.out := rfl
@[simp] theorem Core.emit_doms (x : Out) (s : Core) : (Core.emit x s).doms = s.doms := rfl
@[simp] theorem Core.emit_nextId (x : Out) (s : Core) : (Core.emit x s).nextId = s.nextId := rfl
@[simp] theorem Core.emit_freeCtr (x : Out) (s : Core) : (Core.emit x s).freeCtr = s.freeCtr := rfl
@[simp] theorem Core.emit_cycles (x : Out) (s : Core) : (Core.emit x s).cycles = s.cycles := rfl

/-! Core.bump. -/

@[simp] theorem Core.bump_regs (g e n : Nat) (s : Core) : (Core.bump g e n s).regs = s.regs := rfl
@[simp] theorem Core.bump_block (g e n : Nat) (s : Core) : (Core.bump g e n s).block = s.block := rfl
@[simp] theorem Core.bump_host (g e n : Nat) (s : Core) : (Core.bump g e n s).host = s.host := rfl
@[simp] theorem Core.bump_slices (g e n : Nat) (s : Core) : (Core.bump g e n s).slices = s.slices := rfl
@[simp] theorem Core.bump_eng (g e n : Nat) (s : Core) : (Core.bump g e n s).eng = s.eng := rfl
@[simp] theorem Core.bump_mem (g e n : Nat) (s : Core) : (Core.bump g e n s).mem = s.mem := rfl
@[simp] theorem Core.bump_pf (g e n : Nat) (s : Core) : (Core.bump g e n s).pf = s.pf := rfl
@[simp] theorem Core.bump_fab (g e n : Nat) (s : Core) : (Core.bump g e n s).fab = s.fab := rfl
@[simp] theorem Core.bump_wharf (g e n : Nat) (s : Core) : (Core.bump g e n s).wharf = s.wharf := rfl
@[simp] theorem Core.bump_toSend (g e n : Nat) (s : Core) : (Core.bump g e n s).toSend = s.toSend := rfl
@[simp] theorem Core.bump_todo (g e n : Nat) (s : Core) : (Core.bump g e n s).todo = s.todo := rfl
@[simp] theorem Core.bump_up (g e n : Nat) (s : Core) : (Core.bump g e n s).up = s.up := rfl
@[simp] theorem Core.bump_flt (g e n : Nat) (s : Core) : (Core.bump g e n s).flt = s.flt := rfl
@[simp] theorem Core.bump_frz (g e n : Nat) (s : Core) : (Core.bump g e n s).frz = s.frz := rfl
@[simp] theorem Core.bump_failovers (g e n : Nat) (s : Core) : (Core.bump g e n s).failovers = s.failovers := rfl
@[simp] theorem Core.bump_cntPend (g e n : Nat) (s : Core) : (Core.bump g e n s).cntPend = mset 0 s.cntPend (g * 1024 + e) (mget 0 s.cntPend (g * 1024 + e) + n) := rfl
@[simp] theorem Core.bump_out (g e n : Nat) (s : Core) : (Core.bump g e n s).out = s.out := rfl
@[simp] theorem Core.bump_doms (g e n : Nat) (s : Core) : (Core.bump g e n s).doms = s.doms := rfl
@[simp] theorem Core.bump_nextId (g e n : Nat) (s : Core) : (Core.bump g e n s).nextId = s.nextId := rfl
@[simp] theorem Core.bump_freeCtr (g e n : Nat) (s : Core) : (Core.bump g e n s).freeCtr = s.freeCtr := rfl
@[simp] theorem Core.bump_cycles (g e n : Nat) (s : Core) : (Core.bump g e n s).cycles = s.cycles := rfl

/-! Core.task. -/

@[simp] theorem Core.task_regs (t : Task) (s : Core) : (Core.task t s).regs = s.regs := rfl
@[simp] theorem Core.task_block (t : Task) (s : Core) : (Core.task t s).block = s.block := rfl
@[simp] theorem Core.task_host (t : Task) (s : Core) : (Core.task t s).host = s.host := rfl
@[simp] theorem Core.task_slices (t : Task) (s : Core) : (Core.task t s).slices = s.slices := rfl
@[simp] theorem Core.task_eng (t : Task) (s : Core) : (Core.task t s).eng = s.eng := rfl
@[simp] theorem Core.task_mem (t : Task) (s : Core) : (Core.task t s).mem = s.mem := rfl
@[simp] theorem Core.task_pf (t : Task) (s : Core) : (Core.task t s).pf = s.pf := rfl
@[simp] theorem Core.task_fab (t : Task) (s : Core) : (Core.task t s).fab = s.fab := rfl
@[simp] theorem Core.task_wharf (t : Task) (s : Core) : (Core.task t s).wharf = s.wharf := rfl
@[simp] theorem Core.task_toSend (t : Task) (s : Core) : (Core.task t s).toSend = s.toSend := rfl
@[simp] theorem Core.task_todo (t : Task) (s : Core) : (Core.task t s).todo = s.todo ++ [t] := rfl
@[simp] theorem Core.task_up (t : Task) (s : Core) : (Core.task t s).up = s.up := rfl
@[simp] theorem Core.task_flt (t : Task) (s : Core) : (Core.task t s).flt = s.flt := rfl
@[simp] theorem Core.task_frz (t : Task) (s : Core) : (Core.task t s).frz = s.frz := rfl
@[simp] theorem Core.task_failovers (t : Task) (s : Core) : (Core.task t s).failovers = s.failovers := rfl
@[simp] theorem Core.task_cntPend (t : Task) (s : Core) : (Core.task t s).cntPend = s.cntPend := rfl
@[simp] theorem Core.task_out (t : Task) (s : Core) : (Core.task t s).out = s.out := rfl
@[simp] theorem Core.task_doms (t : Task) (s : Core) : (Core.task t s).doms = s.doms := rfl
@[simp] theorem Core.task_nextId (t : Task) (s : Core) : (Core.task t s).nextId = s.nextId := rfl
@[simp] theorem Core.task_freeCtr (t : Task) (s : Core) : (Core.task t s).freeCtr = s.freeCtr := rfl
@[simp] theorem Core.task_cycles (t : Task) (s : Core) : (Core.task t s).cycles = s.cycles := rfl

/-! Core.onFab. -/

@[simp] theorem Core.onFab_regs (f : Nat) (g : FabPort → FabPort) (s : Core) : (Core.onFab f g s).regs = s.regs := rfl
@[simp] theorem Core.onFab_block (f : Nat) (g : FabPort → FabPort) (s : Core) : (Core.onFab f g s).block = s.block := rfl
@[simp] theorem Core.onFab_host (f : Nat) (g : FabPort → FabPort) (s : Core) : (Core.onFab f g s).host = s.host := rfl
@[simp] theorem Core.onFab_slices (f : Nat) (g : FabPort → FabPort) (s : Core) : (Core.onFab f g s).slices = s.slices := rfl
@[simp] theorem Core.onFab_eng (f : Nat) (g : FabPort → FabPort) (s : Core) : (Core.onFab f g s).eng = s.eng := rfl
@[simp] theorem Core.onFab_mem (f : Nat) (g : FabPort → FabPort) (s : Core) : (Core.onFab f g s).mem = s.mem := rfl
@[simp] theorem Core.onFab_pf (f : Nat) (g : FabPort → FabPort) (s : Core) : (Core.onFab f g s).pf = s.pf := rfl
@[simp] theorem Core.onFab_wharf (f : Nat) (g : FabPort → FabPort) (s : Core) : (Core.onFab f g s).wharf = s.wharf := rfl
@[simp] theorem Core.onFab_toSend (f : Nat) (g : FabPort → FabPort) (s : Core) : (Core.onFab f g s).toSend = s.toSend := rfl
@[simp] theorem Core.onFab_todo (f : Nat) (g : FabPort → FabPort) (s : Core) : (Core.onFab f g s).todo = s.todo := rfl
@[simp] theorem Core.onFab_up (f : Nat) (g : FabPort → FabPort) (s : Core) : (Core.onFab f g s).up = s.up := rfl
@[simp] theorem Core.onFab_flt (f : Nat) (g : FabPort → FabPort) (s : Core) : (Core.onFab f g s).flt = s.flt := rfl
@[simp] theorem Core.onFab_frz (f : Nat) (g : FabPort → FabPort) (s : Core) : (Core.onFab f g s).frz = s.frz := rfl
@[simp] theorem Core.onFab_failovers (f : Nat) (g : FabPort → FabPort) (s : Core) : (Core.onFab f g s).failovers = s.failovers := rfl
@[simp] theorem Core.onFab_cntPend (f : Nat) (g : FabPort → FabPort) (s : Core) : (Core.onFab f g s).cntPend = s.cntPend := rfl
@[simp] theorem Core.onFab_out (f : Nat) (g : FabPort → FabPort) (s : Core) : (Core.onFab f g s).out = s.out := rfl
@[simp] theorem Core.onFab_doms (f : Nat) (g : FabPort → FabPort) (s : Core) : (Core.onFab f g s).doms = s.doms := rfl
@[simp] theorem Core.onFab_nextId (f : Nat) (g : FabPort → FabPort) (s : Core) : (Core.onFab f g s).nextId = s.nextId := rfl
@[simp] theorem Core.onFab_freeCtr (f : Nat) (g : FabPort → FabPort) (s : Core) : (Core.onFab f g s).freeCtr = s.freeCtr := rfl
@[simp] theorem Core.onFab_cycles (f : Nat) (g : FabPort → FabPort) (s : Core) : (Core.onFab f g s).cycles = s.cycles := rfl

end Sys2Proof.Machine
end

