-- ==== Sys2Proof/Tests/Slice0.lean ====
section
/-!
SUPPORT. Sys2Proof/Tests/Slice0.lean: the model's own tests: ill-formed commands, the spec's worked examples, and for each statement that
has hypotheses a concrete state and operands that meet them.
-/
namespace Sys2Proof.Machine
open Sys2Proof

/-! Small states. -/

/-- The block in a state with every domain on, nothing in it and nothing waiting. -/
def Tests.blockIn (b : BlockSt) : State := State.reset.onCore (fun k => { k with block := b, doms := BitVec.allOnes 80 })
def Tests.lit : State := Tests.blockIn .standby
def Tests.serving : State := Tests.blockIn .service
/-- A register set. -/
def Tests.reg (o : Nat) (w : Word) (s : State) : State := s.onCore (Core.setReg o w)
/-- Slice 0 as given. -/
def Tests.slice0 (f : Slice → Slice) (s : State) : State := s.onCore (Core.onSlice 0 f)
/-- Logical slice l on slice l, SERVING. -/
def Tests.maps (l : Nat) (s : State) : State :=
  (s.onCore (Core.onSlice l (fun x => { x with st := .serving, logical := some l, mode := .service }))).onCore
    (fun k => { k with host := { k.host with remap := mput k.host.remap l l } })
/-- Instance 0 homes the first GiB, its agent 0 is DEFINED on fabric port 0, listed, admitted and present, and logical slice 0 is served. -/
def Tests.home : State :=
  (Tests.maps 0 (Tests.reg 0x4000 0x5 (Tests.reg 0x2000 1 (Tests.reg 0x600 1 (Tests.reg 0x1000 0x8000000000000000 (Tests.reg 0x1008 0xF0000000000000 Tests.serving)))))).onCore
    (Core.onHost (fun h => { h with present := 1 }))
/-- A packet of the streaming port with tag 1 and TARGET 0xFF. -/
def Tests.cmd (p : Word) : TowCmd := ⟨.stream, 1, 0xFF, 0, 0, p, []⟩
def Tests.cmdAt (t : BitVec 8) (p : Word) : TowCmd := ⟨.stream, 1, t, 0, 0, p, []⟩
/-- A header of agent a, TAG t and a line. -/
def Tests.hdr (a : AgentId) (t : Tag) (x : LineAddr) : Hdr := { Hdr.zero with agent := a, peer := a, tag := t, line := x }
/-- Whether an outcome is a next state that meets a test. -/
def Tests.nextIs (p : State → Bool) (o : Host.Outcome State Fault Refusal) : Bool := match o with
  | .next s => p s
  | _ => false
open Tests
set_option maxRecDepth 100000

/-! Ill-formed commands, one for each check of WellFormed. -/

theorem test_wf_length (l : List Word) (h : l.length = 65536) : (Instr.nop ⟨.stream, 0, 0xFF, 0, 0, 0, l⟩).wf = false := by
  simp [Instr.wf, Instr.packet, TowCmd.wf, h]
theorem test_wf_empty_packet : (Instr.streamPacket []).wf = false := by decide
theorem test_wf_offset : (Instr.genericRegisterWrite 0x114 0).wf = false := by decide
theorem test_wf_action_bit : (Instr.irqRaisePush 0 0xF).wf = false ∧ (Instr.fltAckWrite 0x7FF).wf = false ∧ (Instr.errOutRelease 0x30000).wf = false ∧
    (Instr.galInjectGo 0 6).wf = false ∧ (Instr.plCtlWake 2).wf = false ∧ (Instr.culEnableWrite 0 0xE).wf = false ∧
    (Instr.culDisableWrite 0 1).wf = false := by decide
theorem test_wf_defined_opcode : (Instr.undefinedMessage 0 .req 0x18 Hdr.zero).wf = false := by decide
theorem test_wf_beats : (Instr.datS (.fabric 0) Hdr.zero ⟨0, 0, true⟩).wf = false := by decide
theorem test_wf_transit_body : (Instr.transitMessage 0 0 false 0x80 Hdr.zero none).wf = false := by decide
theorem test_wf_twice : (Instr.sievePatrol 0 [⟨true, 3, false⟩, ⟨true, 3, false⟩]).wf = false ∧
    (Instr.chamberHead 0 0 [.control, .control]).wf = false ∧ (Instr.testWindowEnd 0 [(1, 5), (1, 6)] 0).wf = false ∧
    (Instr.trainingAdvance 0 [⟨1, 0⟩, ⟨1, 0⟩] 0 0).wf = false ∧ (Instr.wakingComplete 0 [⟨true, 0, 0⟩, ⟨true, 0, 0⟩] true).wf = false := by decide
theorem test_wf_lane_words : (Instr.alignmentMarker 0 [[0]]).wf = false ∧ (Instr.flit 0 [[]]).wf = false := by decide
theorem test_wf_window : (Instr.galleyWindowClose 0 (.struck [] [65536])).wf = false := by decide
theorem test_wf_sweep : (Instr.registerSweep 0 ⟨[⟨5, 0, 0⟩, ⟨5, 1, 0⟩], 0, false, false⟩).wf = false := by decide
theorem test_wf_well_formed : (Instr.nop (cmd 0)).wf = true ∧ (Instr.undefinedMessage 0 .rsp 0x18 Hdr.zero).wf = true := by decide

/-! The spec's worked examples. -/

/-- Instance 7 of 02's worked placement: its range table, LARDER_BASE, OVF_BASE and OVF_CTL. -/
def Tests.placed : State :=
  reg 0x410 0x30880000000 (reg 0x418 0x12 (reg 0x400 0x30000000000 (reg 0x1018 0x1F0000000000007 (reg 0x1010 0x80000C2200000C00
    (reg 0x1008 0xF0000000000007 (reg 0x1000 0x80000BFF00000800 (reg 0x10 7 State.reset)))))))
/-- The line at PA 0x212_3456_7A00. -/
def Tests.x7A : LineAddr := 0x21234567A

/-- 02, Worked placement: home, slice hash and memory port. -/
theorem test_placement_home : placed.core.homeOf x7A = some 7 ∧ sliceHash x7A = 8 ∧ logicalOf 0 8 = 8 ∧ logicalOf 1 8 = 0 ∧ logicalOf 2 8 = 0 ∧
    placed.core.memPort 0x21234567A00 = 2 := by decide
/-- 02, Worked placement: home offset, record place, page and check slot. -/
theorem test_placement_record : placed.core.homeOffset 0x21234567A00 = some 0x1234567A00 ∧ pageOf 0x1234567A00 = (0x2468AC, 122) ∧
    placed.core.slotPa 0x2468AC = 0x308091A2B00 ∧ placed.core.pageLine 0x2468AC 3 = 0x30091A2B3 ∧ placed.core.lineAtOffset 0x1234567A00 = x7A := by decide
/-- 05, Home Sieve and Local Sieve examples. -/
theorem test_sieve_sets : hsIndex 0x1234567A00 = (0x067, 0x2468A) ∧ hsLineIndex 0x067 0x2468A = 0x1234567A ∧ lsSet x7A = 0xF67 ∧ lsTag x7A = 0x21234A := by decide
/-- 05, record example: Profile F, chips 1 and 2, forwarder 2. -/
theorem test_record_word : HomeRec.encode ⟨.sf, 2, .ptrs [1, 2]⟩ = 0x811042 ∧ HomeRec.decode 0x811042 = (⟨.sf, 2, .ptrs [1, 2]⟩, false) := by decide
/-- 07, slice_next of the worked line. -/
theorem test_slice_next : sliceNext x7A 8 = 0x212345685 := by decide
set_option exponentiation.threshold 2100 in
/-- 07, PARAM 0x2030 is a near ADD of 8 bytes at offset 0x40; 0xFF + 1 is 0x100, and the old value returns. -/
theorem test_atomic_add : atomBad 0x2030 = false ∧ (atomExec 0x2030 (0xFF <<< 512) 1 false).1 = 0x100 <<< 512 ∧
    (atomExec 0x2030 (0xFF <<< 512) 1 false).2.2 = 0xFF := by decide
/-- 06, ages over a wrapped tick, and the tie at agent pointer 0x7F0. -/
theorem test_ages : age 0x10 0xFFFFFE = 18 ∧ age 0x10 3 = 13 ∧ fromPtr 0x7F0#12 0x800 < fromPtr 0x7F0#12 0x0C5 := by decide
/-- 11 and 17, severity registers' reset values and the place of GALLEY_HARD of P7. -/
theorem test_severities : fltSevReset 0 = 0x92 ∧ fltSevReset 76 = 0x924924924924 ∧ fltSevReset 77 = 0x24 ∧
    (Core.reset.severityOf (32 * famGalleyHard + 7)) = 4 := by decide
/-- 12, agent 0x0C5 lies in lane 5 of the register at 0x00_4060, and lane 0b0101 is a listed, admitted caching agent. -/
theorem test_agent_lane : let s := reg 0x4060 0x500000 State.reset
    s.core.listed 0x0C5 = true ∧ s.core.isIo 0x0C5 = false ∧ s.core.admitted 0x0C5 = true ∧ s.core.listed 0x0C4 = false := by decide
/-- 12, the REG_WRITE of SIMMER_CTL: its packet sets the register and its reply is 0x2A11, 0. -/
theorem test_tow_reg_write : nextIs (fun t => t.reg 0x110 = 0x1000040 && (t.tow.replies.map Prod.snd).flatten = [0x2A11, 0])
    (exec (.streamPacket [0x100FF2A11, 0x110, 0x1000040]) (reg 0x110 0 lit)) = true := by decide
/-- 16, GATE_RGN example: the line in the disabled sub-region 7 is not permitted, a burst from sub-region 6 is. -/
theorem test_gate_region : let s := reg 0x44700 0x8000021000000021 (reg 0x44708 0x10 placed)
    (s.core.gateMatch gateDump 0 0x2100000DE00) = true ∧ s.core.gateMatch gateDump 0 0x2100000E000 = false := by decide
/-- 16, CNT_CFG(82) and CNT_CFG(83) of the example: 82 counts event 0x011, and 83 counts its carries. -/
theorem test_counter_chain : let s := reg 0x41290 0x411 (reg 0x41298 0xC00 lit)
    s.cntChained 83 = true ∧ s.cntChained 82 = false ∧ cntGroup 82 = 5 := by decide
/-- 10, a full image: 896 + 65,536 bytes fit, and a word more does not. -/
theorem test_image_length : State.towCheck rowMcLoadOpen (cmdAt 0xFF 66432) lit = none ∧
    State.towCheck rowMcLoadOpen (cmdAt 0xFF 66433) lit = some (tsBadParam, none) := by decide
/-- 18, an interrupt message's place: target 3's claim register lies at 0x10CE0 and its EOI at 0x10CE8. -/
theorem test_claim_place : 0x10C20 + 3 * 0x40 = 0x10CE0 ∧ nextIs (fun t => t.core.out.head? = some (.value 0x10CE0 0x3FF)) (exec (.irqClaim 3) lit) = true := by
  decide

/-- 09, the code: the generator polynomial is a codeword, and one with a symbol changed is none. -/
theorem test_rs_generator : (rsSyndromes (1 :: rsGen)).all (fun v => v = 0) = true ∧ (rsSyndromes (2 :: rsGen)).any (fun v => v != 0) = true ∧
    rsGen.length = 30 := by decide +kernel
/-- 09, a marker and a training block read as they were formed, a training block complemented too. -/
theorem test_blocks_read : (markerOf 5 3 7 1 9).extractLsb' 64 5 = 5 ∧ (markerOf 5 3 7 1 9).extractLsb' 94 8 = 9 ∧
    ((trainBlock (trainOf 3 17 2 7 0x3FFFF 5)).map (fun b => (b.inv, b.type, b.lane))) = some (false, 3, 17) ∧
    ((trainBlock (~~~(trainOf 3 17 2 7 0x3FFFF 5))).map (fun b => (b.inv, b.port, b.inst, b.good, b.flags))) = some (true, 2, 7, 0x3FFFF, 5) := by decide +kernel

/-! Commands on small states. -/

theorem test_read_enters_berth : nextIs (fun t => t.core.host.berths.map (fun b => (b.op, b.h.line, b.stamp)) = [(0x00, 5, 9)])
    (exec (.rdS (.fabric 0) (hdr 0 3 5)) (home.onCore (Core.onHost (fun h => { h with tick := 9 })))) = true := by decide
theorem test_request_elsewhere_refused : nextIs (fun t => t.core.host.berths = [] && t.core.flt.seq != 0)
    (exec (.rdS (.fabric 1) (hdr 0 3 5)) home) = true := by decide
theorem test_read_on_dark_port : nextIs (fun t => t.core.host.berths = []) (exec (.rdS (.fabric 0) (hdr 0 3 5)) State.reset) = true := by decide
theorem test_tag_twice : (home.onCore (Core.fabricRequest 0 0x00 (hdr 0 3 5))).tagHeld 0 (hdr 0 3 6) = true ∧
    ∃ s : State, exec (.rdO (.fabric 0) (hdr 0 3 6)) (home.onCore (Core.fabricRequest 0 0x00 (hdr 0 3 5))) = .next s := ⟨by decide, _, rfl⟩
theorem test_unknown_memory_tag : nextIs (fun t => t.core.flt.seq = 1) (exec (.memReadData 0 5 0 false 0) lit) = true := by decide
theorem test_wake_in_pilot : nextIs (fun t => t.core.block = .init && t.pwr.cause = 3) (exec (.plCtlWake 1) (blockIn .pilot)) = true := by decide
theorem test_power_good : nextIs (fun t => t.core.block = .init && t.pwr.cause = 1)
    (exec .pwrGoodRise { blockIn .pilot with pwr := { Pwr.reset with good := false } }) = true := by decide
theorem test_supply_lost : nextIs (fun t => t.core.block = .off) (exec .alwaysOnSupplyOff lit) = true := by decide
theorem test_counts_clear_on_read : nextIs (fun t => t.core.flt.lost = 0 && t.core.out.head? = some (.value 0x20418 7))
    (exec .fltStatRead (lit.onCore (fun k => { k with flt := { k.flt with lost := 7 } }))) = true := by decide
theorem test_seal_block : nextIs (fun t => t.core.block = .sealed_) (exec (.sealBlock (cmd 1)) lit) = true := by decide
theorem test_seal_needs_bit : nextIs (fun t => t.core.block = .standby && (t.tow.replies.map Prod.snd).flatten.head? = some 0x1101B2)
    (exec (.sealBlock (cmd 0)) lit) = true := by decide
theorem test_power_fail_holds : nextIs (fun t => t.core.pf.hold && t.core.pf.seen) (exec .pwrFailRecognise State.reset) = true := by decide

/-- 10, a difference that the window's signature shows rewinds the pair. -/
theorem test_rewind : nextIs (fun t => (t.gal 0).rewinds = 1) (exec (.galleyWindowClose 0 (.struck [0] [])) home) = true := by decide
/-- 10, a register that one parity vouches for is put right; one that both vouch for stays. -/
theorem test_sweep : nextIs (fun t => (t.gal 0).sweepFix = 1) (exec (.registerSweep 0 ⟨[⟨4, 1, 0⟩], 0, false, false⟩) home) = true ∧
    nextIs (fun t => (t.gal 0).sweepFix = 0) (exec (.registerSweep 0 ⟨[⟨4, 3, 0⟩], 0, false, false⟩) home) = true := by decide
/-- 06, a selection takes a cycle of its own. -/
theorem test_admission_selects : nextIs (fun t => (t.core.slice 0).selected.isSome && (t.core.slice 0).barges.isEmpty)
    (exec (.admission 0 true .clean none) (home.onCore (Core.fabricRequest 0 0x00 (hdr 0 3 0)))) = true := by decide
theorem test_idle_step : nextIs (fun t => decide (t.core.block = .init)) (step State.reset) = true := by decide

/-! For each statement with hypotheses, what meets them. -/

theorem witness_StepTakesFrontCommand : ({ lit with pending := [.ageTick] } : State).pending = .ageTick :: [] ∧ lit.pending = [] := by decide
theorem witness_UncheckedDutiesStopNothing :
    (let s := home.onCore (Core.fabricRequest 0 0x00 (hdr 0 3 5))
     s.Able ∧ s.core.doms.getLsbD 66 = true ∧ s.core.agentOk 0 (agentLocal (hdr 0 3 6).agent) = true ∧ s.tagHeld 0 (hdr 0 3 6) = true) ∧
    (let s : State := { lit with cul := { lit.cul with used := true } }
     s.Able ∧ State.idMoved s (s.writeGeneric 0x10 1) = true) ∧
    (let s := reg 0x4000 1 { home with start := { home.start with commit := { home.start.commit with lockedId := some 0 } } }
     s.Able ∧ s.badPresence 0 true = true) := by unfold State.Able; decide

theorem witness_CommandsLeaveTheQueue : nextIs (fun _ => true) (exec .ageTick lit) = true := by decide
theorem witness_InterruptControllerStaysSound : State.reset.irq.Ok ∧ nextIs (fun _ => true) (step { lit with pending := [.ageTick] }) = true :=
  ⟨⟨fun k _ => by simp [State.reset, Irq.reset], fun e h => absurd h (by simp [State.reset, Irq.reset]),
    fun e h => absurd h (by simp [State.reset, Irq.reset])⟩, by decide⟩
theorem witness_SparseArrays : Map.wf (0 : BitVec 256) [(0, 1), (7, 5)] = true ∧ mrising 0 home.core.regs = true ∧ (3 : Nat) ≠ 7 := by decide
theorem witness_QuietStepEnd : lit.powered = true ∧ lit.calm = true ∧ (State.commitAll lit lit).quiet = true ∧ (State.commitAll lit lit).powered = true ∧
    home.galRuns 0 = true ∧ State.committed home home 0 = [] ∧ (home.gal 0).items = [] ∧ (blockIn .off).powered = false ∧
    (blockIn .pilot).powered = false := by decide
theorem witness_InterruptSamples : irqReserved 0 = false ∧ irqReserved 127 = false ∧ irqReserved 255 = false ∧ irqReserved 7 = true := by decide
/-- Target 0 enabled, message-signalled with RESEND_US 1; source 0 pends for it, unmasked. -/
def Tests.irqLit : State := reg 0x10000 0 (reg 0x10C00 0x13 (reg 0x10800 0 ({ lit with irq := { lit.irq with pend := 1 } })))
theorem witness_InterruptSelection : irqLit.selected 0 = some 0 ∧ lit.selected 0 = none := by decide
/-- The same with a state of the target. -/
def Tests.irqTgt (x : IrqTarget) : State := { irqLit with irq := { irqLit.irq with targets := [(0, x)] } }
theorem witness_InterruptInputsAndMessages : lit.Able ∧
    ((irqTgt ⟨[], 0, true, false, some ⟨0, 0x1000, 1⟩⟩).tgt 0).wait = some ⟨0, 0x1000, 1⟩ ∧ (∀ u : Nat, ¬u < 0) ∧
    (bit ((irqTgt ⟨[], 0, true, false, none⟩).tgtCfg 0) 1 = true ∧ bits ((irqTgt ⟨[], 0, true, false, none⟩).tgtCfg 0) 15 4 ≠ 0 ∧
      ((irqTgt ⟨[], 0, true, false, none⟩).tgt 0).sent = true ∧ ((irqTgt ⟨[], 0, true, false, none⟩).selected 0).isSome = true) :=
  ⟨by unfold State.Able; decide, by decide, fun u => Nat.not_lt_zero u, by decide⟩
theorem witness_InterruptClaim : irqLit.Able ∧ irqLit.pilotOnly = false ∧ irqLit.selected 0 = some 0 ∧ (irqLit.tgt 0).stack.length < 16 ∧
    lit.selected 0 = none ∧ ((irqTgt ⟨List.replicate 15 (16, 0), 0, false, false, none⟩).tgt 0).stack.length < 16 := by unfold State.Able; decide
theorem witness_InterruptStack : irqLit.Able ∧ irqLit.pilotOnly = false ∧ bit 0x1F 4 = true ∧ bits 0x1F 3 0 ≤ (irqLit.tgt 0).running ∧
    bits 0x1F 3 0 = 15 ∧ ((irqTgt ⟨List.replicate 15 (15, 0), 0, false, false, none⟩).tgt 0).stack.length < 16 := by unfold State.Able; decide
theorem witness_RegisterReadsClearCounts : lit.Able ∧ lit.pilotOnly = false := by unfold State.Able; decide
theorem witness_RegisterValues : lit.pilotOnly = false ∧ State.reset.pilotOnly = true ∧ pilotReg 0x110 = false := by decide
theorem witness_GenericRegisterWrite : lit.Able ∧ lit.pilotOnly = false ∧ (0x114 : RegOff).toNat % 8 ≠ 0 ∧ 0x50000 ≤ (0x7FFF8 : RegOff).toNat ∧
    (0x7FFF8 : RegOff).toNat < 0x80000 ∧ 0x220000 ≤ (0xFFFFF8 : RegOff).toNat ∧ lit.locked = false ∧
    ({ lit with cul := { lit.cul with used := true } } : State).cul.used = true ∧ (1 : Word).extractLsb' 0 6 ≠ lit.self := by unfold State.Able; decide
theorem witness_FaultRegisterWrites : lit.Able ∧ lit.pilotOnly = false ∧ bit 0x10000 16 = true ∧
    (bit 0x1000000 24 = true ∧ bit 0x1000000 25 = false) ∧ (bit 0x2000000 24 = false ∧ bit 0x2000000 25 = true) := by unfold State.Able; decide
theorem witness_WatchRegisterWrites : lit.Able ∧ lit.pilotOnly = false := by unfold State.Able; decide
theorem witness_GateRegisterWrites : lit.Able ∧ lit.pilotOnly = false := by unfold State.Able; decide
/-- Slice 0 in a state. -/
def Tests.sliceIn (x : SliceSt) : State := slice0 (fun y => { y with st := x }) lit
/-- Slice 0 in a state, its clock divided by d. -/
def Tests.sliceDiv (x : SliceSt) (d : Nat) : State := (sliceIn x).onGal 0 (fun g => { g with div := d })
/-- Culvert port 0 as given. -/
def Tests.port0 (f : CPort → CPort) (s : State) : State := s.onPort 0 f
def Tests.portIn (x : CulSt) : State := port0 (fun y => { y with st := x }) lit
/-- An entry in set 0, way 0 of slice 0's Local Sieve, and a full spill buffer. -/
def Tests.fullSpill : State := slice0 (fun y => { y with
  ls := [(wayKey 0 0, ⟨0, ⟨.s, .shared, 0, 1⟩⟩)], spill := List.replicate 16 ⟨0, ⟨.s, .shared, 0, 1⟩⟩ }) lit
theorem witness_UnitRegisterWrites :
    ((sliceIn .serving).Able ∧ (sliceIn .serving).pilotOnly = false ∧ bit 1 0 = true ∧ ((sliceIn .serving).gal 0).split = false ∧
      ((sliceIn .serving).slice 0).st ≠ .dark) ∧
    (lit.core.doms.getLsbD 51 = true ∧ bit 0x7FFFE 0 = false) ∧ (bit 3 0 = true ∧ bit 3 1 = true ∧ bits 3 18 6 < 2 ^ Config.lsLog2Sets ∧
      mhas (fullSpill.slice 0).ls (wayKey (bits 3 18 6) (bits 3 5 2)) = true ∧ (fullSpill.slice 0).spill.length = 16) ∧
    (divOf 1 < ((sliceDiv .serving 2).gal 0).div ∧ ((sliceDiv .serving 2).gal 0).divLeave = false ∧ lit.pwr.queue = [] ∧ lit.pwr.shown = none) ∧
    (((sliceDiv .spare 1).gal 0).div < divOf 2 ∧ ((sliceDiv .spare 1).slice 0).st = .spare) ∧
    (((sliceDiv .serving 1).gal 0).div ≤ divOf 1 ∧ ((sliceDiv .serving 1).slice 0).st = .serving) ∧
    ((blockIn .pilot).tow.waiting = [] ∧ (blockIn .pilot).pwr.good = true ∧ (blockIn .pilot).core.block = .pilot) ∧
    (lit.core.block ≠ .pilot ∧ bit 0 0 = false) ∧
    ((portIn .reset).locked = false ∧ (portIn .reset).core.flt.sealCul.getLsbD 0 = false ∧ ((portIn .reset).cport 0).st = .reset ∧
      ((portIn .down).cport 0).st = .down) ∧
    (((portIn .active).cport 0).st ≠ .off ∧ bit 0x1E 0 = false) := by unfold State.Able; decide

/-- The words of a packet that carries a payload. -/
def Tests.cmdWith (p : Word) (l : List Word) : TowCmd := ⟨.stream, 1, 0xFF, 0, 0, p, l⟩
theorem witness_CommandChecksInOrder : ¬(lit.core.block = .pilot ∧ rowPwrIdle.states.contains .pilot = false) ∧
    State.towCheck rowPwrIdle (cmd 1) lit = some (0x20, none) ∧ lit.core.block ≠ .pilot ∧ rowOf 0xFF = none ∧
    State.towCheck rowSealBlock (cmd 0) lit = some (0x11, none) ∧ State.towCheck rowSealBlock (cmdWith 0 [0]) lit = some (0x12, none) ∧
    State.towCheck rowNop { cmd 0 with flags := 1 } lit = some (0x40, none) := by decide
/-- A short command of the streaming port has its reply still to come. -/
def Tests.waitsFor : State := lit.onTow (fun t => { t with running := [⟨0, .stream, 0x20, 0, [], false, false, true⟩] })
theorem witness_AcceptedCommandRuns : lit.Takes rowNop (cmd 0) ∧ waitsFor.viaOpen .stream = true ∧ waitsFor.towHeld .stream = true := by
  unfold State.Takes; decide
/-- One running command of a transport. -/
def Tests.runs (v : Via) (long live : Bool) : State := lit.onTow (fun t => { t with running := [⟨4, v, 0x22, 1, [], false, long, live⟩] })
theorem witness_RepliesByTransport : (runs .stream false true).tow.running.find? (fun r => r.id = 4) = some ⟨4, .stream, 0x22, 1, [], false, false, true⟩ ∧
    (runs .stream true false).tow.running.find? (fun r => r.id = 4) = some ⟨4, .stream, 0x22, 1, [], false, true, false⟩ ∧
    (runs .stream true true).tow.running.find? (fun r => r.id = 4) = some ⟨4, .stream, 0x22, 1, [], false, true, true⟩ ∧
    (runs .wire true true).tow.running.find? (fun r => r.id = 4) = some ⟨4, .wire, 0x22, 1, [], false, true, true⟩ ∧
    (runs (.window 7) true true).tow.running.find? (fun r => r.id = 4) = some ⟨4, .window 7, 0x22, 1, [], false, true, true⟩ := by decide
theorem witness_SessionCommands : lit.Takes rowNop (cmd 0) ∧ lit.Takes rowIdentify (cmd 0) ∧ lit.Takes rowTagQuery (cmd 0xFF) ∧
    lit.Takes rowTransportReset (cmd 0) := by unfold State.Takes; decide
theorem witness_RegisterCommands : lit.Takes rowRegRead (cmd 0x110) ∧ lit.Takes rowRegReadBlock (cmd 0x200000110) ∧
    lit.Takes rowRegWrite (cmdWith 0x110 [1]) ∧ lit.Takes rowRegWriteMasked (cmdWith 0x110 [1, 1]) ∧ lit.Takes rowCharterLoad (cmdWith 0 [0x110, 1]) ∧
    (bits 0xFFFFF8 63 24 = 0 ∧ bits 0xFFFFF8 23 0 % 8 = 0) ∧ bits 0x1000000 63 24 ≠ 0 ∧ bits 4 23 0 % 8 ≠ 0 := by unfold State.Takes; decide
/-- A locked charter with a generation. -/
def Tests.chartered (g : BitVec 48) : State := (blockIn .chartered).onCore (Core.onEng (fun e => { e with generation := g }))
/-- The same under Trim 0b10, with its four logical slices served. -/
def Tests.ready4 : State := maps 3 (maps 2 (maps 1 (maps 0 ((chartered 1).onCore (Core.onHost (fun h => { h with trim := 2 }))))))
theorem witness_DomainCommands : lit.Takes rowCharterCheck (cmd 0) ∧ lit.Takes rowCharterCommit (cmd 5) ∧ (chartered 0).Takes rowCharterRelease (cmd 0) ∧
    lit.Takes rowDiscover (cmd 1) ∧ (chartered 0).Takes rowGenAdvance (cmd 1) ∧ ready4.Takes rowServiceEnter (cmd 0) := by unfold State.Takes; decide +kernel
/-- What both barred SERVICE_ENTERs need of the state. -/
def Tests.bars (s : State) : Bool := s.tow.waiting.isEmpty && s.viaOpen .stream && !s.towHeld .stream && s.core.block = .chartered && s.towPriv .stream = 0 &&
  !wirIntrusive s.pwr.wir && !s.core.pf.hold
theorem witness_DomainCommands_barred : bars (chartered 0) = true ∧ bars (chartered 1) = true ∧ (cmd 0).flags &&& 0xFE = 0 ∧
    (chartered 0).core.eng.generation = 0 ∧ (chartered 1).core.eng.generation = 1 ∧ 15 < trimSize (chartered 1).core.host.trim ∧
    (chartered 1).core.mapped 15 = false := by decide
/-- The tombstone of agent 0. -/
def Tests.tomb0 (s : State) : State := s.onCore (Core.onHost (fun h => { h with tomb := [(0, 1)] }))
theorem witness_AgentCommands : (home.Takes rowAgentAdmit (cmd 0) ∧ (home.begun rowAgentAdmit (cmd 0)).core.tombed 0 = false) ∧
    ((tomb0 home).Takes rowAgentAdmit (cmd 0) ∧ ((tomb0 home).begun rowAgentAdmit (cmd 0)).core.tombed 0 = true ∧
      agentInst 0 = ((tomb0 home).begun rowAgentAdmit (cmd 0)).self) ∧
    (home.Takes rowAgentRetire (cmd 0x100000040) ∧ agentInst 0x040 ≠ (home.begun rowAgentRetire (cmd 0x100000040)).self) ∧
    (home.Takes rowAgentRetire (cmd 0x100000000) ∧ agentInst 0 = (home.begun rowAgentRetire (cmd 0x100000000)).self) := by unfold State.Takes; decide
/-- An AGENT_RETIRE and an AGENT_ADMIT of agent 0 under way. -/
def Tests.retiring : State := { home with start := { home.start with retires := [⟨0, 0, false, false⟩] } }
def Tests.admitting : State := { home with start := { home.start with admits := [⟨0, 0, 8192⟩] } }
theorem witness_AgentCommands_ends : (retiring.Able ∧ retiring.start.retires.any (fun r => r.agent = 0 && !r.dead) = true) ∧
    (admitting.Able ∧ admitting.start.admits.find? (fun e => e.agent = 0) = some ⟨0, 0, 8192⟩ ∧ admitting.core.buckets ≤ 8192 ∧
      admitting.core.sweeping (agentLocal 0) = false) := by unfold State.Able; decide
theorem witness_AdmittedBit : mrising 0 home.core.regs = true ∧ Map.wf 0 (tomb0 home).core.host.tomb = true ∧ (0x001 : AgentId) ≠ 0 := by decide
/-- The block in SERVICE with slice 0 in a state, every domain of slice 1 off. -/
def Tests.slice0In (x : SliceSt) : State := slice0 (fun y => { y with st := x, logical := some 0, mode := .service }) serving
/-- Slice 0 with an image in its control store. -/
def Tests.holds (s : State) : State := slice0 (fun y => { y with control := { Store.none with st := .verified } }) s
theorem witness_SliceCommands : (slice0In .dark).Takes rowSlicePower (cmdAt 0 7) ∧ (slice0In .ready).Takes rowSliceSpare (cmdAt 0 0) ∧
    (holds (sliceIn .ready)).Takes rowSliceServe (cmdAt 0 0) ∧ (sliceIn .serving).Takes rowSliceDrain (cmdAt 0 1) ∧
    ((slice0In .serving).onCore (Core.onSlice 1 (fun y => { y with st := .spare, control := { Store.none with st := .verified } }))).Takes rowSliceSwap (cmdAt 0 1) ∧
    (slice0In .serving).Takes rowSliceFailover (cmdAt 0 1) ∧ (slice0In .serving).core.serves 0 = true ∧
    (slice0In .proof).Takes rowSliceFailover (cmdAt 0 1) ∧ (slice0In .proof).core.serves 0 = false ∧
    serving.Takes rowLsRebuild (cmd 0xFFFF) ∧ serving.Takes rowLsRebuild (cmd 0) := by unfold State.Takes; decide
/-- A load of target 0: open, or with its close under way and slice 0 still to check. -/
def Tests.loads (close : Bool) : State := { slice0 (fun y => { y with st := .ready, standby := { Store.none with st := .loading, expect := 912 } }) lit with
  start := { lit.start with loads := [⟨0, [0], 0, 0, if close then some 0 else none, if close then [0] else [], []⟩] } }
theorem witness_ImageLoads : lit.Takes rowMcLoadOpen (cmdAt 0xFF 912) ∧ (loads false).Takes rowMcLoadData (cmdAt 0 0 |> fun c => { c with payload := [0] }) ∧
    (loads false).Takes rowMcLoadClose (cmdAt 0 0) ∧
    ((loads false).begun rowMcLoadClose (cmdAt 0 0)).openLoad (cmdAt 0 0) = some ⟨0, [0], 0, 0, none, [], []⟩ ∧
    lit.Takes rowMcDiscard (cmdAt 0 0) := by unfold State.Takes; decide
theorem witness_ImageLoads_check : (loads true).Able ∧
    (loads true).start.loads.find? (fun l => l.cmd.isSome && l.left.head? = some 0) = some ⟨0, [0], 0, 0, some 0, [0], []⟩ := by
  unfold State.Able; decide

/-- Slice 0 in a state of a block in SERVICE, with whole images in both stores. -/
def Tests.imaged (x : SliceSt) : State := slice0 (fun y => { y with
  control := { Store.none with st := .verified }, standby := { Store.none with st := .verified } }) (slice0In x)
theorem witness_CutOverAndProof : ((imaged .serving).Takes rowMcActivate (cmdAt 0 0) ∧
      (((imaged .serving).begun rowMcActivate (cmdAt 0 0)).slice 0).st = .serving) ∧
    ((imaged .spare).Takes rowMcActivate (cmdAt 0 0) ∧ (((imaged .spare).begun rowMcActivate (cmdAt 0 0)).slice 0).st ≠ .serving) ∧
    (imaged .serving).Takes rowMcProofStart (cmdAt 0 0) ∧ (imaged .spare).Takes rowMcProofStart (cmdAt 0 0) ∧
    (slice0In .proof).Takes rowMcProofEnd (cmdAt 0 1) ∧ (slice0In .proof).Takes rowMcProofLogRead (cmdAt 0 0x100) := by unfold State.Takes; decide
/-- Instance 0's first GiB as a reserved range. -/
def Tests.resvHome : State := reg 0x1000 0x8000000000000000 (reg 0x1008 0x1F0000000000000 lit)
/-- An overlay that runs, and a proof log of one entry. -/
def Tests.overlaid : State := { lit with start := { lit.start with overlay := some ⟨0, 0x1000, true, true⟩ } }
def Tests.logged : State := lit.onGal 0 (fun g => { g with log := [7] })
theorem witness_CutOverAndProof_overlay : (resvHome.Takes rowLkOverlay (cmd 0x1000) ∧
      (resvHome.begun rowLkOverlay (cmd 0x1000)).core.gatePermits gateOverlay gExec (cmd 0x1000).param.toNat = true) ∧
    (lit.Takes rowLkOverlay (cmd 0x1000) ∧ (lit.begun rowLkOverlay (cmd 0x1000)).core.gatePermits gateOverlay gExec (cmd 0x1000).param.toNat = false) ∧
    (overlaid.Able ∧ overlaid.start.overlay = some ⟨0, 0x1000, true, true⟩) ∧ (logged.gal 0).log[0 + 0]? = some 7 := by
  unfold State.Takes State.Able; decide
/-- `home` with LARDER_INFO giving one unit of memory and a generation. -/
def Tests.housed (g : BitVec 48) : State := (reg 0x408 8 home).onCore (Core.onEng (fun e => { e with generation := g }))
theorem witness_DirectoryCommands : (slice0In .serving).Takes rowDirDump (cmdAt 0 0x100000000) ∧ (housed 1).Takes rowDirRebuild (cmd 0) ∧
    ((housed 0).Takes rowLarderRead (cmd 0) ∧ ((housed 0).begun rowLarderRead (cmd 0)).core.eng.generation = 0) ∧
    ((housed 1).Takes rowLarderRead (cmd 0) ∧ ((housed 1).begun rowLarderRead (cmd 0)).core.eng.generation ≠ 0) ∧
    (home.Takes rowMaintAddr (cmd 0x2) ∧ maintOf (bits (cmd 0x2).param 1 0) = some .cleanInvalidate) ∧
    ((slice0In .serving).Takes rowMaintEntry (cmdAt 0 0x12F) ∧ maintOf (bits (cmdAt 0 0x12F).param 9 8) = some .invalidate) := by
  unfold State.Takes; decide
/-- Culvert port 0 ACTIVE in SERVICE, its two spares unused. -/
def Tests.linked : State := port0 (fun y => { y with st := .active, rxMap := (List.range 18).map (fun k => (k, k)) }) serving
/-- Destination 1 on its alternative route, its primary port 0 not ACTIVE. -/
def Tests.detour : State := { serving with cul := { serving.cul with onAlt := 2 } }
theorem witness_CulvertCommands : linked.Takes rowCulRetrain (cmdAt 0x20 0) ∧ linked.Takes rowCulSpare (cmdAt 0x20 0x1F) ∧
    serving.Takes rowCulRouteReturn (cmd 0) ∧ detour.Takes rowCulRouteReturn (cmd 2) ∧
    ((detour.begun rowCulRouteReturn (cmd 2)).cport ((detour.begun rowCulRouteReturn (cmd 2)).primary 1)).st ≠ .active ∧
    lit.Takes rowCulStatus (cmdAt 0x25 0) := by unfold State.Takes; decide
/-- The block in Idle or not, and a hold that may be released. -/
def Tests.idleIn (b : Bool) : State := { serving with pwr := { serving.pwr with idle := b } }
def Tests.heldBlock : State := serving.onCore (fun k => { k with pf := { k.pf with seen := true, hold := true, drainDone := true } })
/-- Half B of the berth array off. -/
def Tests.halfOff : State := (idleIn true).onCore (fun k => { k with doms := clearBit k.doms 76 })
theorem witness_PowerCommands : (serving.Takes rowPwrTrim (cmd 0) ∧ bits (cmd 0).param 1 0 = (serving.begun rowPwrTrim (cmd 0)).core.host.trim) ∧
    (serving.Takes rowPwrTrim (cmd 2) ∧ bits (cmd 2).param 1 0 ≠ (serving.begun rowPwrTrim (cmd 2)).core.host.trim) ∧
    (∀ b : Bool, (idleIn b).Takes rowPwrIdle (cmd 0) ∧ (idleIn b).Takes rowPwrIdle (cmd 1) ∧ ((idleIn b).begun rowPwrIdle (cmd 0)).pwr.idle = b ∧
      ((idleIn b).begun rowPwrIdle (cmd 0)).halvesOff = []) ∧
    (halfOff.Takes rowPwrIdle (cmd 0) ∧ (halfOff.begun rowPwrIdle (cmd 0)).pwr.idle = true ∧ (halfOff.begun rowPwrIdle (cmd 0)).halvesOff ≠ []) ∧
    lit.Takes rowPwrDeep (cmd 0) := by unfold State.Takes; decide
theorem witness_PowerCommands_units :
    ((idleIn true).Takes rowPwrHalf (cmd 4) ∧ bit (cmd 4).param 2 = ((idleIn true).begun rowPwrHalf (cmd 4)).core.doms.getLsbD 74) ∧
    (halfOff.Takes rowPwrHalf (cmd 5) ∧ bit (cmd 5).param 2 = true ∧ (halfOff.begun rowPwrHalf (cmd 5)).core.doms.getLsbD 76 = false) ∧
    ((idleIn true).Takes rowPwrHalf (cmd 3) ∧ bit (cmd 3).param 2 = false ∧ ((idleIn true).begun rowPwrHalf (cmd 3)).core.doms.getLsbD 77 = true) ∧
    heldBlock.Takes rowPfRelease (cmd 0) ∧ ((blockIn .standby).onCore (fun k => { k with doms := 0 })).Takes rowPortPower (cmdAt 0x20 1) ∧
    (lit.Takes rowPortPower (cmdAt 0x2C 0) ∧ (unitDoms 0x2C).all (fun d => !(lit.begun rowPortPower (cmdAt 0x2C 0)).core.doms.getLsbD d) = false) := by
  unfold State.Takes; decide
/-- The memory ports' domains off. -/
def Tests.portsOff : State := lit.onCore (fun k => { k with doms := 0 })
theorem witness_PowerCommands_off : portsOff.Takes rowPortPower (cmdAt 0x2F 0) ∧
    (unitDoms 0x2F).all (fun d => !(portsOff.begun rowPortPower (cmdAt 0x2F 0)).core.doms.getLsbD d) = true := by unfold State.Takes; decide
/-- A dump under way. -/
def Tests.dumping : State := { serving with watch := { serving.watch with dump := some ⟨1, 0, [], 0, [], []⟩ } }
theorem witness_ObservabilityCommands : serving.Takes rowCntRead (cmd 0x200) ∧ serving.Takes rowLogbookRead (cmd 0x107FF) ∧
    (serving.Takes rowDumpNow (cmd 0) ∧ (serving.begun rowDumpNow (cmd 0)).watch.dump = none) ∧
    (dumping.Takes rowDumpNow (cmd 0) ∧ (dumping.begun rowDumpNow (cmd 0)).watch.dump.isSome = true) ∧ serving.Takes rowLogRead (cmd 0x10001) ∧
    serving.Takes rowFltInject (cmd 2) ∧ serving.Takes rowSealBlock (cmd 1) := by unfold State.Takes; decide
theorem witness_TransportEvents : lit.tow.waiting = [] ∧ lit.pilotOnly = false ∧ ([] : List Word).length = bits 0 47 32 ∧ ([0] : List Word).length ≠ bits 0 47 32 ∧
    lit.wireOn = true ∧ wordsOfBytes 16 (List.replicate 16 0) = [0, 0] ∧
    (List.replicate 16 (0 : BitVec 8)).length = 16 + 8 * bits 0 47 32 ∧ lit.tow.wire = some [] ∧ (lit.onTow (fun t => { t with wire := none })).tow.wire = none ∧
    (lit.onTow (fun t => { t with wireRead := some 2 })).tow.wireRead = some 2 ∧ lit.Able := by unfold State.Able; decide
theorem witness_MmioAccess : lit.tow.waiting = [] ∧ lit.mmioOpen 0 = true ∧ (2 : BitVec 2) ≠ 3 ∧ (0xFFFC : BitVec 16).toNat % 8 ≠ 0 ∧
    (0xFFF8 : BitVec 16).toNat % 8 = 0 ∧
    (lit.window (0x7FF8 / 0x1000)).busy = false ∧ ((lit.putWindow 7 { Window.none with busy := true }).window (0x7FF8 / 0x1000)).busy = true ∧
    0x7FF8 % 0x1000 ≠ 0x20 ∧ State.reset.mmioOpen 0 = false := by decide

/-- Header of a request of agent 0 for the line at address 0, and the block that has taken it. -/
def Tests.h0 : Hdr := hdr 0 3 0
def Tests.asked : State := home.onCore (Core.fabricRequest 0 0x00 h0)
theorem witness_FabricRequests : home.tow.waiting = [] ∧ State.reset.fabOn 0 = false ∧ home.fabOn 0 = true ∧ home.tagHeld 0 h0 = false ∧
    (asked.tow.waiting = [] ∧ asked.fabOn 0 = true ∧ asked.core.agentOk 0 (agentLocal h0.agent) = true ∧ asked.tagHeld 0 h0 = true) ∧
    heldBlock.fabOn 0 = true ∧ (heldBlock.core.agentOk 0 (agentLocal h0.agent) && heldBlock.tagHeld 0 h0) = false ∧ heldBlock.core.stopped = true ∧ home.core.stopped = false ∧
    home.core.agentOk 0 (agentLocal h0.agent) = true ∧ home.core.frz.st = 0 ∧ home.core.headerRoom (.fabric 0) (home.core.ingress 0 h0) 0 = true ∧
    (home.core.isIo 0 && ioForbidden 0) = false ∧ (home.core.homeOf h0.line).isSome = true ∧ atomBad (home.core.ingress 0x18 { h0 with param := 0x30 }).param = false := by
  decide
/-- A freeze, and agent 0 as an I/O agent. -/
def Tests.frozen : State := (tomb0 home).onCore (fun k => { k with frz := { k.frz with st := 1 } })
def Tests.ioAgent : State := reg 0x4000 7 home
theorem witness_RequestChecks : home.core.agentOk 1 0 = false ∧ home.core.agentOk 0 0 = true ∧ frozen.core.frz.st ≠ 0 ∧ frozen.core.tombed 0 = true ∧
    asked.core.headerRoom (.fabric 0) (asked.core.ingress 0 h0) 0 = false ∧ home.core.headerRoom (.fabric 0) (home.core.ingress 0 h0) 0 = true ∧
    (ioAgent.core.isIo 0 && ioForbidden 0x00) = true ∧ (home.core.homeOf (hdr 0 3 0x400000).line).isNone = true ∧ (home.core.homeOf (hdr 0 3 0x3FFFFF).line).isSome = true ∧
    atomBad 0xF = true ∧ home.core.fabOpen 0 = true ∧ h0.credit = false ∧ ({ h0 with credit := true } : Hdr).credit = true := by decide
/-- A barge that waits, for an item and a line. -/
def Tests.barge (i : Item) (x : LineAddr) : Barge := { id := 50, grp := 0, item := i, line := x, stamp := 0 }
/-- A barge of slice 0 for agent 0's request, with a snoop of an opcode to local agent 0 under it. -/
def Tests.snooped (op : BitVec 8) : State := asked.onCore (Core.onSlice 0 (fun y => { y with
  barges := [{ barge (.req 0) 0 with phase := .atHome, locals := [{ loc := 0, op := op, hint := 0, sent := true }] }] }))
theorem witness_FabricResponses : (snooped 0x40).tow.waiting = [] ∧ (snooped 0x40).fabOn 0 = true ∧ (snooped 0x40).core.stopped = false ∧
    (snooped 0x40).core.agentOk 0 (agentLocal h0.peer) = true ∧ (snooped 0x40).core.frz.st ≠ 2 ∧
    ((snooped 0x40).core.localSnoop 0 h0 (fun _ n => n.rsp.isNone)).isSome = true ∧ home.core.localSnoop 0 h0 (fun _ n => n.rsp.isNone) = none := by decide
/-- Requests with data of agent 0, and data of it that has come before. -/
def Tests.writer : State := home.onCore (Core.fabricRequest 0 0x10 h0)
def Tests.earlyData : State := home.onCore (Core.onHost (fun x => { x with early := [⟨0, 0, 3, false, opDatNa, ⟨0, 0, false⟩, false, false⟩] }))
/-- An own-account WB_D of agent 2. -/
def Tests.ownWb : Berth :=
  { id := 90, op := opWbD, h := hdr 2 0 0, own := true, pool := false, port := none, stamp := 0, hash := 0, seq := 0 }
/-- Every pool data slot of port 0 taken; every slot of the chamber data reserve taken. -/
def Tests.dataFull (s : State) : State := s.onCore (Core.onHost (fun x => { x with
  early := x.early ++ List.replicate 512 ⟨0, 1, 9, true, opDatNa, ⟨0, 0, false⟩, false, false⟩ }))
def Tests.reserveFull (s : State) : State := s.onCore (Core.onHost (fun x => { x with
  berths := x.berths ++ List.replicate 256 ownWb }))
/-- The engine as data of DAT opcode op finds it. -/
def Tests.sees_ (s : State) : Core := s.core.bump (unitFab 0) 0x112 2
theorem witness_FabricData : (home.tow.waiting = [] ∧ home.fabOn 0 = true ∧ home.core.stopped = false ∧ home.core.agentOk 0 (agentLocal h0.peer) = true ∧
      home.core.frz.st ≠ 2) ∧ h0.srci = home.self ∧ (sees_ home).snoopFor 0 opDatNa h0 = none ∧ h0.hint.getLsbD 2 = false ∧
    (writer.core.host.berths.find? (fun b => b.h.agent = 0 && b.h.tag = h0.tag && !b.full && carriesData b.op && ((b.op = opWbD) == false))).isSome = true ∧
    (sees_ writer).dataRoom (.fabric 0) opDatNa h0 = true ∧ (sees_ (dataFull writer)).dataRoom (.fabric 0) opDatNa h0 = false ∧
    home.core.host.berths = [] ∧ earlyData.core.host.early.any (fun x => x.port = 0 && x.loc = 0 && x.tag = h0.tag && x.op = opDatNa) = true ∧
    home.core.host.early.any (fun x => x.port = 0 && x.loc = 0 && x.tag = h0.tag && x.op = opDatNa) = false ∧
    ((sees_ home).snoopFor 0 opDatM { h0 with hint := 4, agent := 1 } = none ∧ agentLocal ({ h0 with agent := 1 } : Hdr).agent ≠ 0) := by decide +kernel
theorem witness_FabricData_snooped : ((sees_ (snooped opSnpI)).snoopFor 0 opDatM { h0 with hint := 4 }).isSome = true ∧ ({ h0 with hint := 4 } : Hdr).hint.getLsbD 2 = true ∧
    (sees_ (snooped opSnpI)).reserveUsed < (sees_ (snooped opSnpI)).dataReserve ∧
    ((sees_ (reserveFull (snooped opSnpI))).snoopFor 0 opDatM { h0 with hint := 4 }).map (fun e => (sees_ (reserveFull (snooped opSnpI))).ownSlot e.2.1) = some false ∧
    (sees_ (reserveFull (snooped opSnpI))).dataReserve ≤ (sees_ (reserveFull (snooped opSnpI))).reserveUsed ∧
    (∀ op ∈ [opSnpFs, opSnpFo], ((sees_ (snooped op)).snoopFor 0 opDatS h0).isSome = true) ∧
    ((sees_ (snooped opSnpNa)).snoopFor 0 opDatNa h0).isSome = true ∧ h0.hint.getLsbD 2 = false ∧ h0.poison = false := by
  simp only [List.forall_mem_cons]; decide +kernel
theorem witness_CulvertMessages : (linked.Able ∧ (linked.cport 0).st = .active ∧ h0.dsti = linked.self ∧ linked.core.stopped = false) ∧
    (serving.cport 0).st ≠ .active ∧ ({ h0 with dsti := 1 } : Hdr).dsti ≠ linked.self ∧
    (linked.onCore (fun k => { k with pf := { k.pf with hold := true } })).core.stopped = true := by unfold State.Able; decide
/-- As many waiting snoops of instance 0. -/
def Tests.intakeOf (n : Nat) : State := home.onCore (Core.onHost (fun x => { x with intake := List.replicate n { id := 0, op := 0x40, h := h0, stamp := 0, hash := 0, slice := none } }))
theorem witness_MessagesTaken : lit.core.toSend = [] ∧ lit.core.up = [] ∧ lit.core.flt.raised = [] ∧ lit.core.nextTask.isNone = true ∧
    ({ lit with cul := { lit.cul with inbox := [(0, culIn 0xD0 h0 none)] } } : State).cul.inbox = [(0, culIn 0xD0 h0 none)] ∧
    (culIn 0xC1 h0 none).m.op = 0xC1 ∧ (culIn 0xC6 h0 none).m.op ≠ 0xC1 ∧ h0.dsti = home.self ∧ home.core.stopped = false ∧
    ((intakeOf 15).core.host.intake.filter (fun i => i.h.srci = h0.srci)).length < 16 ∧
    16 ≤ ((intakeOf 16).core.host.intake.filter (fun i => i.h.srci = h0.srci)).length ∧ home.core.frz.st = 0 ∧
    home.core.host.berths.any (fun b => b.h.agent = 0 && b.h.tag = h0.tag && (b.own == false) && b.op = 0x00 && b.port.isNone) = false ∧
    (culIn 0xD0 h0 none).cells = none ∧ ({ culIn 0xD0 h0 none with cells := some ⟨0, 7, 1, 0⟩ } : CulMsg).cells = some ⟨0, 7, 1, 0⟩ ∧
    home.core.host.waitData.any (fun w => w.2 = (culIn 0xD0 h0 none).m) = false ∧ home.core.headerRoom (.culvert 0) h0 0x00 = true ∧
    ((home.onCore (Core.chipRequest 0 0x00 h0)).core.headerRoom (.culvert 0) { h0 with tag := 4 } 0x00) = false ∧
    home.core.block ≠ .off ∧ home.core.block ≠ .pilot ∧ home.core.eng.generation = 0 := by decide
/-- A control store whose one program is END, for opcode 0x00. -/
def Tests.endProgram : Store := { Store.none with
  st := .verified
  words := (List.range 97).map (fun i => if i = 2 then 0x10000 else if i = 32 then 0x1000 else if i = 96 then 9 else 0) }
/-- Agent 0's request with that store; a snoop beside it; an internal operation. -/
def Tests.programmed : State := slice0 (fun y => { y with control := endProgram }) asked
def Tests.snoopToo (n : Nat) : State := (slice0 (fun y => { y with snoopRun := n }) asked).onCore (Core.onHost (fun x => { x with intake := [{ id := 1, op := 0x40, h := h0, stamp := 0, hash := 0, slice := none }] }))
def Tests.tidies : State := slice0 (fun y => { y with internals := [⟨9, .tidy, 0, 0⟩] }) home
/-- An arbiter that holds an item. -/
def Tests.holdsItem (k : Selected) (s : State) : State := slice0 (fun y => { y with selected := some k }) s
theorem witness_SliceCommandsOfEngine : home.Able ∧ home.core.stopped = false ∧ (home.core.slice 0).selected = none ∧ home.core.choice 0 = none ∧
    ((holdsItem (.berth 700) asked).core.slice 0).selected = some (.berth 700) ∧ (holdsItem (.berth 700) asked).core.picked 0 (.berth 700) = none ∧
    tidies.core.choice 0 = some (.internal ⟨9, .tidy, 0, 0⟩) ∧
    (holdsItem (.internal 9) tidies).core.picked 0 (.internal 9) = some (.internal ⟨9, .tidy, 0, 0⟩) ∧
    (programmed.core.choice 0).bind pickHead = some (0, 0, 0) ∧ (programmed.gal 0).split = false ∧
    uEnter (programmed.slice 0).control (programmed.slice 0).mode 0 programmed.core.freeCtr = .ended (programmed.slice 0).mode programmed.core.freeCtr ∧
    uEnter (asked.slice 0).control (asked.slice 0).mode 0 asked.core.freeCtr = .illegal 0 asked.core.freeCtr ∧
    ((snoopToo 2).core.bestSnoop 0).isSome = true ∧ ((snoopToo 3).core.bestOther 0).isSome = true := by
  refine ⟨by unfold State.Able; decide, ?_⟩; decide
/-- A chamber of the line at address 0 whose one barge waits. -/
def Tests.chamber (i : Item) : State := slice0 (fun y => { y with chambers := [⟨0, [50]⟩], barges := [barge i 0] }) home
def Tests.simmers : State := slice0 (fun y => { y with simmer := [⟨0, .chip 3, 100⟩] }) home
theorem witness_SliceCommandsOfEngine_heads : home.core.nextHead 0 0 = none ∧
    (chamber (.snoop 1)).core.nextHead 0 0 = some (barge (.snoop 1) 0) ∧ (barge (.snoop 1) 0).item = .snoop 1 ∧
    (chamber (.internal .tidy)).core.nextHead 0 0 = some (barge (.internal .tidy) 0) ∧
    ((asked.core.slice 0).barges.filter (fun x => x.grp = 0)).length < groupSize 0 ∧ ((asked.core.slice 0).barges.filter (fun x => x.grp = 3)).length < groupSize 3 ∧
    asked.core.host.berths.all (fun b => !b.posted && !b.fwd && b.op != 0x20) = true ∧ mrising 0 asked.core.slices = true ∧
    LookErr.skilletTag ∉ [LookErr.predictor] ∧ LookErr.control ∈ [LookErr.control] ∧
    (home.core.slice 0).simmering 0 (.chip 3) = false ∧ (simmers.core.slice 0).simmering 0 (.chip 3) = true ∧
    (simmers.core.slice 0).barges.any (fun b => b.line = 0) = false := by decide
/-- A transfer at Wharf destination 0; spilled entries; dirty Skillet entries; a census of chip 3. -/
def Tests.crossing : State := home.onCore (fun k => { k with wharf := ⟨[⟨2, 31, 0, 0, .culvert (culIn 0xD0 h0 none) []⟩], [], []⟩ })
/-- A dirty record that its slice's patrol reaches next, DIRTY_HIGH at 0. -/
def Tests.hsDirty : State := reg 0x450 0 (slice0 (fun y => { y with hs := [(0, ⟨true, 0, HomeRec.none⟩)] }) home)
def Tests.spilled : State := slice0 (fun y => { y with spill := [⟨0, ⟨.s, .shared, 0, 1⟩⟩] }) home
def Tests.sklFull : State := reg 0x140 0 (slice0 (fun y => { y with skl := [(0, ⟨true, false, false, false, 0, 0, 0, false, 0, none⟩)] }) home)
def Tests.walking : State := home.onCore (Core.onEng (fun e => { e with censuses := [⟨3, 0, 0, 0⟩] }))
theorem witness_EngineCommands : home.Able ∧ home.core.stopped = false ∧ home.core.wharfPick 0 = none ∧ (crossing.core.wharfPick 0).isSome = true ∧
    (home.core.slice 0).spill = [] ∧ (spilled.core.slice 0).spill.length = 1 ∧ spilled.core.eng.move = none ∧ spilled.core.eng.ovf = [] ∧
    (home.core.slice 0).sklDirty ≤ home.core.sklHigh ∧ sklFull.core.sklHigh < (sklFull.core.slice 0).sklDirty ∧ sklFull.core.mem.writes = [] ∧
    lruOf ((sklFull.core.slice 0).skl.filter (fun e => e.2.dirty && !e.2.pinned)) = some 0 ∧
    (home.core.slice 0).heldDirty ≤ Nat.min 1024 (bits (home.reg 0x450) 10 0) ∧ heldBlock.core.stopped = true ∧
    (crossing.core.halfErr 1 none).wharfPick 0 ≠ none ∧ Nat.min 1024 (bits (hsDirty.reg 0x450) 10 0) < (hsDirty.core.slice 0).heldDirty ∧
    (pickBy (fun (a b : Nat × HsWay) => decide (a.1 < b.1))
      ((hsDirty.core.slice 0).hs.filter (fun e => e.2.dirty && !hsDirty.core.hsPinned 0 (e.1 / 16) e.2))).isSome = true := by unfold State.Able; decide
theorem witness_EngineCommands_more :
    ({ home with pwr := { home.pwr with gated := 1 } } : State).clockGated 0 = true ∧ home.clockGated 0 = false ∧ home.core.serves 1 = false ∧
    home.core.serves 0 = true ∧ (home.core.slice 0).ceWays = [] ∧ home.core.eng.generation = 0 ∧ (housed 1).core.eng.generation ≠ 0 ∧
    (housed 1).core.gatePaused gateScrub = false ∧ (housed 1).pwr.queue = [] ∧ (housed 1).pwr.shown = none ∧
    home.core.eng.censuses.find? (fun x => x.chip = 3) = none ∧ walking.core.eng.censuses.find? (fun x => x.chip = 3) = some ⟨3, 0, 0, 0⟩ ∧
    walking.core.larderHeld = false ∧ walking.core.eng.larder = [] ∧ 0 < walking.core.pageCount ∧ State.reset.fabOn 0 = false ∧ home.fabOn 0 = true := by decide
/-- A read and a write outstanding on memory port 0 under tag 5, the port with PERSIST as given. -/
def Tests.memory (persist : Bool) : State := reg 0xE0400 (if persist then 2 else 0) (home.onCore (fun k => { k with mem := ⟨[⟨0, some 5, 0, .barge 0 0, none⟩],
  [{ id := 7, line := 0, data := 0, mask := 0, poison := false, src := .reserve, stamp := 0, posted := false, frees := none, waiter := none, port := 0,
     tag := some 6, drain := false, wack := false }]⟩ }))
theorem witness_MemoryReturns : (memory true).Able ∧ bit ((memory true).reg 0xE0400) 1 = true ∧ bit ((memory false).reg 0xE0400) 1 = false ∧
    ((memory true).core.mem.reads.find? (fun r => r.port = 0 && r.tag = some 5)).isSome = true ∧
    (memory true).core.mem.reads.find? (fun r => r.port = 0 && r.tag = some 6) = none ∧
    ((memory true).core.mem.writes.find? (fun w => w.port = 0 && w.tag = some 6 && !w.wack)).isSome = true ∧
    ((memory false).core.mem.writes.find? (fun w => w.port = 0 && w.tag = some 6)).isSome = true ∧
    (memory true).core.mem.writes.find? (fun w => w.port = 0 && w.tag = some 5) = none ∧ (memory true).core.mem.writes.all (fun w => !w.drain) = true ∧
    (memory true).core.mem.writes.any (fun w => { w with drain := true }.drain) = true := by
  unfold State.Able; decide
theorem witness_FlitReadsAsSent : hasBody 0x00 = false ∧ hasBody 0x7F = false ∧ hasBody 0x85 = false ∧ hasBody 0x80 = true := by decide

/-- Culvert port 0 as given, in a block in SERVICE. -/
def Tests.link (f : CPort → CPort) : State := port0 (fun y => { f y with st := .active }) serving
/-- Port 0 in a state with a flit in its received stream, damaged where `bad`. -/
def Tests.gets (x : CulSt) (f : BitVec 2048) (bad : Bool) : State := port0 (fun y => { y with
  st := x, lm := [(3, 0)], rx := { y.rx with left := [⟨f.toNat, 2048, bad⟩] } }) serving
theorem witness_CulvertTraffic_flits : (link id).Able ∧ ((link id).cport 0).st = .active ∧ (serving.cport 0).st ≠ .active ∧
    ((gets .retrain 0 false).cport 0).st = .retrain ∧ ((gets .retrain 0 false).cport 0).lm ≠ [] ∧ ((gets .retrain 0 false).rxFlit 0 []).1 = some (0, false) ∧
    (serving.cport 0).st ≠ .retrain ∧ (serving.cport 0).st ≠ .down ∧ ((link id).rxFlit 0 []).1 = none ∧ ((gets .active 0 true).rxFlit 0 []).1 = some (0, true) ∧
    flitCrc (0 : BitVec 2048) ≠ (0 : BitVec 2048).extractLsb' 2016 32 := by unfold State.Able; decide +kernel
/-- Flits in and out of sequence, an IDLE flit and one that carries PORT_DOWN. -/
def Tests.flit (h : FlitHdr) : BitVec 2048 := flitOf h 0
def Tests.fh (type lm : Nat) (seq : BitVec 12) : FlitHdr := { flitHdr 0 with type := BitVec.ofNat _ type, lm := BitVec.ofNat _ lm, seq := seq }
theorem witness_CulvertTraffic_headers : (∀ h ∈ [fh 0 0 0, fh 0 4 0, fh 1 0 0, fh 1 0 5], flitCrc (flit h) = (flit h).extractLsb' 2016 32 ∧ flitHdr (flit h) = h ∧ h.nak = false ∧
      h.type.toNat < 2) ∧ ((gets .active (flit (fh 1 0 0)) false).rxFlit 0 []).1 = some (flit (fh 1 0 0), false) ∧
    (fh 1 0 0).seq = ((link id).cport 0).rxSeq + 1 ∧ (fh 1 0 5).seq ≠ ((link id).cport 0).rxSeq + 1 := by
  simp only [List.forall_mem_cons]; decide +kernel
/-- A period's end with no lane in use. -/
def Tests.ended_ : State := link (fun y => { y with rx := { y.rx with fill := 340 } })
theorem witness_CulvertTraffic_periods : (((link id).rxWords 0 []).cport 0).rx.fill < 340 ∧ 340 ≤ ((ended_.rxWords 0 []).cport 0).rx.fill ∧
    (List.range 18).all (fun j => (logicalLane (ended_.cport 0).rxMap j).isNone) = true := by decide
/-- A switch of receive lane 3 onto spare 1, and a message that may be sent. -/
def Tests.sw (acked moved : Bool) : Switch := ⟨3, 1, 0, acked, moved, none⟩
def Tests.switching (acked moved : Bool) : State := link (fun y => { y with rxSwitch := some (sw acked moved), txSwitch := some (sw acked moved) })
def Tests.sends : State := link (fun y => { y with peerInst := 1, queue := [culOwn ⟨0xD0, { h0 with dsti := 1 }, none⟩] })
def Tests.fenced (acked : Bool) : State := { serving with cul := { serving.cul with fences := [⟨0, 1, 2, acked, 0, none, 0⟩] } }
theorem witness_CulvertTraffic : ((link id).cport 0).replay = [] ∧ ((link id).cport 0).rxSwitch = none ∧ ((link id).cport 0).queue = [] ∧
    ((switching true false).cport 0).rxSwitch = some (sw true false) ∧ ((switching false false).cport 0).rxSwitch = some (sw false false) ∧
    ((switching true false).cport 0).txSwitch = some (sw true false) ∧ ((switching true true).cport 0).rxSwitch = some (sw true true) ∧ ((link id).cport 0).resend = [] ∧ (sends.cport 0).resend = [] ∧
    ((switching true true).cport 0).faults = [] ∧ ((switching true true).cport 0).rxSwitch.isSome = true ∧
    cellsFit ((link id).cport 0).rxUsed 8 (msgSize ⟨0x00, h0, none⟩) = true ∧ ({ h0 with dsti := 1 } : Hdr).dsti ≠ (link id).self ∧
    ((sends).cport 0).queue = [culOwn ⟨0xD0, { h0 with dsti := 1 }, none⟩] ∧ ((sends).cport 0).turn < 10 ∧
    sends.maySend 0 (culOwn ⟨0xD0, { h0 with dsti := 1 }, none⟩) [] = true ∧ serving.cul.fences.filter (fun f => f.port = 0) = [] ∧
    (fenced true).cul.fences = [⟨0, 1, 2, true, 0, none, 0⟩] := by decide
/-- LOSS_US passes with both ends permitting a retrain, and not. -/
def Tests.fastBoth : State := reg 0x80000 2 (link (fun y => { y with peerFlags := 2 }))
theorem witness_CulvertTraffic_loss : bit (fastBoth.reg 0x80000) 1 = true ∧ (fastBoth.cport 0).peerFlags.getLsbD 1 = true ∧
    bit ((reg 0x80000 0 (link id)).reg 0x80000) 1 = false := by decide
/-- Port 0 in DETECT with signal on n lanes; in LOCK or IDENT with two lanes of good blocks. -/
def Tests.sees (n : Nat) : BitVec 18 := BitVec.ofNat 18 (2 ^ n - 1)
def Tests.portSees (x : CulSt) (n : Nat) : State := port0 (fun y => { y with st := x, signal := sees n }) serving
theorem witness_CulvertTraining : (portSees .detect 16).Able ∧ mrising 0 (portSees .detect 16).cul.ports = true ∧ ((portSees .detect 16).cport 0).st = .detect ∧
    popcount (sees 16) = 16 ∧ popcount (sees 15) = 15 ∧
    ((portSees .down 0).cport 0).st = .down ∧ ((portSees .ident 0).cport 0).st = .ident ∧ ((portSees .lock 16).cport 0).st = .lock ∧
    popcount (putBit (sees 16) 0 false &&& ~~~((portSees .map 16).cport 0).rxBad) < 16 ∧ ¬popcount (putBit (sees 17) 0 false &&& ~~~((portSees .map 17).cport 0).rxBad) < 16 ∧
    ((portSees .detect 0).cport 0).signal = 0 ∧ ((portSees .detect 1).cport 0).signal ≠ 0 ∧ ((portSees .test 16).cport 0).st = .test ∧
    ((portSees .retrain 16).cport 0).st = .retrain ∧ bit ((portSees .ident 0).reg 0x80000) 4 = false ∧ ((portSees .lock 16).cport 0).queue = [] ∧
    ((portSees .lock 16).cport 0).rxSwitch = none ∧ ((portSees .lock 16).cport 0).cmd = none := by
  unfold State.Able; decide
/-- A good block of a TYPE on a lane from port 0 of instance 0. -/
def Tests.good (type lane : Nat) : BitVec 256 := trainOf type lane 0 0 0 0
/-- Port 0 in LOCK or IDENT with signal and lock on the first n lanes, 16 blocks sent. -/
def Tests.trains (x : CulSt) (n : Nat) : State := port0 (fun y => { y with st := x, signal := sees n, lock := sees n, sent := 16 }) serving
theorem witness_CulvertTraining_lanes : ((trains .lock 16).cport 0).phase = .lock ∧
    (let l := trainLanes ((List.range 16).map (fun j => ⟨Fin.ofNat 18 j, good 1 j⟩)) 1
     l ≠ [] ∧ (List.range 18).all (fun j => !(sees 16).getLsbD j || l.any (fun e => e.1 = j)) = true) ∧
    popcount (((trains .lock 16).cport 0).signal &&& ~~~((trains .lock 16).cport 0).rxBad) = 16 ∧ 16 ≤ ((trains .lock 16).cport 0).sent ∧
    ((portSees .lock 16).cport 0).sent < 16 := by decide +kernel
theorem witness_CulvertTraining_loopback : (trains .ident 1).self = 0 ∧ ((trains .ident 1).cport 0).st = .ident ∧
    bit ((trains .ident 1).reg 0x80000) 4 = false ∧ (trainLanes [⟨0, good 3 0⟩] 3).map (fun e => (e.1, e.2.inst)) = [(0, 0)] := by decide +kernel
/-- Agent 0 owes an answer; pings outstanding to it and to instance 3; instance 3 owes one. -/
def Tests.pinged (answered : Bool) : State := (snooped 0x40).onCore (fun k => { k with frz := { k.frz with agentPings := [(0, answered)], instPings := [3] } })
def Tests.chipOwes : State := slice0 (fun y => { y with barges := [{ barge (.req 0) 0 with chips := [{ chip := 3, op := 0x40, hint := 0, sent := true, rsp := none }] }] }) home
theorem witness_FreezeAndLiveness : home.Able ∧ home.core.stopped = false ∧ home.core.agentOwes 0 = false ∧ (snooped 0x40).core.agentOwes 0 = true ∧
    (snooped 0x40).core.frz.agentPings.find? (fun e => e.1 = 0) = none ∧ (pinged true).core.frz.agentPings.find? (fun e => e.1 = 0) = some (0, true) ∧
    home.core.frz.agentPings.contains (0, false) = false ∧ (pinged false).core.frz.agentPings.contains (0, false) = true ∧
    chipOwes.core.instOwes 3 = true ∧ chipOwes.core.frz.instPings.contains 3 = false ∧ chipOwes.core.silent 3 = false ∧
    (pinged true).core.frz.instPings.contains 3 = true ∧ bits (home.reg 0x20600) 23 16 ≠ 0 ∧ home.core.host.present.getLsbD 0 = true ∧ home.core.defined 0 = true ∧
    bits ((reg 0x20600 0 home).reg 0x20600) 23 16 = 0 := by unfold State.Able; decide
/-- Agent 0 absent, or listed and not admitted under a locked charter. -/
def Tests.absent : State := home.onCore (Core.onHost (fun h => { h with present := 0 }))
def Tests.unadmitted : State := reg 0x4000 1 { home with start := { home.start with commit := { home.start.commit with lockedId := some 0 } } }
/-- A freeze in a quiet period, as coordinator or not, ready or not, its coordinator pinged or not. -/
def Tests.quietIn (coord : BitVec 6) (ready pinged : Bool) : State := home.onCore (fun k => { k with frz := { k.frz with
  st := 2, coord := coord, ready := ready, instPings := if pinged then [coord] else [] } })
theorem witness_FreezeAndLiveness_freeze : unadmitted.badPresence 0 true = true ∧ home.badPresence 0 true = false ∧ home.core.defined 1 = false ∧
    absent.core.host.present.getLsbD 0 = false ∧ home.core.host.berths.any (fun b => b.h.agent = agentId home.core.self 0 && !b.own) = false ∧
    asked.core.host.berths.any (fun b => b.h.agent = agentId asked.core.self 0 && !b.own) = true ∧
    oneHot 64 0 &&& ~~~((tomb0 home).core.tombs 0) = 0 ∧ (home.core.tombs home.core.self).getLsbD 0 = false ∧ home.core.fport 0 < 4 ∧ home.core.tombs 3 = 0 ∧
    home.core.frz.st ≠ 2 ∧ (quietIn 3 false false).core.frz.st = 2 ∧ (quietIn 3 false false).core.frz.ready = false ∧ (quietIn 3 false false).core.frz.coord ≠ home.core.self ∧
    (quietIn 3 true false).core.frz.ready = true ∧ (quietIn 3 true false).core.frz.instPings.contains 3 = false ∧ (quietIn 3 true true).core.frz.instPings.contains 3 = true ∧
    (quietIn 0 true false).core.frz.coord = home.core.self ∧ (quietIn 3 true true).core.frz.late = false := by decide
/-- The leader deciding over members 0 and 3 with given reports; a member under way; a DISCOVER round. -/
def Tests.deciding (l : List Report) : State := let s := reg 0x600 9 lit
  { s with start := { s.start with commit := { s.start.commit with cmd := some 0, id := 7, isLeader := true, deciding := true, reports := l } } }
def Tests.member : State := { lit with start := { lit.start with commit := { lit.start.commit with cmd := some 0, leader := 3 } } }
def Tests.rounds (resent : Bool) : State := { lit with start := { lit.start with disc := { lit.start.disc with cmd := some 0, resent := resent } } }
theorem witness_CommitAndDiscovery : (deciding []).Able ∧ (deciding []).start.commit.deciding = true ∧ (deciding []).core.members = [0, 3] ∧
    (deciding [⟨3, 7, 0x11, 2⟩]).start.commit.reports.find? (fun r => r.inst = 3) = some ⟨3, 7, 0x11, 2⟩ ∧
    (deciding [⟨3, 8, 0, 0⟩]).start.commit.reports.find? (fun r => r.inst = 3) = some ⟨3, 8, 0, 0⟩ ∧ (8 : Word) ≠ (deciding []).start.commit.id ∧
    (deciding [⟨0, 7, 0, 0⟩]).start.commit.reports.find? (fun r => r.inst = 3) = none ∧
    (deciding [⟨0, 7, 0, 0⟩, ⟨3, 7, 0, 0⟩]).core.members.all (fun m => ((deciding [⟨0, 7, 0, 0⟩, ⟨3, 7, 0, 0⟩]).start.commit.reports.find? (fun r => r.inst = m)).isSome) = true ∧
    lit.start.commit.deciding = false ∧ lit.start.commit.cmd = none ∧ member.start.commit.cmd = some 0 ∧ member.start.commit.isLeader = false ∧
    lit.start.disc.cmd = none ∧ (rounds false).start.disc.cmd = some 0 ∧ (rounds false).start.disc.resent = false ∧ (rounds true).start.disc.resent = true := by
  unfold State.Able; decide
/-- A slot of MEM_POISON of memory port 0 at a severity, stopped or not, with the ceiling given. -/
def Tests.slotAt (sev : Nat) (stopped : Bool) (ceiling : Nat) : State := reg 0x20400 (BitVec.ofNat 64 (1000 + ceiling * 2 ^ 17))
  (lit.onCore (fun k => { k with flt := { k.flt with slots := [(0, some ⟨32 * famMemPoison + 28, sev, stopped, 0, [], 0⟩)] } }))
theorem witness_FaultCollection : lit.Able ∧ mget none lit.core.flt.slots 0 = none ∧
    ((mget none (slotAt 3 false 5).core.flt.slots 0).map (fun x => (x.sev, x.stopped))) = some (3, false) ∧
    escPath (unitOf ((32 * famMemPoison + 28) / 32) ((32 * famMemPoison + 28) % 32)) = [3, 5, 7] ∧ bits ((slotAt 3 false 5).reg 0x20400) 19 17 = 5 ∧
    ((mget none (slotAt 5 false 5).core.flt.slots 0).map (fun x => (x.sev, x.stopped))) = some (5, false) ∧
    ((mget none (slotAt 3 true 5).core.flt.slots 0).map (fun x => x.stopped)) = some true ∧
    unitOf ((32 * famMemPoison + 28) / 32) ((32 * famMemPoison + 28) % 32) ≠ .agent := by unfold State.Able; decide
/-- A window of source 1 with a count; entries that wait to be logged, losses owed, and a full ring; a pulse; masked copies. -/
def Tests.window1 (n : Nat) : State := lit.onCore (fun k => { k with flt := { k.flt with windows := [⟨1, 0, n, 2⟩] } })
def Tests.logs (made queue : List (BitVec 256)) (due : Nat) (wr : BitVec 11) : State :=
  lit.onCore (fun k => { k with flt := { k.flt with made := made, queue := queue, lossDue := due, wr := wr } })
def Tests.pulses : State := lit.onCore (fun k => { k with flt := { k.flt with pin0 := ⟨true, true, false⟩, pin1 := ⟨true, true, false⟩ } })
def Tests.masks (m : BitVec 3) : State := lit.onCore (fun k => { k with flt := { k.flt with masked := m } })
theorem witness_FaultCollection_log : lit.core.flt.windows.find? (fun w => w.src = 1) = none ∧
    (window1 0).core.flt.windows.find? (fun w => w.src = 1) = some ⟨1, 0, 0, 2⟩ ∧ (window1 1).core.flt.windows.find? (fun w => w.src = 1) = some ⟨1, 0, 1, 2⟩ ∧
    lit.core.flt.made = [] ∧ lit.core.flt.queue = [] ∧ (logs [1] [] 0 0).core.flt.made = 1 :: [] ∧ (logs [] [1] 0 0).core.flt.queue = 1 :: [] ∧
    (logs [1] [] 0 1024).core.flt.wr - (logs [1] [] 0 1024).core.flt.rd = 1024 ∧ (logs [1] [] 2 0).core.flt.lossDue ≠ 0 ∧
    lit.core.flt.pin0.pulse = false ∧ lit.core.flt.pin1.pulse = false ∧ pulses.core.flt.pin0.pulse = true ∧ pulses.core.flt.pin1.pulse = true ∧
    lit.core.flt.masked = 0 ∧ (masks 1).core.flt.masked.getLsbD 0 = true ∧ (masks 1).core.flt.masked ≠ 0 ∧ (masks 1).core.flt.masked.getLsbD 2 = false ∧
    lit.core.severityOf 0 = 2 ∧ (reg 0x20000 0 lit).core.severityOf 0 = 0 ∧ (reg 0x20000 1 lit).core.severityOf 0 = 1 ∧ (reg 0x20000 3 lit).core.severityOf 0 = 3 := by
  decide
/-- Slice 0 SERVING in SERVICE with a pair as given. -/
def Tests.pair (f : Gal → Gal) : State := (slice0In .serving).onGal 0 f
/-- PROOF_CTL of slice 0 with FORCE 1 and FORCE_US 1. -/
def Tests.proves (f : Gal → Gal) : State := reg 0x100A30 0x110000 ((slice0In .proof).onGal 0 (fun g => { f g with split := true }))
theorem witness_PairsAndFailover : (pair id).Able ∧ (sliceIn .dark).galRuns 0 = false ∧ (pair id).galRuns 0 = true ∧ ((pair id).gal 0).inject = false ∧
    ((pair id).gal 0).split = false ∧ Map.wf Gal.reset (pair id).gals = true ∧ Map.wf Slice.reset (pair id).core.slices = true ∧
    (pair id).galInjected 0 = false ∧ ((pair id).gal 0).differs [] = false ∧ ((pair id).gal 0).differs [0] = true ∧ (proves id).galRuns 0 = true ∧ ((proves id).gal 0).split = true ∧ ((proves id).gal 0).stopped = false ∧
    ((proves id).gal 0).diverged = false ∧ ((proves id).gal 0).log.length < 256 ∧ ((proves id).gal 0).wants = [] ∧
    ((proves (fun g => { g with stopped := true })).gal 0).stopped = true ∧
    ((proves (fun g => { g with log := List.replicate 255 0 })).gal 0).log.length < 256 ∧
    ((proves (fun g => { g with diverged := true })).gal 0).diverged = true ∧ bit ((proves id).reg 0x100A30) 16 = true ∧ bits ((proves id).reg 0x100A30) 31 20 ≠ 0 ∧
    (proves (fun g => { g with diverged := true })).divReady 0 = false ∧ ((pair (fun g => { g with wants := [.cut 0] })).gal 0).wants = [.cut 0] ∧
    ((proves (fun g => { g with wants := [.proofEnd false none] })).gal 0).wants = [.proofEnd false none] := by
  unfold State.Able; decide
/-- What is left of a cut-over at its quiesce point, and a window that GAL_INJECT or an error struck. -/
def Tests.cutting : State := ((pair (fun g => { g with wants := [.cut 0] })).galRelease 0).onGal 0 (fun g => { g with wants := [] })
def Tests.proofEnds : State := ((proves (fun g => { g with wants := [.proofEnd false none] })).galRelease 0).onGal 0 (fun g => { g with wants := [] })
theorem witness_PairsAndFailover_windows :
    (let t := (cutting.galExchange 0).complete 0 tsOk ((cutting.galExchange 0).slice 0).control.describe []
     (t.gal 0).diverged = false ∧ t.divReady 0 = false) ∧
    (let t := (proofEnds.galRejoin 0).completeOpt none tsOk ((proofEnds.galRejoin 0).proofStat 0)
     (t.gal 0).diverged = false ∧ t.divReady 0 = false) ∧
    (reg 0x100A28 4 (pair (fun g => { g with inject := true, items := [.berthFree 1] }))).galInjected 0 = false ∧
    (reg 0x100A28 2 (pair (fun g => { g with inject := true, items := [.berthFree 1] }))).galInjected 0 = true := by decide
/-- A drain of slice 0, and a failover of logical slice 0 from slice 0 to slice 1 at a step. -/
def Tests.drains : State := { home with start := { home.start with drains := [⟨0, .drain 0 false, 0, [0]⟩] } }
def Tests.failsOver (step : Nat) (x : SliceSt) : State := (slice0 (fun y => { y with st := .sealed_ }) home).onCore (fun k =>
  Core.onSlice 1 (fun y => { y with st := x }) { k with failovers := [⟨0, 0, some 1, true, step, 0, [], [], [], false, none⟩] })
theorem witness_PairsAndFailover_slices : (home.slice 0).st ≠ .waking ∧ ((sliceIn .waking).slice 0).st = .waking ∧ ((sliceIn .waking).slice 0).forFailover = false ∧
    home.start.drains.find? (fun j => j.parts.contains 0) = none ∧ drains.start.drains.find? (fun j => j.parts.contains 0) = some ⟨0, .drain 0 false, 0, [0]⟩ ∧
    home.core.failovers = [] ∧ ((failsOver 1 .spare).core.failovers.find? (fun f => f.logical = 0 && f.step = 1)).isSome = true ∧
    (failsOver 1 .spare).core.settled 0 = true ∧ (slice0 (fun y => { y with barges := ((snooped 0x40).core.slice 0).barges }) (failsOver 1 .spare)).core.settled 0 = false ∧ ((failsOver 1 .spare).core.slice 0).skl = [] ∧
    ((failsOver 1 .spare).core.slice 0).drip = [] ∧ ((failsOver 1 .spare).core.slice 0).barges = [] ∧
    ((failsOver 3 .spare).core.failovers.find? (fun f => f.logical = 0 && f.step = 3)).isSome = true ∧
    (failsOver 3 .spare).core.spareOf ⟨0, 0, some 1, true, 3, 0, [], [], [], false, none⟩ = some (1, true) ∧ (failsOver 3 .spare).core.spareReady 1 = true ∧
    (failsOver 3 .dark).core.spareReady 1 = false := by decide
/-- The block with its power as given. -/
def Tests.withPwr (f : Pwr → Pwr) (s : State) : State := { s with pwr := f s.pwr }
/-- Domain 54 coming on or being removed. -/
def Tests.ramps : State := withPwr (fun p => { p with ramp := setBit 0 54, falling := setBit 0 54 }) lit
/-- Wake slot 0 enabled on source 112, PL_EXT_0. -/
def Tests.wakes (b : BlockSt) : State := reg 0x30400 0x7001 (blockIn b)
theorem witness_PowerEvents : (blockIn .off).powered = false ∧ (blockIn .pilot).powered = false ∧ lit.tow.waiting = [] ∧ (blockIn .off).core.block = .off ∧
    heldBlock.core.pf.hold = true ∧ lit.core.block ≠ .off ∧ lit.core.block ≠ .pilot ∧ lit.core.pf.hold = false ∧ lit.powered = true ∧
    (withPwr (fun p => { p with good := false }) (blockIn .pilot)).pwr.good = false ∧ lit.pwr.good = true ∧
    lit.pwr.ramp.getLsbD 54 = false ∧ ramps.pwr.ramp.getLsbD 54 = true ∧ ramps.pwr.work = [] ∧ lit.pwr.falling.getLsbD 54 = false ∧ ramps.pwr.falling.getLsbD 54 = true ∧
    bit ((wakes .pilot).reg 0x30400) 0 = true ∧ bits ((wakes .pilot).reg 0x30400) 15 8 = 112 ∧ irqReserved 112 = false ∧ irqSoft 112 = false ∧
    bit (lit.reg 0x30400) 0 = false ∧ irqReserved 7 = true ∧ irqSoft 128 = true ∧ initNext 54 = none ∧ initNext 78 = some 74 ∧ initNext 77 = none ∧ lit.pwr.absent.getLsbD 36 = false ∧
    (withPwr (fun p => { p with absent := 1 <<< 36 }) lit).pwr.absent.getLsbD 36 = true ∧ ((blockIn .pilot).onCore (fun k => { k with doms := 0 })).core.doms.getLsbD 78 = false := by
  decide
/-- A request for leave presented, granted or late; an intrusive test instruction in force or permitted. -/
def Tests.asks : State := withPwr (fun p => { p with shown := some ⟨lvScrub, 10, []⟩, req := true }) lit
def Tests.testing (n : Nat) : State := withPwr (fun p => { p with strapTest := true, wir := BitVec.ofNat 5 n }) lit
/-- Idle in force with a quiet slice 0 SERVING. -/
def Tests.idleHome : State := { home with pwr := { home.pwr with idle := true } }
theorem witness_PowerEvents_able : lit.Able ∧ lit.core.block ≠ .init ∧ State.reset.core.block = .init ∧
    [74, 75, 76, 77, 78].all (fun d => State.reset.core.doms.getLsbD d) = true ∧ (withPwr (fun p => { p with gnt := true }) lit).pwr.gnt = true ∧
    lit.pwr.gnt = false ∧ lit.pwr.shown = none ∧ asks.pwr.gnt = false ∧ asks.pwr.shown = some ⟨lvScrub, 10, []⟩ ∧ lit.pwr.idle = false ∧ asks.pwr.withdrawnAt ≠ some asks.core.tb ∧
    (withPwr (fun p => { p with withdrawnAt := some 0 }) asks).pwr.withdrawnAt = some asks.core.tb ∧ State.reset.core.flt.halves = 0 ∧
    (idleHome.pwr.idle = true ∧ idleHome.mayGate 0 = true ∧ idleHome.sliceQuiet 0 = true ∧ idleHome.pwr.gated.getLsbD 0 = false) ∧
    (idleIn true).pwr.idle = true ∧ (idleIn true).wharfQuiet = true ∧ (idleIn true).pwr.wharfGated = false ∧
    (withPwr (fun p => { p with absent := 1 }) lit).pwr.absent.getLsbD 0 = true ∧ State.reset.clockRuns 0 = false ∧ lit.pwr.absent.getLsbD 17 = false ∧
    lit.clockRuns 17 = true := by unfold State.Able; decide
theorem witness_PowerEvents_wrapper : (List.range 32).any (fun n => wirIntrusive (wirActs (BitVec.ofNat 5 n))) = true ∧ wirIntrusive (wirActs 0) = false ∧
    (testing 0).Able ∧ wirIntrusive (testing 0).pwr.wir = false ∧
    (List.range 32).any (fun n => wirIntrusive (testing n).pwr.wir) = true := by unfold State.Able; decide
/-- Periodic dumps on; the Logbook on with a record that waits, its ring full or not, losses owed or not. -/
def Tests.dumps (s : State) : State := reg 0x42200 1 s
def Tests.traces (w : BitVec 12) (due : Nat) (ctl : Word) : State := reg 0x43000 ctl { serving with watch := { serving.watch with
  marks := [⟨0, 5⟩], order := 1, wr := w, lossDue := due } }
theorem witness_CountersDumpsLogbook : serving.Able ∧ Map.wf 0 serving.watch.val = true ∧ serving.cntChained 0 = false ∧ bit ((reg 0x42200 0 serving).reg 0x42200) 0 = false ∧
    bit ((dumps serving).reg 0x42200) 0 = true ∧ (dumps serving).core.stopped = false ∧ (dumps dumping).watch.dump.isSome = true ∧ (dumps serving).watch.dump = none ∧
    (dumps serving).core.gatePaused gateDump = false ∧ (reg 0x43000 0 serving).logOn = false ∧ serving.watch.nextTrace.isNone = true ∧
    (traces 0 0 1).logOn = true ∧ ((traces 0 0 1).watch.nextTrace.map (fun e => e.1)) = some 5 ∧
    ((traces 2048 0 1).watch.wr - (traces 2048 0 1).watch.rd).toNat = 2048 ∧ bit ((traces 2048 0 1).reg 0x43000) 2 = false ∧
    bit ((traces 2048 0 5).reg 0x43000) 2 = true ∧ (traces 0 3 1).watch.lossDue ≠ 0 := by unfold State.Able; decide
end Sys2Proof.Machine
end

section
/-!
SUPPORT. The statements on what every command and every register access of the block does: completion, the sparse arrays, register reads and
writes, the transports, the MMIO window, requests, liveness, and what R4 spares.
-/
namespace Sys2Proof.Machine

/-! Every command answers a next state (R4, R405). -/

/-- An outcome is a next state. -/
def Completes (o : Host.Outcome State Fault Refusal) : Prop := ∃ t : State, o = .next t

theorem State.ended_completes (s t : State) : Completes (s.ended t) := ⟨_, rfl⟩
theorem State.does_completes (f : State → State) (s : State) : Completes (s.does f) := s.ended_completes _
theorem State.writes_completes (f : State → State) (s : State) : Completes (s.writes f) := by
  unfold State.writes
  split
  · exact s.does_completes _
  · exact s.does_completes _
theorem State.doesOn_completes (f : State → State) (s : State) : Completes (s.doesOn f) := by
  unfold State.doesOn
  split
  · exact s.does_completes _
  · exact ⟨s, rfl⟩
theorem State.fabricArrive_completes (f : Fin 4) (a : Arrival) (s : State) : Completes (s.fabricArrive f a) := by
  unfold State.fabricArrive
  split
  · exact s.does_completes _
  · exact ⟨s, rfl⟩
theorem State.chipArrive_completes (n : Fin 6) (op : BitVec 8) (h : Hdr) (d : Option Beats) (s : State) :
    Completes (s.chipArrive n op h d) := s.doesOn_completes _
theorem State.requestIn_completes (op : BitVec 8) (src : Src) (h : Hdr) (s : State) : Completes (s.requestIn op src h) := by
  cases src with
  | fabric f =>
    simp only [State.requestIn]
    split
    · exact s.does_completes _
    · exact s.fabricArrive_completes f _
  | culvert n => exact s.chipArrive_completes n op h none
theorem State.responseIn_completes (op : BitVec 8) (src : Src) (h : Hdr) (s : State) : Completes (s.responseIn op src h) := by
  cases src with
  | fabric f => exact s.fabricArrive_completes f _
  | culvert n => exact s.chipArrive_completes n op h none
theorem State.dataIn_completes (op : BitVec 8) (src : Src) (h : Hdr) (d : Beats) (s : State) : Completes (s.dataIn op src h d) := by
  cases src with
  | fabric f => exact s.fabricArrive_completes f _
  | culvert n => exact s.chipArrive_completes n op h (some d)
theorem execDatE_completes (src : Src) (h : Hdr) (d : Beats) (s : State) : Completes (execDatE src h d s) := by
  cases src with
  | fabric f => exact s.fabricArrive_completes f _
  | culvert n => exact s.chipArrive_completes n opDatE h (some d)
theorem execSievePatrol_completes (p : Fin 18) (errs : List PatrolErr) (s : State) : Completes (execSievePatrol p errs s) := by
  unfold execSievePatrol
  split
  · exact ⟨s, rfl⟩
  · exact s.doesOn_completes _

/-- One case for each shape of command. -/
theorem exec_completes (i : Instr) (s : State) : Completes (exec i s) := by
  cases i with
  | nop | identify | tagQuery | transportReset | regRead | regReadBlock | charterCheck | charterCommit | charterRelease | discover | genAdvance |
  serviceEnter | agentAdmit | agentRetire | slicePower | sliceSpare | sliceServe | sliceDrain | sliceSwap | sliceFailover | lsRebuild |
  mcLoadOpen | mcLoadData | mcLoadClose | mcActivate | mcProofStart | mcProofEnd | mcProofLogRead | mcDiscard | lkOverlay | dirDump | dirRebuild
  | larderRead | maintAddr | maintEntry | culRetrain | culSpare | culRouteReturn | culStatus | pwrTrim | pwrIdle | pwrDeep | pwrHalf | pfRelease
  | portPower | cntRead | logbookRead | dumpNow | logRead | fltInject | sealBlock | twoWireRead | twoWireStretchTimeout | pwrFailRecognise |
  pwrGoodRise | pwrGoodFall | alwaysOnSupplyOn | alwaysOnSupplyOff | domainRegulation | wakeSlotFire | extInputChange | pwrFailNRise |
  domainPowerRemoved =>
    exact s.does_completes _
  | regWrite | regWriteMasked | charterLoad | streamPacket | dbRing | twoWireWrite | mmioAccess | genericRegisterWrite | irqEoi | irqRaisePush |
  irqPendWrite | fltAckWrite | fltPtrRdWrite | errOutRelease | galInjectGo | sieveRemapWrite | cntValWrite | logPtrRdWrite | logMemRdWrite |
  gatePauseWrite | gateUpdateWrite | clkSliceDivWrite | plCtlWake | culEnableWrite | culDisableWrite =>
    exact s.writes_completes _
  | towRplCrd | irqClaim | irqCountRead | fltStatRead | frzStatRead | foStatRead | pwrLeaveStatRead | dumpStatRead | logStatRead | gateStatRead |
  culCntRead | culLerrRead | galCntRead | admission | chamberHead | simmerExpiry | wharfGrant | stampSweep | memReadData | memWack | memPack |
  overflowInsert | skilletBackgroundWrite | homeSieveBackgroundWb | scrubBurst | censusWalkPage | fabricCreditReturn | flit | ackToExpiry |
  alignmentMarker | spareSwitchCodeword | spareSwitchEnd | lossTimerExpiry | fence | fenceLimitExpiry | transitMessage | culvertSend | hello |
  serdesReady | laneSignalChange | trainingAdvance | trainingBudgetExpiry | testWindowEnd | retrainTimeout | snoopTimeout | pingTimeout |
  heartbeatTimeout | quietPeriodEnd | thawWaitTimeout | freezeLate | presenceChange | pingAnswer | commitReportTimeout | commitGoTimeout |
  helloResend | discoverQuietEnd | discoverLimit | escalationExpiry | coalesceWindowClose | logEntryWrite | errPulseEnd | lkVoteMismatch |
  galleyWindowClose | registerSweep | galleyStall | quiescePoint | proofLimitExpiry | proofForceResync | imageVerifyDone | wakingComplete |
  drainComplete | failoverSettleDone | failoverTakeover | agentRetireLimit | agentAdmitSweepDone | drainLateTimer | initSelftestDone |
  pwrLeaveGnt | leaveWaitTimeout | gntStuckTimeout | idleGateClose | clockAbsent | holdoffExpiry | imsgResendExpiry | imsgReady |
  dumpPeriodExpiry | logbookSpill | ageTick | counterMcUpdate | clockReturn | pwrLeaveGntFall | heartbeatToggle | wrapperUpdate | wrapperReset |
  traceRecordWrite | idleFlitSend | overlayEnd =>
    exact s.doesOn_completes _
  | rdS | rdF | rdO | upg | rdNa | wrFull | wrPart | atom | wbD | settle =>
    exact s.requestIn_completes _ _ _
  | undefinedMessage =>
    exact s.fabricArrive_completes _ _
  | snpS | snpFs | snpFo | snpI | snpNa | snpQ | rspQ | cmp | cmpNear | cmpAtom | cmpSettle | cmpTrap | cmpHalt | cmpPoison | censusReq | credit
  | salvage | fenceAck | frzPing | frzPong | frzStart | frzDead | frzReady | frzThaw | commitReport | commitGo | commitAck | commitAll =>
    exact s.chipArrive_completes _ _ _ _
  | rspI | rspS | rspFwd | rspD | rspAbsent | rspWbx =>
    exact s.responseIn_completes _ _ _
  | datS | datF | datM | datNa =>
    exact s.dataIn_completes _ _ _ _
  | datE =>
    exact execDatE_completes _ _ _ s
  | sievePatrol =>
    exact execSievePatrol_completes _ _ s

/-- Settles O3: every shape of command ends in a next state. -/
theorem everyCommandCompletes : Obligations.EveryCommandCompletes :=
  ⟨exec_completes, fun s f w size off v id => exec_completes (.mmioAccess f w size off v id) s,
    fun s p => exec_completes (.homeSieveBackgroundWb p) s⟩

/-! Reads of a sparse array after a write. -/

section Maps
variable {α : Type} {d v : α} {k j : Nat}

theorem mget_of_lt_bound : ∀ {b : Nat} {m : Map α}, mrising b m = true → k < b → mget d m k = d
  | _, [], _, _ => rfl
  | b, (i, u) :: m, h, hk => by
    simp only [mrising, Bool.and_eq_true, decide_eq_true_eq] at h
    simp only [mget]
    rw [if_neg (by omega), if_pos (by omega)]

@[simp] theorem mget_mput_same : ∀ {m : Map α}, mget d (mput m k v) k = v
  | [] => by simp [mput, mget]
  | (i, u) :: m => by
    unfold mput
    split
    · simp [mget]
    · split
      · simp [mget]
      · simp only [mget]
        rw [if_neg ‹_›, if_neg ‹_›]
        exact mget_mput_same

theorem mget_mput_other (hj : j ≠ k) : ∀ {m : Map α}, mget d (mput m k v) j = mget d m j
  | [] => by simp [mput, mget, hj.symm]
  | (i, u) :: m => by
    unfold mput
    split
    · next e => simp [mget, hj.symm, e]
    · split
      · simp only [mget, if_neg hj.symm]
        split
        · rw [if_neg (by omega), if_pos (by omega)]
        · rfl
      · simp only [mget]
        rw [mget_mput_other hj]

theorem mget_merase_same : ∀ {b : Nat} {m : Map α}, mrising b m = true → mget d (merase m k) k = d
  | _, [], _ => rfl
  | b, (i, u) :: m, h => by
    simp only [mrising, Bool.and_eq_true, decide_eq_true_eq] at h
    unfold merase
    split
    · next e => exact mget_of_lt_bound h.2 (by omega)
    · split
      · simp only [mget]
        rw [if_neg ‹_›, if_pos ‹_›]
      · simp only [mget]
        rw [if_neg ‹_›, if_neg ‹_›]
        exact mget_merase_same h.2

theorem mget_merase_other (hj : j ≠ k) : ∀ {b : Nat} {m : Map α}, mrising b m = true → mget d (merase m k) j = mget d m j
  | _, [], _ => rfl
  | b, (i, u) :: m, h => by
    simp only [mrising, Bool.and_eq_true, decide_eq_true_eq] at h
    unfold merase
    split
    · next e =>
      simp only [mget]
      rw [if_neg (by omega)]
      split
      · exact mget_of_lt_bound h.2 (by omega)
      · rfl
    · split
      · rfl
      · simp only [mget]
        rw [mget_merase_other hj h.2]

theorem mget_mset_same [DecidableEq α] {b : Nat} {m : Map α} (h : mrising b m = true) : mget d (mset d m k v) k = v := by
  unfold mset
  split
  · next e => rw [mget_merase_same h, e]
  · exact mget_mput_same

theorem mget_mset_other [DecidableEq α] {b : Nat} {m : Map α} (h : mrising b m = true) (hj : j ≠ k) :
    mget d (mset d m k v) j = mget d m j := by
  unfold mset
  split
  · exact mget_merase_other hj h
  · exact mget_mput_other hj

theorem le_of_mem_rising {b : Nat} {m : Map α} (h : mrising b m = true) (mem : (k, v) ∈ m) : b ≤ k := by
  induction m generalizing b with
  | nil => exact nomatch mem
  | cons e m ih =>
    obtain ⟨i, u⟩ := e
    simp only [mrising, Bool.and_eq_true, decide_eq_true_eq] at h
    obtain ⟨low, rest⟩ := h
    rcases List.mem_cons.mp mem with e | mem
    · cases e
      exact low
    · have := ih rest mem
      omega

/-- A listed entry of an array whose keys rise is what its key reads. -/
theorem mget_of_mem : ∀ {b : Nat} {m : Map α}, mrising b m = true → (k, v) ∈ m → mget d m k = v
  | b, (i, u) :: m, h, mem => by
    simp only [mrising, Bool.and_eq_true, decide_eq_true_eq] at h
    rcases List.mem_cons.mp mem with e | mem
    · cases e
      exact if_pos rfl
    · have above := le_of_mem_rising h.2 mem
      simp only [mget]
      rw [if_neg (by omega), if_neg (by omega)]
      exact mget_of_mem h.2 mem

theorem Map.rising_of_wf [DecidableEq α] {m : Map α} (h : Map.wf d m = true) : mrising 0 m = true := by
  simp only [Map.wf, Bool.and_eq_true] at h
  exact h.1

end Maps

/-! The stored registers (R13, R559). -/

theorem Core.setReg_rising (o : Nat) (w : Word) {s : Core} (h : mrising 0 s.regs = true) : mrising 0 (s.setReg o w).regs = true := by
  rw [Core.setReg_regs]
  split
  · exact merase_rising o h
  · exact mput_rising o w (Nat.zero_le o) h

theorem Core.reg_setReg_same (o : Nat) (w : Word) {s : Core} (h : mrising 0 s.regs = true) : (s.setReg o w).reg o = w := by
  unfold Core.reg
  rw [Core.setReg_regs]
  split
  · next e => rw [mget_merase_same h, e]
  · exact mget_mput_same

theorem Core.reg_setReg_other {o j : Nat} (w : Word) {s : Core} (h : mrising 0 s.regs = true) (hj : j ≠ o) :
    (s.setReg o w).reg j = s.reg j := by
  unfold Core.reg
  rw [Core.setReg_regs]
  split
  · exact mget_merase_other hj h
  · exact mget_mput_other hj

/-- Settles O8: a write to a sparse array, of an entry or of its default, read at the same key and at another. -/
theorem sparseArrays : Obligations.SparseArrays :=
  ⟨fun d _ k v h => ⟨mset_wf d v k h, mget_mset_same (Map.rising_of_wf h), fun _ hj => mget_mset_other (Map.rising_of_wf h) hj⟩,
    fun _ o w h => ⟨Core.setReg_rising o w h, Core.reg_setReg_same o w h, fun _ hj => Core.reg_setReg_other w h hj, rfl⟩⟩

/-! Registers with read effects, by their offsets (R13, R563). -/

theorem inArray_iff {o base step n : Nat} : inArray o base step n = true ↔ base ≤ o ∧ o < base + step * n ∧ (o - base) % step = 0 := by
  simp [inArray, and_assoc]

theorem State.readFxLow_irqCount (k : Fin 32) (s : State) : s.readFxLow (0x10900 + k.val * 8) = s.irqCountClear k.val := by
  unfold State.readFxLow
  rw [if_pos (inArray_iff.mpr (by omega))]
  congr 1
  omega

theorem State.readFxHigh_gateStat (e : Fin 6) (s : State) : let o := 0x44008 + e.val * 0x200
    s.readFxHigh o = s.onCore (fun k => k.setReg o (withBits (k.reg o) 16 1 0)) := by
  intro o
  unfold State.readFxHigh
  rw [if_neg (by omega), if_neg (by omega), if_neg (by omega), if_pos (inArray_iff.mpr (by omega))]

theorem State.readFxHigh_culCnt (n : Fin 6) (s : State) : s.readFxHigh (0x80048 + n.val * 0x10000) = s.culCntClear n.val := by
  unfold State.readFxHigh
  rw [if_neg (by omega), if_neg (by omega), if_neg (by omega), if_neg (by rw [inArray_iff]; omega), if_pos (inArray_iff.mpr (by omega))]
  congr 1
  omega

theorem State.readFxHigh_culLerr (n : Fin 6) (k : Fin 18) (s : State) :
    s.readFxHigh (0x80100 + k.val * 8 + n.val * 0x10000) = s.culLerrClear n.val k.val := by
  unfold State.readFxHigh
  rw [if_neg (by omega), if_neg (by omega), if_neg (by omega), if_neg (by rw [inArray_iff]; omega), if_neg (by rw [inArray_iff]; omega),
    if_pos (by rw [inArray_iff]; omega)]
  congr 1 <;> omega

theorem State.readFxHigh_galCnt (p : Fin 18) (s : State) : s.readFxHigh (0x100A20 + p.val * 0x10000) = s.galCntClear p.val := by
  unfold State.readFxHigh
  rw [if_neg (by omega), if_neg (by omega), if_neg (by omega), if_neg (by rw [inArray_iff]; omega), if_neg (by rw [inArray_iff]; omega),
    if_neg (by omega), if_pos (inArray_iff.mpr (by omega))]
  congr 1
  omega

/-- A direct read below 0x03_0000 leaves the value, and what the read clears. -/
theorem State.doesOn_readOut_low {s : State} {o : Nat} (a : s.Able) (h : s.pilotOnly = false) (ho : o < 0x30000) :
    s.doesOn (State.readOut o) = .next (State.finish s ((s.readFxLow o).onCore (Core.emit (.value o (s.view o))))) := by
  rw [State.doesOn_next _ a]
  simp [State.readOut, State.regRead, h, ho]

theorem State.doesOn_readOut_high {s : State} {o : Nat} (a : s.Able) (h : s.pilotOnly = false) (ho : 0x30000 ≤ o) :
    s.doesOn (State.readOut o) = .next (State.finish s ((s.readFxHigh o).onCore (Core.emit (.value o (s.view o))))) := by
  rw [State.doesOn_next _ a]
  simp [State.readOut, State.regRead, h, Nat.not_lt.mpr ho]

/-- Settles O17: each row names a register whose read effect is one of the equations above. -/
theorem registerReadsClearCounts : Obligations.RegisterReadsClearCounts := by
  intro s a h shown
  refine ⟨fun k => ?irqCount, ?fltStat, ?frzStat, ?foStat, ?leaveStat, ?dumpStat, ?logStat, fun e => ?gateStat, fun n => ?culCnt,
    fun n k => ?culLerr, fun p => ?galCnt⟩
  case irqCount => exact (State.doesOn_readOut_low a h (by omega)).trans (by rw [State.readFxLow_irqCount]; rfl)
  case fltStat => exact State.doesOn_readOut_low a h (by decide)
  case frzStat => exact State.doesOn_readOut_low a h (by decide)
  case foStat => exact State.doesOn_readOut_low a h (by decide)
  case leaveStat => exact State.doesOn_readOut_high a h (by decide)
  case dumpStat => exact State.doesOn_readOut_high a h (by decide)
  case logStat => exact State.doesOn_readOut_high a h (by decide)
  case gateStat => exact (State.doesOn_readOut_high a h (by omega)).trans (by rw [State.readFxHigh_gateStat]; rfl)
  case culCnt => exact (State.doesOn_readOut_high a h (by omega)).trans (by rw [State.readFxHigh_culCnt]; rfl)
  case culLerr => exact (State.doesOn_readOut_high a h (by omega)).trans (by rw [State.readFxHigh_culLerr]; rfl)
  case galCnt => exact (State.doesOn_readOut_high a h (by omega)).trans (by rw [State.readFxHigh_galCnt]; rfl)

/-! Writes of fields (R13, R417, R418). -/

/-- Without the lock every writable bit is set, and no field refuses. -/
theorem State.storeFields_unlocked {s : State} (o : Nat) (v : Word) (h : s.locked = false) :
    s.storeFields o v = (false, s.onCore (Core.setReg o ((s.reg o &&& ~~~(rwMask o)) ||| (v &&& rwMask o)))) := by
  have all : rwMask o &&& ~~~0 = rwMask o := BitVec.and_allOnes
  have none : (s.reg o ^^^ v) &&& 0 = 0 := BitVec.and_zero
  simp only [State.storeFields, h, Bool.false_eq_true, if_false, all, none, if_true]

/-- Under the lock RWL bits keep their value, and a write that would change one is refused. -/
theorem State.storeFields_locked {s : State} (o : Nat) (v : Word) (h : s.locked = true) : let m := rwMask o &&& ~~~(rwlMask o)
    let t := s.onCore (Core.setReg o ((s.reg o &&& ~~~m) ||| (v &&& m)))
    s.storeFields o v = if (s.reg o ^^^ v) &&& rwlMask o = 0 then (false, t) else (true, t.lockViol) := by
  simp only [State.storeFields, h, if_true]

/-- Settles O19: the two cases of the lock. -/
theorem lockedFieldsKeepTheirValue : Obligations.LockedFieldsKeepTheirValue := by
  intro o v s m t
  cases h : s.locked with
  | false =>
    rw [State.storeFields_unlocked o v h]
    simp [t, m, h]
  | true =>
    rw [State.storeFields_locked o v h]
    by_cases e : (s.reg o ^^^ v) &&& rwlMask o = 0
    · simp [t, m, h, e]
    · rw [if_neg e, bne_iff_ne.mpr e]
      simp [t, m, h]

/-! A command that its transport takes (R406, R407), and outcomes of commands that may write registers (R302). -/

@[simp] theorem State.viaTaken_core (op : BitVec 8) (c : TowCmd) (s : State) : (s.viaTaken op c).core = s.core := by
  unfold State.viaTaken
  split <;> rfl
@[simp] theorem State.viaTaken_running (op : BitVec 8) (c : TowCmd) (s : State) : (s.viaTaken op c).tow.running = s.tow.running := by
  unfold State.viaTaken
  split <;> rfl
@[simp] theorem State.viaTaken_nextCmd (op : BitVec 8) (c : TowCmd) (s : State) : (s.viaTaken op c).tow.nextCmd = s.tow.nextCmd := by
  unfold State.viaTaken
  split <;> rfl
@[simp] theorem State.viaTaken_towHeld (op : BitVec 8) (c : TowCmd) (s : State) (v : Via) : (s.viaTaken op c).towHeld v = s.towHeld v := by
  simp [State.towHeld]

theorem State.towRun_begun (r : TowRow) (c : TowCmd) (s : State) :
    State.towRun r c (s.viaTaken r.op c) = r.run s.tow.nextCmd c (s.begun r c) := by
  rw [← State.viaTaken_nextCmd r.op c s]
  rfl

theorem State.towTake_passed {r : TowRow} {c : TowCmd} {s : State} (p : s.core.block = .pilot → r.states.contains .pilot = true)
    (h : State.towCheck r c s = none) : State.towTake r c s = State.towRun r c s := by
  unfold State.towTake
  rw [if_neg (by simpa using p), h]

/-- A command that is taken runs in the state in which it begins. -/
theorem State.towRow_taken {r : TowRow} {c : TowCmd} {s : State} (h : s.Takes r c) :
    s.towRow r c = r.run s.tow.nextCmd c (s.begun r c) := by
  obtain ⟨_, isOpen, free, pilot, passed⟩ := h
  unfold State.towRow State.towArrive
  simp only [isOpen, Bool.not_true, Bool.false_eq_true, if_false, State.viaTaken_towHeld, free]
  rw [State.towTake_passed (by simpa using pilot) passed, State.towRun_begun]

/-- A command that may write registers: where it moves INST_ID, what R4 allows happens beside its effect. -/
theorem State.writes_eq {s : State} (f : State → State) (h : s.tow.waiting = []) :
    s.writes f = .next (State.finish s (if s.idMoved (f s) then (f s).upset else f s)) := by
  unfold State.writes
  split <;> exact State.does_next _ h

theorem State.does_towRow {r : TowRow} {c : TowCmd} {s : State} (h : s.Takes r c) :
    s.does (State.towRow r c) = .next (State.finish s (r.run s.tow.nextCmd c (s.begun r c))) := by
  rw [State.does_next _ h.1, State.towRow_taken h]

theorem State.writes_towRow {r : TowRow} {c : TowCmd} {s : State} (h : s.Takes r c) : let t := r.run s.tow.nextCmd c (s.begun r c)
    s.writes (State.towRow r c) = .next (State.finish s (if s.idMoved t then t.upset else t)) := by
  rw [State.writes_eq _ h.1, State.towRow_taken h]

/-! Runs of registers and of pairs (R424, R426). -/

theorem State.loadPairs_legal {o : Word} (v : Word) (l : List Word) (n : Nat) (r : Bool) (s : State) (high : bits o 63 24 = 0)
    (low : bits o 23 0 % 8 = 0) :
    s.loadPairs (o :: v :: l) n r = (s.regWrite (bits o 23 0) v).2.loadPairs l (n + 1) (r || (s.regWrite (bits o 23 0) v).1) := by
  simp [State.loadPairs, high, low]

theorem State.loadPairs_illegal {o : Word} (v : Word) (l : List Word) (n : Nat) (r : Bool) (s : State)
    (h : bits o 63 24 ≠ 0 ∨ bits o 23 0 % 8 ≠ 0) : s.loadPairs (o :: v :: l) n r = (some n, r, n, s) := by
  simp [State.loadPairs, h]

/-- Settles O29: each row's own run in the state in which it begins, and the equations of the two recursions. -/
theorem registerCommands : Obligations.RegisterCommands := by
  refine ⟨⟨fun s c h => ?regRead, fun s c h => ?regReadBlock, fun s c h => ?regWrite, fun s c h => ?regWriteMasked,
    fun s c h => ?charterLoad, fun s t => rfl⟩, fun n o s => ⟨rfl, rfl⟩, fun o v l n r s high low => ?legal, fun o v l n r s h => ?illegal⟩
  case regRead => exact State.does_towRow h
  case regReadBlock => exact State.does_towRow h
  case regWrite => exact State.writes_towRow h
  case regWriteMasked => exact State.writes_towRow h
  case charterLoad => exact State.writes_towRow h
  case legal => exact State.loadPairs_legal v l n r s high low
  case illegal => exact State.loadPairs_illegal v l n r s h

/-! What leaves the stored registers, and so INST_ID, as they were. -/

/-- Logging an event changes fault collection and the count of free values, and nothing else. -/
theorem Core.logEvent_eq (e : FltEvent) (s : Core) : ∃ (f : Faults) (n : Nat), s.logEvent e = { s with flt := f, freeCtr := n } := by
  unfold Core.logEvent Core.freeData
  dsimp only
  split
  · exact ⟨s.flt, s.freeCtr, rfl⟩
  · split
    · exact ⟨_, s.freeCtr, rfl⟩
    · split
      · exact ⟨_, s.freeCtr, rfl⟩
      · cases dataGiven e.src with
        | true => exact ⟨_, s.freeCtr, rfl⟩
        | false => exact ⟨_, s.freeCtr + 1, rfl⟩

theorem Core.raiseEv_eq (e : FltEvent) (s : Core) : ∃ (f : Faults) (n : Nat), s.raiseEv e = { s with flt := f, freeCtr := n } := by
  unfold Core.raiseEv
  split
  · obtain ⟨f, n, h⟩ := Core.logEvent_eq e s
    rw [h]
    exact ⟨_, n, rfl⟩
  · exact ⟨s.flt, s.freeCtr, rfl⟩

@[simp] theorem Core.raiseEv_regs (e : FltEvent) (s : Core) : (s.raiseEv e).regs = s.regs := by
  obtain ⟨f, n, h⟩ := Core.raiseEv_eq e s
  rw [h]

@[simp] theorem State.raise_regs (fam idx : Nat) (s : State) : (s.raise fam idx).core.regs = s.core.regs := Core.raiseEv_regs _ s.core

/-- Outputs leave every register. -/
theorem Core.foldS_emit_regs {α : Type} (x : α → Out) (l : List α) (s : Core) : (foldS (fun a => Core.emit (x a)) l s).regs = s.regs := by
  induction l generalizing s with
  | nil => rfl
  | cons a l ih => exact ih (s.emit (x a))

theorem State.flushReplies_regs (s : State) : s.flushReplies.core.regs = s.core.regs := Core.foldS_emit_regs _ _ s.core

theorem State.wireOut_regs (l : List Word) (n : Nat) (s : State) : (s.wireOut l n).core.regs = s.core.regs := Core.foldS_emit_regs _ _ s.core

theorem State.wireReady_regs (s : State) : s.wireReady.core.regs = s.core.regs := by
  unfold State.wireReady
  split
  · exact State.wireOut_regs _ _ _
  · rfl

theorem State.sendReply_regs (v : Via) (r : Reply) (s : State) : (s.sendReply v r).core.regs = s.core.regs := by
  cases v with
  | stream => exact State.flushReplies_regs _
  | window w => rfl
  | wire => exact State.wireReady_regs _

@[simp] theorem State.towError_regs (op tag : BitVec 8) (v : Via) (status : BitVec 8) (res : Option Word) (s : State) :
    (s.towError op tag v status res).core.regs = s.core.regs := by
  cases res with
  | none => exact State.sendReply_regs v _ _
  | some w => exact State.sendReply_regs v _ s

theorem State.idMoved_of_regs {s t : State} (h : t.core.regs = s.core.regs) : s.idMoved t = false :=
  State.idMoved_same (by simp only [Core.self, Core.reg, h])

theorem State.writes_to {s t : State} {f : State → State} (h : s.tow.waiting = []) (e : f s = t) :
    s.writes f = .next (State.finish s (if s.idMoved t then t.upset else t)) := by
  rw [State.writes_eq f h, e]

theorem State.writes_to_of_regs {s t : State} {f : State → State} (h : s.tow.waiting = []) (e : f s = t) (r : t.core.regs = s.core.regs) :
    s.writes f = .next (State.finish s t) := by
  rw [State.writes_to h e, State.idMoved_of_regs r]
  rfl

/-! The transports (R411, R412, R413). -/

/-- A packet whose header and payload agree is the command it spells; its words' credits go back. -/
theorem State.streamPacket_whole {s : State} {w p : Word} {d : List Word} (h : s.pilotOnly = false) (n : d.length = headLen w) :
    s.streamPacket (w :: p :: d) = (s.cmdCredit (d.length + 2)).towPacket (headOp w) (packet .stream w p d) := by
  simp [State.streamPacket, h, n]

theorem State.streamPacket_mismatch {s : State} {w p : Word} {d : List Word} (h : s.pilotOnly = false) (n : d.length ≠ headLen w) :
    s.streamPacket (w :: p :: d) =
      ((s.cmdCredit (d.length + 2)).raise famTowProto 0).towError (headOp w) (headTag w) .stream tsBadLength none := by
  simp [State.streamPacket, h, n]

theorem State.streamPacket_one {s : State} (w : Word) (h : s.pilotOnly = false) :
    s.streamPacket [w] = ((s.cmdCredit 1).raise famTowProto 0).towError (headOp w) (headTag w) .stream tsBadLength none := by
  simp [State.streamPacket, h]

theorem State.wireWrite_whole {s : State} {l : List (BitVec 8)} {w p : Word} {d : List Word} (h : s.wireOn = true)
    (e : wordsOfBytes l.length l = w :: p :: d) (n : l.length = 16 + 8 * headLen w) :
    s.wireWrite l = s.towPacket (headOp w) (packet .wire w p d) := by
  unfold State.wireWrite
  rw [e]
  simp [h, n]

theorem State.wireRead_ready {s : State} {l : List Word} (n : Nat) (h : s.wireOn = true) (r : s.tow.wire = some l) :
    s.wireRead n = s.wireOut l n := by
  simp [State.wireRead, h, r]

theorem State.wireRead_stretches {s : State} (n : Nat) (h : s.wireOn = true) (r : s.tow.wire = none) :
    s.wireRead n = s.onTow (fun t => { t with wireRead := some n }) := by
  simp [State.wireRead, h, r]

/-- With no reply a read transfer returns 0xFF bytes. -/
theorem State.wireTimeout_stretched {s : State} {n : Nat} (h : s.tow.wireRead = some n) :
    s.wireTimeout = (s.onTow (fun t => { t with wireRead := none })).onCore (foldS (fun _ => Core.emit (.twoWire 0xFF)) (List.range n)) := by
  unfold State.wireTimeout
  rw [h]
  rfl

/-- Settles O40: each transport's equation, under the outcome of a command that may write registers. -/
theorem transportEvents : Obligations.TransportEvents := by
  refine ⟨fun s w p d i h => ⟨fun n => ?whole, fun n => ?mismatch, ?one⟩, fun s w i => ?ring, fun s l w p d i h e n => ?wireWrite,
    fun s n l i h r => ?wireRead, fun s n i h r => ?wireStretch, fun s n i h => ?wireTimeout, fun s a => ?credit⟩
  case whole => exact State.writes_to i (State.streamPacket_whole h n)
  case mismatch => exact State.writes_to_of_regs i (State.streamPacket_mismatch h n) (by simp)
  case one => exact State.writes_to_of_regs i (State.streamPacket_one w h) (by simp)
  case ring => exact State.writes_eq (State.ring w) i
  case wireWrite => exact State.writes_to i (State.wireWrite_whole h e n)
  case wireRead => exact (State.does_next _ i).trans (by rw [State.wireRead_ready n h r]; rfl)
  case wireStretch => exact (State.does_next _ i).trans (by rw [State.wireRead_stretches n h r]; rfl)
  case wireTimeout => exact (State.does_next _ i).trans (by rw [State.wireTimeout_stretched h]; rfl)
  case credit => exact State.doesOn_next State.rplCredit a

/-! The MMIO window (R571 to R574, R582). -/

theorem State.mmio_closed {s : State} {f : Fin 4} (wr : Bool) (size : BitVec 2) (off : BitVec 16) (v : Word) (id : BitVec 8)
    (h : s.mmioOpen f.val = false) : s.mmio f wr size off v id = s := by
  simp [State.mmio, h]

/-- An access of another size or alignment answers 0. -/
theorem State.mmio_misfit {s : State} {f : Fin 4} {size : BitVec 2} {off : BitVec 16} (wr : Bool) (v : Word) (id : BitVec 8)
    (h : s.mmioOpen f.val = true) (m : size ≠ 3 ∨ off.toNat % 8 ≠ 0) :
    s.mmio f wr size off v id = s.onCore (Core.emit (.mmio f.val id.toNat 0)) := by
  have misfit : (size != 3 || off.toNat % 8 != 0) = true := by simpa using m
  simp only [State.mmio, h, misfit, Bool.not_true, Bool.false_eq_true, if_false, if_true]

theorem State.mmio_write {s : State} {f : Fin 4} {off : BitVec 16} (v : Word) (id : BitVec 8) (h : s.mmioOpen f.val = true)
    (a : off.toNat % 8 = 0) : s.mmio f true 3 off v id = (s.mmioWrite off.toNat v).onCore (Core.emit (.mmio f.val id.toNat 0)) := by
  simp [State.mmio, h, a]

theorem State.mmio_read {s : State} {f : Fin 4} {off : BitVec 16} (v : Word) (id : BitVec 8) (h : s.mmioOpen f.val = true)
    (a : off.toNat % 8 = 0) : s.mmio f false 3 off v id =
      (s.mmioRead off.toNat).2.onCore (Core.emit (.mmio f.val id.toNat (s.mmioRead off.toNat).1)) := by
  simp [State.mmio, h, a]

/-- A page below the interrupt page is a doorbell window's. -/
theorem State.mmioRead_window {o : Nat} (s : State) (h : o < 0x8000) : s.mmioRead o = ((s.window (o / 0x1000)).read (o % 0x1000), s) := by
  simp [State.mmioRead, h]

theorem State.mmioWrite_busy {s : State} {o : Nat} (v : Word) (h : o < 0x8000) (r : o % 0x1000 ≠ 0x20)
    (b : (s.window (o / 0x1000)).busy = true) : s.mmioWrite o v = s := by
  simp [State.mmioWrite, h, r, b]

theorem State.mmioWrite_free {s : State} {o : Nat} (v : Word) (h : o < 0x8000) (r : o % 0x1000 ≠ 0x20)
    (b : (s.window (o / 0x1000)).busy = false) :
    s.mmioWrite o v = s.putWindow (o / 0x1000) ((s.window (o / 0x1000)).write (o % 0x1000) v) := by
  simp [State.mmioWrite, h, r, b]

/-- The interrupt page holds a target's registers from its status to its raise register. -/
theorem irqPage_target (t : Fin 8) (l : Nat) (h : l = 0x20 ∨ l = 0x28) :
    irqPage (0x8000 + l + t.val * 0x40) = some (0x10C00 + l + t.val * 0x40) := by
  have low : (0x8000 + l + t.val * 0x40) % 0x40 = l := by omega
  unfold irqPage
  rw [if_pos ⟨by omega, by omega, by rw [low]; rcases h with rfl | rfl <;> rfl⟩]
  exact congrArg some (by omega)

theorem State.mmioRead_claim (t : Fin 8) (s : State) : s.mmioRead (0x8020 + t.val * 0x40) = s.regRead (0x10C20 + t.val * 0x40) := by
  have page : irqPage (0x8020 + t.val * 0x40) = some (0x10C20 + t.val * 0x40) := by simpa using irqPage_target t 0x20 (.inl rfl)
  unfold State.mmioRead
  rw [if_neg (by omega), page]

theorem State.mmioWrite_eoi (t : Fin 8) (v : Word) (s : State) :
    s.mmioWrite (0x8028 + t.val * 0x40) v = (s.regWrite (0x10C28 + t.val * 0x40) v).2 := by
  have low : (0x8028 + t.val * 0x40) % 0x40 = 0x28 := by omega
  have page : irqPage (0x8028 + t.val * 0x40) = some (0x10C28 + t.val * 0x40) := by simpa using irqPage_target t 0x28 (.inr rfl)
  unfold State.mmioWrite
  rw [dif_neg (by omega), page]
  simp [low]

/-- Settles O42: the window's equations, under the outcome of a command that may write registers. -/
theorem mmioAccess : Obligations.MmioAccess := by
  refine ⟨fun s f wr size off v id i h m => ?misfit, fun s f off v id i h a => ⟨?write, ?read⟩,
    fun s o v h => ⟨State.mmioRead_window s h, fun r b => State.mmioWrite_busy v h r b, fun r b => State.mmioWrite_free v h r b⟩,
    fun s t => ⟨State.mmioRead_claim t s, fun v => State.mmioWrite_eoi t v s⟩, fun s f wr size off v id i h => ?closed⟩
  case misfit => exact State.writes_to_of_regs i (State.mmio_misfit wr v id h m) rfl
  case write => exact State.writes_to i (State.mmio_write v id h a)
  case read => exact State.writes_to i (State.mmio_read v id h a)
  case closed => exact State.writes_to_of_regs i (State.mmio_closed wr size off v id h) rfl

/-! Requests of local agents (R188, R195, R259, R271). -/

/-- The commands of the requests, with their opcodes. -/
def requestRows : List ((Src → Hdr → Instr) × BitVec 8) :=
  [(.rdS, 0x00), (.rdF, 0x01), (.rdO, 0x02), (.upg, 0x03), (.rdNa, 0x04), (.wrFull, 0x10), (.wrPart, 0x11), (.atom, 0x18), (.wbD, 0x20),
    (.settle, 0x28)]

theorem exec_request {e : (Src → Hdr → Instr) × BitVec 8} (he : e ∈ requestRows) (src : Src) (h : Hdr) (s : State) :
    exec (e.1 src h) s = s.requestIn e.2 src h := by
  simp only [requestRows, List.mem_cons, List.not_mem_nil, or_false] at he
  rcases he with rfl | rfl | rfl | rfl | rfl | rfl | rfl | rfl | rfl | rfl <;> rfl

theorem State.requestIn_dark {f : Fin 4} (op : BitVec 8) (h : Hdr) {s : State} (on : s.fabOn f.val = false) :
    s.requestIn op (.fabric f) h = .next s := by
  simp [State.requestIn, State.fabricArrive, on]

/-- A TAG that is outstanding: what R4 allows happens beside the request's own effect. -/
theorem State.requestIn_held {f : Fin 4} (op : BitVec 8) {h : Hdr} {s : State} (w : s.tow.waiting = []) (on : s.fabOn f.val = true)
    (ok : s.core.agentOk f (agentLocal h.agent) = true) (held : s.tagHeld f h = true) :
    s.requestIn op (.fabric f) h = .next (State.finish s (s.arrive (.request f op h)).upset) := by
  simp only [State.requestIn, on, ok, held, Bool.and_self, if_true]
  exact State.does_next _ w

theorem State.requestIn_arrives {f : Fin 4} (op : BitVec 8) {h : Hdr} {s : State} (w : s.tow.waiting = []) (on : s.fabOn f.val = true)
    (new : (s.core.agentOk f (agentLocal h.agent) && s.tagHeld f h) = false) :
    s.requestIn op (.fabric f) h = .next (State.finish s (s.arrive (.request f op h))) := by
  rw [← State.fabricArrive_next _ on w]
  simp only [State.requestIn, on, new, Bool.and_assoc, Bool.and_false, Bool.false_eq_true, if_false]

theorem State.arrive_stopped {s : State} (a : Arrival) (h : s.core.stopped = true) : s.arrive a = { s with arrivals := s.arrivals ++ [a] } := by
  simp [State.arrive, h]

theorem State.arrive_taken {s : State} (a : Arrival) (h : s.core.stopped = false) : s.arrive a = s.takeArrival a := by
  simp [State.arrive, h]

@[simp] theorem agentLocal_agentId (i l : BitVec 6) : agentLocal (agentId i l) = l := BitVec.extractLsb'_append_eq_right

/-- What R188 asks of a request: a DEFINED agent on its own port, not tombstoned in a freeze, whose entry is free, allowed to its kind, with a
home and a form of R223's table. -/
structure Core.Admits (s : Core) (f : Fin 4) (op : BitVec 8) (h : Hdr) : Prop where
  defined : s.agentOk f (agentLocal h.agent) = true
  alive : s.frz.st = 0 ∨ s.tombed (s.ingress op h).agent = false
  room : s.headerRoom (.fabric f) (s.ingress op h) op = true
  allowed : (s.isIo (s.ingress op h).agent && ioForbidden op) = false
  home : (s.homeOf (s.ingress op h).line).isSome = true
  form : op = opAtom → atomBad (s.ingress op h).param = false

/-- Counting the message changes none of the checks. -/
theorem Core.Admits.bump {s : Core} {f : Fin 4} {op : BitVec 8} {h : Hdr} (a : s.Admits f op h) (g e n : Nat) : (s.bump g e n).Admits f op h :=
  ⟨a.defined, a.alive, a.room, a.allowed, a.home, a.form⟩

/-- A request that passes every check is stored. -/
theorem Core.fabricRequest_stored {s : Core} {f : Fin 4} {op : BitVec 8} {h : Hdr} (a : s.Admits f op h) :
    s.fabricRequest f op h = (s.bump (unitFab f.val) 0x110 1).storeRequest (.fabric f) op (s.ingress op h) false := by
  obtain ⟨defined, alive, room, allowed, home, form⟩ := a.bump (unitFab f.val) 0x110 1
  unfold Core.fabricRequest
  dsimp only
  rw [if_neg (by simp [defined]), if_neg (by simpa [or_iff_not_imp_left] using alive), if_neg (by simp [room]),
    if_neg (by simpa using form), if_neg (by simp [allowed]), if_neg (by simpa [Option.isSome_iff_ne_none] using home)]
  rfl

/-- The request data that came before its request, where the request carries any (R119). -/
def Core.earlyFor (s : Core) (f : Fin 4) (op : BitVec 8) (h : Hdr) : Option EarlyData :=
  if carriesData op then s.host.early.find? (fun d =>
    d.port = f && d.loc = agentLocal h.agent && d.tag = h.tag && (d.op = opDatM) == (op = opWbD)) else none

/-- The berth entry of a request of a local agent, with the data that came before it (R188, R198). -/
def Core.berthFor (s : Core) (f : Fin 4) (op : BitVec 8) (h : Hdr) : Berth :=
  let early := s.earlyFor f op h
  { id := s.nextId, op := op, h := h, own := false, pool := h.credit, port := some f, stamp := s.arrival
    hash := sliceHash h.line, ep := f.val, data := early.map (fun d => d.beats)
    poison := (early.map (fun d => d.poison)).getD false, made := (early.map (fun d => d.made)).getD false
    full := !carriesData op || early.isSome, seq := s.host.seq }

/-- The engine with a request of a local agent at the back of its berths. -/
def Core.berthed (s : Core) (f : Fin 4) (op : BitVec 8) (h : Hdr) : Core := { s with
  nextId := s.nextId + 1
  host := { s.host with
    berths := s.host.berths ++ [s.berthFor f op h]
    seq := s.host.seq + 1
    early := match s.earlyFor f op h with
      | some d => s.host.early.filter (fun y => !(y.port = d.port && y.loc = d.loc && y.tag = d.tag && y.op = d.op))
      | none => s.host.early } }

theorem Core.storeRequest_fabric (f : Fin 4) (op : BitVec 8) (h : Hdr) (s : Core) : s.storeRequest (.fabric f) op h false =
    if op = opWbD then (s.berthed f op h).wbCame h.agent h.line else s.berthed f op h := by
  simp only [Core.storeRequest, Option.isSome_some, Bool.and_true, decide_eq_true_eq]
  rfl

/-- The host port keeps a request's local number and TAG, by which its data is found. -/
theorem Core.earlyFor_ingress (f : Fin 4) (op : BitVec 8) (h : Hdr) (g e n : Nat) (s : Core) :
    (s.bump g e n).earlyFor f op (s.ingress op h) = s.earlyFor f op h := by
  have loc : agentLocal (s.ingress op h).agent = agentLocal h.agent := agentLocal_agentId _ _
  unfold Core.earlyFor
  rw [loc]
  rfl

/-- Settles O43: a request meets a port without power, or an outstanding TAG, or a block whose work has stopped, or its checks. -/
theorem fabricRequests : Obligations.FabricRequests := by
  intro e he f h s w
  rw [exec_request he]
  refine ⟨State.requestIn_dark e.2 h, State.requestIn_held e.2 w, fun on new stopped => ?waits, fun on new goes ok => ?taken⟩
  case waits => rw [State.requestIn_arrives e.2 w on new, State.arrive_stopped _ stopped]
  case taken =>
    intro a g alive room allowed home form
    have passes : s.core.Admits f e.2 h := ⟨ok, alive, room, allowed, home, form⟩
    rw [State.requestIn_arrives e.2 w on (by rw [new, Bool.and_false]), State.arrive_taken _ goes]
    simp only [State.takeArrival, State.onCore, Core.fabricRequest_stored passes, Core.storeRequest_fabric, Core.berthed, Core.berthFor,
      Core.earlyFor_ingress]
    rfl

/-! Liveness timers and answers (R390, R392, R523). -/

theorem Core.takes_running {s : Core} (f : Core → Core) (h : s.stopped = false) : s.takes f = f s := by
  simp [Core.takes, h]

theorem Core.snoopTimeout_agent_none {l : BitVec 6} {s : Core} (h : s.agentOwes l = false) : s.snoopTimeout (.agent l) = s := by
  simp [Core.snoopTimeout, h]

/-- An agent that owes a snoop is pinged once, waited for while its ping runs, and STUCK once it has answered one. -/
theorem Core.snoopTimeout_agent_new {l : BitVec 6} {s : Core} (h : s.agentOwes l = true)
    (new : s.frz.agentPings.find? (fun e => e.1 = l) = none) : s.snoopTimeout (.agent l) = s.pingAgent l := by
  simp only [Core.snoopTimeout, h, new, Bool.not_true, Bool.false_eq_true, if_false]

theorem Core.snoopTimeout_agent_waits {l : BitVec 6} {s : Core} (h : s.agentOwes l = true)
    (p : s.frz.agentPings.find? (fun e => e.1 = l) = some (l, false)) : s.snoopTimeout (.agent l) = s := by
  simp only [Core.snoopTimeout, h, p, Bool.not_true, Bool.false_eq_true, if_false]

theorem Core.snoopTimeout_agent_stuck {l : BitVec 6} {s : Core} (h : s.agentOwes l = true)
    (p : s.frz.agentPings.find? (fun e => e.1 = l) = some (l, true)) :
    s.snoopTimeout (.agent l) = s.declare 3 s.self (oneHot 64 l.toNat) := by
  simp only [Core.snoopTimeout, h, p, Bool.not_true, Bool.false_eq_true, if_false]

theorem Core.snoopTimeout_chip_none {i : BitVec 6} {s : Core}
    (h : s.instOwes i = false ∨ s.frz.instPings.contains i = true ∨ s.silent i = true) : s.snoopTimeout (.chip i) = s := by
  have idle : (s.instOwes i && !s.frz.instPings.contains i && !s.silent i) = false := by
    rcases h with h | h | h <;> simp only [h, Bool.false_and, Bool.and_false, Bool.not_true]
  simp only [Core.snoopTimeout, idle, Bool.false_eq_true, if_false]

theorem Core.snoopTimeout_chip {i : BitVec 6} {s : Core} (owes : s.instOwes i = true) (new : s.frz.instPings.contains i = false)
    (heard : s.silent i = false) : s.snoopTimeout (.chip i) = s.pingInst i := by
  simp only [Core.snoopTimeout, owes, new, heard, Bool.not_false, Bool.and_self, if_true]

theorem Core.pingTimeout_agent {l : BitVec 6} {s : Core} (h : s.frz.agentPings.contains (l, false) = true) : s.pingTimeout (.agent l) =
    ({ s with frz := { s.frz with agentPings := s.frz.agentPings.filter (fun e => e.1 != l) } }).declare 2 s.self (oneHot 64 l.toNat) := by
  simp only [Core.pingTimeout, h, if_true]

theorem Core.pingTimeout_agent_none {l : BitVec 6} {s : Core} (h : s.frz.agentPings.contains (l, false) = false) :
    s.pingTimeout (.agent l) = s := by
  simp only [Core.pingTimeout, h, Bool.false_eq_true, if_false]

theorem Core.pingTimeout_chip {i : BitVec 6} {s : Core} (h : s.frz.instPings.contains i = true) : s.pingTimeout (.chip i) =
    ({ s with frz := { s.frz with instPings := s.frz.instPings.filter (fun j => j != i) } }).declare 5 i (BitVec.allOnes 64) := by
  simp only [Core.pingTimeout, h, if_true]

theorem Core.pingTimeout_chip_none {i : BitVec 6} {s : Core} (h : s.frz.instPings.contains i = false) : s.pingTimeout (.chip i) = s := by
  simp only [Core.pingTimeout, h, Bool.false_eq_true, if_false]

theorem Core.heartbeatLost_live {l : BitVec 6} {s : Core} (on : bits (s.reg 0x20600) 23 16 ≠ 0)
    (present : s.host.present.getLsbD l.toNat = true) (defined : s.defined l = true) :
    s.heartbeatLost l = s.declare 1 s.self (oneHot 64 l.toNat) := by
  simp only [Core.heartbeatLost, bne_iff_ne.mpr on, present, defined, Bool.and_self, if_true]

theorem Core.heartbeatLost_none {l : BitVec 6} {s : Core}
    (h : bits (s.reg 0x20600) 23 16 = 0 ∨ s.host.present.getLsbD l.toNat = false ∨ s.defined l = false) : s.heartbeatLost l = s := by
  unfold Core.heartbeatLost
  rw [if_neg]
  rcases h with h | h | h <;> simp [h]

/-- Whether the fall of an agent's presence leaves work outstanding (R391). -/
def Core.presenceOwes (s : Core) (l : BitVec 6) : Bool :=
  s.agentOwes l || s.host.berths.any (fun b => b.h.agent = agentId s.self l && !b.own && !b.posted)

theorem Core.presenceChange_follows {l : BitVec 6} {up : Bool} {s : Core}
    (h : up = true ∨ s.host.present.getLsbD l.toNat = false ∨ s.presenceOwes l = false) :
    s.presenceChange l up = s.onHost (fun x => { x with present := putBit x.present l.toNat up }) := by
  unfold Core.presenceChange
  dsimp only
  rw [← Core.presenceOwes, if_neg]
  rcases h with h | h | h <;> simp [h]

theorem Core.presenceChange_dies {l : BitVec 6} {s : Core} (present : s.host.present.getLsbD l.toNat = true)
    (owes : s.presenceOwes l = true) : s.presenceChange l false =
      (s.onHost (fun x => { x with present := putBit x.present l.toNat false })).declare 4 s.self (oneHot 64 l.toNat) := by
  unfold Core.presenceChange
  dsimp only
  rw [← Core.presenceOwes, if_pos (by simp [present, owes])]

/-! Declarations (R390). -/

/-- Agents already dead are declared again to no effect. -/
theorem Core.declare_dead {c : Nat} {i : BitVec 6} {m : BitVec 64} {s : Core} (h : m &&& ~~~(s.tombs i) = 0) : s.declare c i m = s := by
  unfold Core.declare
  exact if_pos h

theorem agentsOf_oneHot (l : BitVec 6) : agentsOf (oneHot 64 l.toNat) = [l] := by
  revert l
  decide

theorem oneHot_ne_zero (l : BitVec 6) : oneHot 64 l.toNat ≠ 0 := by
  revert l
  decide

theorem oneHot_and_not {v : BitVec 64} {i : Nat} (h : v.getLsbD i = false) : oneHot 64 i &&& ~~~v = oneHot 64 i := by
  ext k hk
  by_cases e : i = k
  · subst e
    simp [← BitVec.getLsbD_eq_getElem, h, hk]
  · simp [← BitVec.getLsbD_eq_getElem, oneHot_getLsbD_false i k e]

/-- Of the steps of a list, only the one that a state names acts, where no step changes the name. -/
theorem foldS_named {σ : Type} {name : σ → Nat} {f : Nat → σ → σ} (h : ∀ n x, name (f n x) = name x) {l : List Nat}
    (nodup : l.Nodup) (x : σ) :
    foldS (fun n x => if name x = n then f n x else x) l x = if name x ∈ l then f (name x) x else x := by
  induction l generalizing x with
  | nil => rfl
  | cons n l ih =>
    obtain ⟨fresh, nodup⟩ := List.nodup_cons.mp nodup
    by_cases e : name x = n
    · have rest : name (f n x) ∉ l := by rwa [h, e]
      calc foldS _ (n :: l) x = foldS _ l (f n x) := congrArg (foldS _ l) (if_pos e)
        _ = f n x := (ih nodup (f n x)).trans (if_neg rest)
        _ = _ := by rw [if_pos (by simp [e]), e]
    · calc foldS _ (n :: l) x = foldS _ l x := congrArg (foldS _ l) (if_neg e)
        _ = if name x ∈ l then f (name x) x else x := ih nodup x
        _ = _ := by simp only [List.mem_cons, e, false_or]

theorem Core.raiseEv_fport (e : FltEvent) (l : BitVec 6) (s : Core) : (s.raiseEv e).fport l = s.fport l := by
  simp only [Core.fport, Core.reg, Core.raiseEv_regs]

/-- A local agent's death, as its fabric port f reports it. -/
def deadAt (c : Nat) (i l : BitVec 6) (f : Nat) : FltEvent :=
  ⟨32 * famAgentDead + unitFab f, 0, agentId i l, BitVec.ofNat 24 (c + i.toNat * 16), oneHot 64 l.toNat, some (i, oneHot 64 l.toNat)⟩

theorem Core.declare_local {c : Nat} {l : BitVec 6} {s : Core} (known : c ≠ 5) (alive : (s.tombs s.self).getLsbD l.toNat = false) :
    s.declare c s.self (oneHot 64 l.toNat) = if s.fport l < 4 then s.raiseEv (deadAt c s.self l (s.fport l)) else s := by
  have agents : agentsOf (oneHot 64 l.toNat) = [l] := agentsOf_oneHot l
  have set : setBit (0 : BitVec 64) l.toNat = oneHot 64 l.toNat := BitVec.zero_or
  have ports := foldS_named (name := fun k : Core => k.fport l) (f := fun f k => k.raiseEv (deadAt c s.self l f))
    (fun f k => Core.raiseEv_fport _ l k) (List.nodup_range (n := 4)) s
  simp only [List.mem_range] at ports
  rw [← ports]
  unfold Core.declare
  rw [oneHot_and_not alive]
  dsimp only
  rw [if_neg (oneHot_ne_zero l), if_neg known, if_pos rfl]
  congr 1
  funext f k
  rw [agents]
  by_cases e : k.fport l = f
  · simp only [List.foldl_cons, List.foldl_nil, e, if_true, set, oneHot_ne_zero l, if_false, agents, deadAt]
  · simp [e]

theorem Core.declare_silent {i : BitVec 6} {s : Core} (alive : s.tombs i = 0) : s.declare 5 i (BitVec.allOnes 64) =
    s.raiseEv ⟨32 * famInstSilent, 0, 0, BitVec.ofNat 24 (5 + i.toNat * 16), BitVec.allOnes 64, some (i, BitVec.allOnes 64)⟩ := by
  have all : BitVec.allOnes 64 &&& ~~~(s.tombs i) = BitVec.allOnes 64 := by rw [alive]; rfl
  unfold Core.declare
  rw [all]
  rfl

/-! The freeze's timers (R394, R397). -/

theorem Core.quietEnd_none {s : Core} (h : s.frz.st ≠ 2 ∨ s.frz.ready = true) : s.quietEnd = s := by
  unfold Core.quietEnd
  rw [if_neg]
  rcases h with h | h <;> simp [h]

/-- The views are compared at the coordinator alone. -/
theorem Core.compareViews_member {s : Core} (h : s.frz.coord ≠ s.self) : s.compareViews = s := by
  simp [Core.compareViews, h]

/-- The message that tells the coordinator the view held here. -/
def Core.readyMsg (s : Core) : Msg := ⟨opFrzReady, { Hdr.zero with
  tag := s.frz.number.setWidth 10
  param := s.view.extractLsb' 48 16
  line := s.view.extractLsb' 0 48
  srci := s.self
  dsti := s.frz.coord }, none⟩

theorem Core.quietEnd_member {s : Core} (goes : s.stopped = false) (quiet : s.frz.st = 2) (unready : s.frz.ready = false)
    (member : s.frz.coord ≠ s.self) :
    s.quietEnd = { s with frz := { s.frz with ready := true }, toSend := s.toSend ++ [culOwn s.readyMsg] } := by
  have sent : s.sendReady = { s with frz := { s.frz with ready := true }, toSend := s.toSend ++ [culOwn s.readyMsg] } := by
    unfold Core.sendReady
    exact if_neg member
  unfold Core.quietEnd
  rw [if_pos (by simp [goes, quiet, unready]), sent]
  exact Core.compareViews_member member

theorem Core.thawWait_none {s : Core}
    (h : s.frz.st ≠ 2 ∨ s.frz.ready = false ∨ s.frz.coord = s.self ∨ s.frz.instPings.contains s.frz.coord = true) : s.thawWait = s := by
  unfold Core.thawWait
  rw [if_neg]
  rcases h with h | h | h | h <;> simp only [h, bne_self_eq_false, decide_false, Bool.not_true, Bool.false_and, Bool.and_false,
    Bool.false_eq_true, not_false_eq_true]

theorem Core.thawWait_pings {s : Core} (goes : s.stopped = false) (quiet : s.frz.st = 2) (ready : s.frz.ready = true)
    (member : s.frz.coord ≠ s.self) (new : s.frz.instPings.contains s.frz.coord = false) : s.thawWait = s.pingInst s.frz.coord := by
  unfold Core.thawWait
  rw [if_pos]
  simp only [goes, quiet, ready, bne_iff_ne.mpr member, new, decide_true, Bool.not_false, Bool.and_self]

theorem Core.freezeLate_none {s : Core} (h : s.frz.st = 0 ∨ s.frz.late = true) : s.freezeLate = s := by
  unfold Core.freezeLate Core.freezing
  rw [if_neg]
  rcases h with h | h <;> simp [h]

theorem Core.freezeLate_once {s : Core} (frozen : s.frz.st ≠ 0) (new : s.frz.late = false) :
    s.freezeLate = ({ s with frz := { s.frz with late := true } } : Core).raise famFreezeLate 0 := by
  unfold Core.freezeLate Core.freezing
  rw [if_pos (by simp [frozen, new])]

/-! Presence as the block samples it (R523, R581). -/

theorem State.presence_undefined {l : BitVec 6} {s : State} (up : Bool) (h : s.core.defined l = false) : s.presence l up = s := by
  simp [State.presence, h]

theorem State.presence_defined {l : BitVec 6} {s : State} (up : Bool) (h : s.core.defined l = true) :
    s.presence l up = s.onCore (Core.presenceChange l up) := by
  simp [State.presence, h]

/-- Only a DEFINED agent's presence can be that of an agent not admitted. -/
theorem State.defined_of_badPresence {l : BitVec 6} {up : Bool} {s : State} (h : s.badPresence l up = true) : s.core.defined l = true := by
  simp only [State.badPresence, Bool.and_eq_true] at h
  obtain ⟨⟨⟨_, defined⟩, _⟩, _⟩ := h
  exact defined

theorem exec_presenceChange_bad {l : BitVec 6} {up : Bool} {s : State} (a : s.Able) (h : s.badPresence l up = true) :
    exec (.presenceChange l up) s = .next (State.finish s (s.onCore (Core.presenceChange l up)).upset) := by
  refine (State.doesOn_next _ a).trans ?_
  rw [if_pos h, State.presence_defined up (State.defined_of_badPresence h)]

theorem exec_presenceChange {l : BitVec 6} {up : Bool} {s : State} (a : s.Able) (h : s.badPresence l up = false) :
    exec (.presenceChange l up) s = .next (State.finish s (s.presence l up)) := by
  refine (State.doesOn_next _ a).trans ?_
  rw [if_neg (by simp [h])]

/-! Commands of the engine. -/

/-- A command of the engine that acts whether or not the block's work has stopped. -/
theorem State.doesOn_core {s : State} {f : Core → Core} {k : Core} (a : s.Able) (e : f s.core = k) :
    s.doesOn (State.onCore f) = .next (State.finish s { s with core := k }) := by
  rw [State.doesOn_next _ a, ← e]
  rfl

/-- A command of the engine that waits while the block's work has stopped. -/
theorem State.doesOn_takes {s : State} {f : Core → Core} {k : Core} (a : s.Able) (goes : s.core.stopped = false) (e : f s.core = k) :
    s.doesOn (State.onCore (Core.takes f)) = .next (State.finish s { s with core := k }) :=
  State.doesOn_core a ((Core.takes_running f goes).trans e)

/-- Settles O55: the timers, presence, the declarations and the freeze's timers, each by its equations. -/
theorem freezeAndLiveness : Obligations.FreezeAndLiveness := by
  refine ⟨fun s l a goes => ⟨fun h => ?owesNone, fun h new => ?pinged, fun h p => ?stuck, fun h p => ?waits, fun h => ?noPing, fun h => ?dead,
      fun i => ⟨fun h => ?chipOwesNone, fun h => ?noChipPing, fun owes new heard => ?chipPinged, fun h => ?silent⟩,
      fun on present defined => ?heartbeat, fun h => ?noHeartbeat⟩,
    fun s l up a => ⟨exec_presenceChange_bad a, fun ok h => ?undefined, fun ok h follows => ?follows, fun ok h fall present busy => ?dies,
      State.doesOn_core a rfl, State.doesOn_core a rfl⟩,
    fun k c i l m => ⟨Core.declare_dead, Core.declare_local, Core.declare_silent⟩,
    fun s a goes => ⟨fun h => ?notQuiet, fun quiet unready member => ?ready, fun h => ?noThawWait, fun quiet ready member new => ?thawWait,
      fun h => ?notLate, fun frozen new => ?late⟩⟩
  case owesNone => exact State.doesOn_takes a goes (Core.snoopTimeout_agent_none h)
  case pinged => exact State.doesOn_takes a goes (Core.snoopTimeout_agent_new h new)
  case stuck => exact State.doesOn_takes a goes (Core.snoopTimeout_agent_stuck h p)
  case waits => exact State.doesOn_takes a goes (Core.snoopTimeout_agent_waits h p)
  case noPing => exact State.doesOn_takes a goes (Core.pingTimeout_agent_none h)
  case dead => exact State.doesOn_takes a goes (Core.pingTimeout_agent h)
  case chipOwesNone => exact State.doesOn_takes a goes (Core.snoopTimeout_chip_none h)
  case noChipPing => exact State.doesOn_takes a goes (Core.pingTimeout_chip_none h)
  case chipPinged => exact State.doesOn_takes a goes (Core.snoopTimeout_chip owes new heard)
  case silent => exact State.doesOn_takes a goes (Core.pingTimeout_chip h)
  case heartbeat => exact State.doesOn_core a (Core.heartbeatLost_live on present defined)
  case noHeartbeat => exact State.doesOn_core a (Core.heartbeatLost_none h)
  case undefined => rw [exec_presenceChange a ok, State.presence_undefined up h]
  case follows => rw [exec_presenceChange a ok, State.presence_defined up h, State.onCore, Core.presenceChange_follows follows]; rfl
  case dies =>
    subst fall
    rw [exec_presenceChange a ok, State.presence_defined false h, State.onCore, Core.presenceChange_dies present busy]
    rfl
  case notQuiet => exact State.doesOn_core a (Core.quietEnd_none h)
  case ready => exact State.doesOn_core a (Core.quietEnd_member goes quiet unready member)
  case noThawWait => exact State.doesOn_core a (Core.thawWait_none h)
  case thawWait => exact State.doesOn_core a (Core.thawWait_pings goes quiet ready member new)
  case notLate => exact State.doesOn_core a (Core.freezeLate_none h)
  case late => exact State.doesOn_core a (Core.freezeLate_once frozen new)


/-! What a register write by no named transport does where the stored registers are in their form (R13, R302, R559, R560). -/

theorem State.reached {s : State} (h : s.pilotOnly = false) (o : Nat) : (s.core.block = .off || (s.pilotOnly && !pilotReg o)) = false := by
  have lit : s.core.block ≠ .off := fun off => by simp [State.pilotOnly, off] at h
  simp [h, lit]

/-- Where no field is RWL the lock changes nothing. -/
theorem State.storeFields_rw {s : State} {o : Nat} (v : Word) (h : rwlMask o = 0) :
    s.storeFields o v = (false, s.onCore (Core.setReg o ((s.reg o &&& ~~~(rwMask o)) ||| (v &&& rwMask o)))) := by
  cases k : s.locked with
  | false => exact State.storeFields_unlocked o v k
  | true =>
    have all : rwMask o &&& ~~~0 = rwMask o := BitVec.and_allOnes
    rw [State.storeFields_locked o v k, h, all]
    exact if_pos BitVec.and_zero

/-- SIMMER_CTL, SKL_CTL, FRZ_CTL, FLT_CTL and LOG_CTL. -/
def plainRegs : List Nat := [0x110, 0x140, 0x20600, 0x20400, 0x43000]

theorem State.regWrite_plain {s : State} {o : Nat} (v : Word) (h : s.pilotOnly = false) (ho : o ∈ plainRegs) :
    (s.regWrite o v).2 = s.onCore (Core.setReg o ((s.reg o &&& ~~~(rwMask o)) ||| (v &&& rwMask o))) := by
  have cases : o = 0x110 ∨ o = 0x140 ∨ o = 0x20600 ∨ o = 0x20400 ∨ o = 0x43000 := by simpa [plainRegs] using ho
  have fields := State.storeFields_rw (s := s) (o := o) v (by rcases cases with rfl | rfl | rfl | rfl | rfl <;> rfl)
  have own : (if o < 0x30000 then s.writeOwnLow o v else s.writeOwnHigh o v) = none := by
    rcases cases with rfl | rfl | rfl | rfl | rfl <;> rfl
  have after (t : State) : (if o < 0x30000 then t.afterLow o (s.reg o) v else t.afterHigh o v) = t := by
    rcases cases with rfl | rfl | rfl | rfl | rfl <;> rfl
  have writable : rwMask o ≠ 0 := by rcases cases with rfl | rfl | rfl | rfl | rfl <;> decide
  have holdup : o ≠ 0x30100 := by omega
  simp only [State.regWrite, State.reached h, own, fields, after, writable, holdup, Bool.false_eq_true, if_false]

theorem exec_genericRegisterWrite_plain {s : State} {off : RegOff} (v : Word) (a : s.Able) (h : s.pilotOnly = false)
    (form : mrising 0 s.core.regs = true) (ho : off.toNat ∈ plainRegs) :
    exec (.genericRegisterWrite off v) s = .next (State.finish s { s with
      core := s.core.setReg off.toNat ((s.reg off.toNat &&& ~~~(rwMask off.toNat)) ||| (v &&& rwMask off.toNat)) }) := by
  have aligned : off.toNat % 8 = 0 := by simp only [plainRegs, List.mem_cons, List.not_mem_nil, or_false] at ho; omega
  have other : offInstId ≠ off.toNat := by
    simp only [plainRegs, List.mem_cons, List.not_mem_nil, or_false] at ho
    unfold offInstId
    omega
  have effect : s.writeGeneric off.toNat v =
      s.onCore (Core.setReg off.toNat ((s.reg off.toNat &&& ~~~(rwMask off.toNat)) ||| (v &&& rwMask off.toNat))) := by
    rw [State.writeGeneric, if_pos aligned]
    exact State.regWrite_plain v h ho
  have still : s.idMoved (s.writeGeneric off.toNat v) = false := by
    rw [effect]
    exact State.idMoved_same (congrArg (BitVec.extractLsb' 0 6) (Core.reg_setReg_other _ form other))
  exact (State.writes_next _ a.2 still).trans (by rw [effect]; rfl)

/-- An offset that no table names: what a write of it stores and does. -/
theorem State.regWrite_unnamed {s : State} {o : Nat} (v : Word) (h : (0x50000 ≤ o ∧ o < 0x80000) ∨ 0x220000 ≤ o) :
    (s.regWrite o v).2 = s := by
  have high : ¬o < 0x30000 := by omega
  have own : s.writeOwnHigh o v = none := by
    unfold State.writeOwnHigh
    rw [if_neg (by omega), if_neg (by rw [inArray_iff]; omega), if_neg (by rw [inArray_iff]; omega), if_neg (by rw [inArray_iff]; omega),
      if_neg (by omega), if_neg (by omega), if_neg (by omega), if_neg (by omega), if_neg (by omega), if_neg (by omega),
      if_neg (by rw [inArray_iff]; omega)]
  have fixed : rwMask o = 0 := by
    unfold rwMask rwUnit
    rw [if_neg (by omega), if_neg (by omega), if_neg (by omega), if_neg (by omega), if_neg (by omega)]
    dsimp only
    rw [if_neg (by omega), if_neg (by rw [inArray_iff]; omega), if_neg (by omega)]
  have holdup : o ≠ 0x30100 := by omega
  simp only [State.regWrite, high, own, fixed, holdup, if_false, if_true]
  split <;> rfl

theorem exec_genericRegisterWrite_unnamed {s : State} {off : RegOff} (v : Word) (a : s.Able)
    (h : off.toNat % 8 ≠ 0 ∨ (0x50000 ≤ off.toNat ∧ off.toNat < 0x80000) ∨ 0x220000 ≤ off.toNat) :
    exec (.genericRegisterWrite off v) s = .next (State.finish s s) := by
  have effect : s.writeGeneric off.toNat v = s := by
    unfold State.writeGeneric
    split
    · next aligned => exact State.regWrite_unnamed v (h.resolve_left (not_not_intro aligned))
    · rfl
  exact (State.writes_next _ a.2 (by rw [effect]; exact State.idMoved_same rfl)).trans (by rw [effect])

theorem State.writeGeneric_instId {s : State} (v : Word) (h : s.pilotOnly = false) (l : s.locked = false) :
    s.writeGeneric 0x10 v = s.onCore (Core.setReg 0x10 ((s.reg 0x10 &&& ~~~0x3F) ||| (v &&& 0x3F))) := by
  have fields := State.storeFields_unlocked (s := s) 0x10 v l
  have own : (if 0x10 < 0x30000 then s.writeOwnLow 0x10 v else s.writeOwnHigh 0x10 v) = none := rfl
  have writable : rwMask 0x10 ≠ 0 := by decide
  have after (t : State) (old : Word) : t.afterLow 0x10 old v = t := rfl
  simp only [State.writeGeneric, State.writeAt, State.regWrite, State.reached h, own, fields, after, writable, Bool.false_eq_true, if_false]
  rfl

/-- INST_ID takes the number written. -/
theorem instId_written (old v : Word) : ((old &&& ~~~0x3F) ||| (v &&& 0x3F)).extractLsb' 0 6 = v.extractLsb' 0 6 := by
  ext i hi
  have low : (0x3F : Word).getLsbD i = true := by
    have : i = 0 ∨ i = 1 ∨ i = 2 ∨ i = 3 ∨ i = 4 ∨ i = 5 := by omega
    rcases this with rfl | rfl | rfl | rfl | rfl | rfl <;> rfl
  simp only [BitVec.getElem_extractLsb', Nat.zero_add, BitVec.getLsbD_or, BitVec.getLsbD_and, BitVec.getLsbD_not, low, Bool.not_true,
    Bool.and_false, Bool.false_or, Bool.and_true]

/-- A write that moves INST_ID, once a port has been enabled, has its own effect and the free one of R4 beside it. -/
theorem exec_genericRegisterWrite_moved {s : State} {off : RegOff} {v : Word} (a : s.Able)
    (moved : s.idMoved (s.writeGeneric off.toNat v) = true) :
    exec (.genericRegisterWrite off v) s = .next (State.finish s (s.writeGeneric off.toNat v).upset) :=
  (State.writes_eq (State.writeGeneric off.toNat v) a.2).trans (by rw [if_pos moved])

theorem exec_genericRegisterWrite_instId {s : State} {v : Word} (a : s.Able) (h : s.pilotOnly = false) (l : s.locked = false)
    (used : s.cul.used = true) (form : mrising 0 s.core.regs = true) (other : v.extractLsb' 0 6 ≠ s.self) :
    exec (.genericRegisterWrite 0x10 v) s =
      .next (State.finish s (s.onCore (Core.setReg 0x10 ((s.reg 0x10 &&& ~~~0x3F) ||| (v &&& 0x3F)))).upset) := by
  have effect := State.writeGeneric_instId v h l
  have self : (s.writeGeneric 0x10 v).self = v.extractLsb' 0 6 := by
    rw [effect]
    exact (congrArg (BitVec.extractLsb' 0 6) (Core.reg_setReg_same 0x10 _ form)).trans (instId_written _ v)
  have moved : s.idMoved (s.writeGeneric 0x10 v) = true := by
    have still : (s.writeGeneric 0x10 v).cul.used = true := by rw [effect]; exact used
    simp only [State.idMoved, used, still, self, bne_iff_ne.mpr other.symm, Bool.and_self]
  exact (exec_genericRegisterWrite_moved (off := 0x10) a moved).trans (by rw [← effect]; rfl)

/-! The count of free values (log entry 7) through a step's end in which nothing is left to do. -/

theorem State.irqSend_freeCtr (s0 : State) (d : BitVec 8) (t : Nat) (s : State) :
    (State.irqSend s0 d t s).core.freeCtr = s.core.freeCtr := by
  unfold State.irqSend
  split <;> rfl

theorem State.irqCycle_freeCtr (s0 s : State) : (State.irqCycle s0 s).core.freeCtr = s.core.freeCtr := by
  have sends (l : List Nat) (x : State) : (foldS (State.irqSend s0 s0.delivNow) l x).core.freeCtr = x.core.freeCtr := by
    induction l generalizing x with
    | nil => rfl
    | cons t l ih => exact (ih _).trans (State.irqSend_freeCtr s0 _ t x)
  exact sends (List.range 8) s.irqSampleAll

/-- Every error source at IGNORE (R363). -/
def ignoring : Map Word := (List.range 128).map (fun k => (0x20000 + k * 8, 0))

theorem Core.severityOf_ignoring {s : Core} (h : s.regs = (0x10, 5) :: ignoring) {src : Nat} (hs : src < 2048) : s.severityOf src = 0 := by
  have rising : mrising 0 s.regs = true := by rw [h]; decide +kernel
  have listed : (0x20000 + src / 16 * 8, (0 : Word)) ∈ s.regs := by
    rw [h]
    exact List.mem_cons_of_mem _ (List.mem_map.mpr ⟨src / 16, List.mem_range.mpr (by omega), rfl⟩)
  have zero : s.reg (0x20000 + src / 16 * 8) = 0 := mget_of_mem rising listed
  simp [Core.severityOf, zero, bits]

/-- Updates of slices change the slices alone. -/
theorem Core.foldS_onSlice_eq (f : Nat → Slice → Slice) (l : List Nat) (s : Core) :
    ∃ m : Map Slice, foldS (fun p => Core.onSlice p (f p)) l s = { s with slices := m } := by
  induction l generalizing s with
  | nil => exact ⟨s.slices, rfl⟩
  | cons p l ih =>
    obtain ⟨m, h⟩ := ih (s.onSlice p (f p))
    exact ⟨m, h⟩

/-! A state whose stored registers are not in their form: INST_ID is listed twice. -/

/-- A block in a power-fail hold with no domain of a unit on, where a Culvert port has been enabled and every error source is at IGNORE: with
the stored registers, the block state, the slices, the events reported and the count of free values as given. -/
def resting (regs : Map Word) (b : BlockSt) (m : Map Slice) (r : List FltEvent) (n : Nat) : State :=
  { State.reset with
    core := { Core.reset with
      regs := regs
      block := b
      slices := m
      flt := { Faults.reset with raised := r }
      freeCtr := n
      doms := 0
      pf := { PowerFail.reset with hold := true } }
    cul := { Cul.reset with used := true } }

def twiceListed : State := resting ((0x10, 5) :: (0x10, 5) :: ignoring) .standby [] [] 0
/-- What a write of INST_ID's reset value leaves: the second entry, which still reads 5. -/
def onceListed (b : BlockSt) (m : Map Slice) (r : List FltEvent) (n : Nat) : State := resting ((0x10, 5) :: ignoring) b m r n

theorem twiceListed_write : twiceListed.writeGeneric 0x10 0 = onceListed .standby [] [] 0 := by rfl

/-- A fold whose steps all leave a state leaves it. -/
theorem foldS_fixed {σ α : Type} {f : α → σ → σ} {x : σ} (h : ∀ a, f a x = x) : ∀ l : List α, foldS f l x = x
  | [] => rfl
  | a :: l => (congrArg (foldS f l) (h a)).trans (foldS_fixed h l)

theorem onceListed_calm (b : BlockSt) (m : Map Slice) (n : Nat) : (onceListed b m [] n).calm = true := by rfl

theorem onceListed_quiet (b : BlockSt) (m : Map Slice) (n : Nat) : (onceListed b m [] n).quiet = true := by rfl

/-- No pair runs before the write, so none commits. -/
theorem onceListed_commitAll (b : BlockSt) (m : Map Slice) (n : Nat) :
    State.commitAll twiceListed (onceListed b m [] n) = onceListed b m [] n :=
  foldS_fixed (fun p => by
    have dark : twiceListed.galRuns p = false := by simp [State.galRuns, twiceListed, resting]
    simp [State.galCommit, dark]) _

/-- No procedure is under way. -/
theorem onceListed_reconcile (b : BlockSt) (m : Map Slice) (n : Nat) : (onceListed b m [] n).reconcile = onceListed b m [] n := by
  have unpark : (onceListed b m [] n).unpark = onceListed b m [] n := rfl
  have dump : (onceListed b m [] n).dumpReconcile = onceListed b m [] n := rfl
  have fence : (onceListed b m [] n).fenceReconcile = onceListed b m [] n := rfl
  have pairs : foldS State.galReconcile (List.range 18) (onceListed b m [] n) = onceListed b m [] n := foldS_fixed (fun _ => rfl) _
  have load : (onceListed b m [] n).loadReconcile = onceListed b m [] n := rfl
  have leave : (onceListed b m [] n).leaveReconcile = onceListed b m [] n := rfl
  have gate : (onceListed b m [] n).gateReconcile = onceListed b m [] n := rfl
  have interrog : (onceListed b m [] n).interrogReconcile = onceListed b m [] n := rfl
  have work : (onceListed b m [] n).workPump = onceListed b m [] n := rfl
  have drain : (onceListed b m [] n).drainReconcile = onceListed b m [] n := rfl
  have admission : (onceListed b m [] n).admitReconcile = onceListed b m [] n := rfl
  have retire : (onceListed b m [] n).retireReconcile = onceListed b m [] n := rfl
  have overlay : (onceListed b m [] n).overlayReconcile = onceListed b m [] n := rfl
  have maint : (onceListed b m [] n).maintReconcile = onceListed b m [] n := rfl
  have deep : (onceListed b m [] n).deepReconcile = onceListed b m [] n := rfl
  simp only [State.reconcile, unpark, dump, fence, pairs, load, leave, gate, interrog, work, drain, admission, retire, overlay, maint, deep]

theorem State.pump_quiet (n : Nat) {s : State} (h : s.quiet = true) : s.pump n = s := by
  cases n with
  | zero => rfl
  | succ n => simp [State.pump, h]

theorem Core.drain_done (n : Nat) {s : Core} (h : s.flt.raised = []) (k : s.nextTask = none) : s.drain n = s := by
  cases n with
  | zero => rfl
  | succ n => simp [Core.drain, h, k]

theorem Core.drain_event (n : Nat) {s : Core} {e : FltEvent} {l : List FltEvent} (h : s.flt.raised = e :: l) :
    s.drain (n + 1) = (({ s with flt := { s.flt with raised := l } } : Core).handle e).drain n := by
  simp [Core.drain, h]

/-- Events of sources at IGNORE have no effect. -/
theorem onceListed_drain (b : BlockSt) (m : Map Slice) (e : FltEvent) (n : Nat) (h : e.src < 2048) (fuel : Nat) :
    Core.drain (fuel + 1) (onceListed b m [e] n).core = (onceListed b m [] n).core := by
  have ignored : (onceListed b m [] n).core.handle e = (onceListed b m [] n).core := by
    simp [Core.handle, Core.severityOf_ignoring (s := (onceListed b m [] n).core) rfl h]
  rw [Core.drain_event fuel (e := e) (l := []) rfl]
  exact (congrArg (Core.drain fuel) ignored).trans (Core.drain_done fuel rfl rfl)

theorem onceListed_settle (b : BlockSt) (m : Map Slice) (e : FltEvent) (n : Nat) (h : e.src < 2048) :
    (onceListed b m [e] n).onCore Core.settle = onceListed b m [] n := by
  have drained : Core.settle (onceListed b m [e] n).core = (onceListed b m [] n).core := onceListed_drain b m e n h 65535
  unfold State.onCore
  rw [drained]
  rfl

theorem onceListed_pump (b : BlockSt) (m : Map Slice) (e : FltEvent) (n : Nat) (h : e.src < 2048) (fuel : Nat) :
    (onceListed b m [e] n).pump (fuel + 1) = onceListed b m [] n := by
  have noisy : (onceListed b m [e] n).quiet = false := rfl
  have moved : (onceListed b m [] n).moveOut.moveUp.moveIn = onceListed b m [] n := rfl
  simp only [State.pump, noisy, onceListed_settle b m e n h, moved, Bool.false_eq_true, if_false]
  exact State.pump_quiet fuel (onceListed_quiet b m n)

/-- What is left after the events of a step is the state at rest. -/
theorem onceListed_goOn (b : BlockSt) (m : Map Slice) (e : FltEvent) (n : Nat) (h : e.src < 2048) :
    State.goOn twiceListed (onceListed b m [e] n) = onceListed b m [] n := by
  have pumped : (onceListed b m [e] n).pump pumpFuel = onceListed b m [] n := onceListed_pump b m e n h 4095
  have rests : (onceListed b m [] n).pump pumpFuel = onceListed b m [] n := State.pump_quiet pumpFuel (onceListed_quiet b m n)
  have none : (onceListed b m [] n).resumeAll twiceListed.tow.waiting.length = onceListed b m [] n := rfl
  simp only [State.goOn, pumped, onceListed_reconcile, rests, none]

/-- A step's end takes no free value there. -/
theorem onceListed_finish (b : BlockSt) (m : Map Slice) {r : List FltEvent} (n : Nat) (h : r = [] ∨ ∃ e, r = [e] ∧ e.src < 2048) :
    (State.finish twiceListed (onceListed b m r n)).core.freeCtr = n := by
  have rests : (if (onceListed b m r n).calm then onceListed b m r n else State.goOn twiceListed (onceListed b m r n)) = onceListed b m [] n := by
    rcases h with rfl | ⟨e, rfl, h⟩
    · rw [onceListed_calm]
      rfl
    · have busy : (onceListed b m [e] n).calm = false := rfl
      rw [busy, onceListed_goOn b m e n h]
      rfl
  unfold State.finish
  split
  · rfl
  · simp only [rests, onceListed_commitAll, onceListed_quiet, if_true]
    split
    · exact State.irqCycle_freeCtr _ _
    · rfl

theorem onceListed_raise (b : BlockSt) (m : Map Slice) (n : Nat) {src : Nat} (h : src < 2048) (u : famUses (src / 32) (src % 32) = true) :
    (onceListed b m [] n).raise (src / 32) (src % 32) = onceListed b m [FltEvent.plain src] n := by
  have whole : 32 * (src / 32) + src % 32 = src := Nat.div_add_mod src 32
  have ignored : (onceListed b m [] n).core.logEvent (FltEvent.plain src) = (onceListed b m [] n).core := by
    simp [Core.logEvent, FltEvent.plain, Core.severityOf_ignoring (s := (onceListed b m [] n).core) rfl h]
  have used : famUses ((FltEvent.plain src).src / 32) ((FltEvent.plain src).src % 32) = true := u
  simp only [State.raise, State.onCore, Core.raise, whole, Core.raiseEv, used, if_true, ignored]
  rfl

theorem onceListed_coreUpset (b : BlockSt) (m : Map Slice) (r : List FltEvent) (n : Nat) : ∃ (b' : BlockSt) (m' : Map Slice),
    (onceListed b m r n).onCore Core.upset = onceListed b' m' r (n + 128) := by
  unfold State.onCore Core.upset
  dsimp only
  obtain ⟨m', h⟩ := Core.foldS_onSlice_eq _ _ _
  rw [h]
  exact ⟨_, m', rfl⟩

/-- R4's effect takes free values, and may report one event. -/
theorem onceListed_upset (b : BlockSt) (m : Map Slice) (n : Nat) : ∃ (b' : BlockSt) (m' : Map Slice) (r : List FltEvent) (k : Nat),
    (onceListed b m [] n).upset = onceListed b' m' r k ∧ n < k ∧ (r = [] ∨ ∃ e, r = [e] ∧ e.src < 2048) := by
  have raised (w : Word) : ∃ r : List FltEvent, (r = [] ∨ ∃ e, r = [e] ∧ e.src < 2048) ∧
      (if bit w 11 && famUses (bits w 10 0 / 32) (bits w 10 0 % 32) then (onceListed b m [] (n + 1)).raise (bits w 10 0 / 32) (bits w 10 0 % 32)
        else onceListed b m [] (n + 1)) = onceListed b m r (n + 1) := by
    split
    · next h =>
      have src : bits w 10 0 < 2048 := Nat.mod_lt _ (by decide)
      rw [Bool.and_eq_true] at h
      exact ⟨[FltEvent.plain (bits w 10 0)], .inr ⟨_, rfl, src⟩, onceListed_raise b m (n + 1) src h.2⟩
    · exact ⟨[], .inl rfl, rfl⟩
  obtain ⟨r, events, h⟩ := raised (Config.freeWord n)
  have first : (onceListed b m [] n).freeWord = (Config.freeWord n, onceListed b m [] (n + 1)) := rfl
  have second : (onceListed b m r (n + 1)).freeWord = (Config.freeWord (n + 1), onceListed b m r (n + 2)) := rfl
  unfold State.upset
  rw [first]
  dsimp only
  rw [h, second]
  dsimp only
  split
  · obtain ⟨b', m', k⟩ := onceListed_coreUpset b m r (n + 2)
    exact ⟨b', m', r, n + 2 + 128, k, by omega, events⟩
  · exact ⟨b, m, r, n + 2, rfl, by omega, events⟩

/-- Refutes O20: it speaks of every list of stored registers, and in `twiceListed`, where INST_ID is listed twice, a write of its reset value
takes the first entry out and reads 5 as before, so that INST_ID has not moved and R4's effect, which takes free values, does not follow. -/
theorem not_genericRegisterWrite : ¬ Obligations.GenericRegisterWrite := by
  rintro ⟨-, -, moves⟩
  have able : twiceListed.Able := ⟨rfl, rfl⟩
  have claimed : exec (.genericRegisterWrite 0x10 0) twiceListed = .next (State.finish twiceListed (onceListed .standby [] [] 0).upset) :=
    moves twiceListed 0 able rfl rfl rfl (by decide)
  have actual : exec (.genericRegisterWrite 0x10 0) twiceListed = .next (State.finish twiceListed (onceListed .standby [] [] 0)) :=
    (State.writes_next (State.writeGeneric 0x10 0) able.2 rfl).trans (by rw [twiceListed_write])
  obtain ⟨b, m, r, k, upset, taken, events⟩ := onceListed_upset .standby [] 0
  have same : State.finish twiceListed (onceListed .standby [] [] 0) = State.finish twiceListed (onceListed b m r k) := by
    rw [← upset]
    exact Host.Outcome.next.inj (actual.symm.trans claimed)
  have count := congrArg (fun s : State => s.core.freeCtr) same
  rw [onceListed_finish .standby [] 0 (.inl rfl), onceListed_finish b m k events] at count
  omega

/-! What R4 spares (R4, R302, R449). -/

/-- From s to t no stored register, no retention bit of the power-fail drain and no control store has changed, and the slices are in their
form where they were. -/
structure Core.Spares (s t : Core) : Prop where
  regs : t.regs = s.regs
  pf : t.pf = s.pf
  form : mrising 0 s.slices = true → mrising 0 t.slices = true
  control : mrising 0 s.slices = true → ∀ p, (t.slice p).control = (s.slice p).control

theorem Core.Spares.of_slices {s t : Core} (regs : t.regs = s.regs) (pf : t.pf = s.pf) (slices : t.slices = s.slices) : s.Spares t :=
  ⟨regs, pf, by rw [slices]; exact id, fun _ p => by rw [Core.slice, Core.slice, slices]⟩

theorem Core.Spares.trans {s t u : Core} (h : s.Spares t) (k : t.Spares u) : s.Spares u :=
  ⟨k.regs.trans h.regs, k.pf.trans h.pf, fun r => k.form (h.form r), fun r p => (k.control (h.form r) p).trans (h.control r p)⟩

theorem Core.setSlice_form (p : Nat) (x : Slice) {s : Core} (h : mrising 0 s.slices = true) : mrising 0 (s.setSlice p x).slices = true := by
  unfold Core.setSlice mset
  dsimp only
  split
  · exact merase_rising p h
  · exact mput_rising p x (Nat.zero_le p) h

theorem Core.onSlice_spares (p : Nat) {f : Slice → Slice} (hf : ∀ x, (f x).control = x.control) (s : Core) : s.Spares (s.onSlice p f) := by
  refine ⟨rfl, rfl, Core.setSlice_form p _, fun h q => ?_⟩
  by_cases e : q = p
  · subst e
    exact (congrArg Slice.control (mget_mset_same h)).trans (hf _)
  · exact congrArg Slice.control (mget_mset_other h e)

theorem Core.foldS_onSlice_spares {f : Nat → Slice → Slice} (hf : ∀ p x, (f p x).control = x.control) (l : List Nat) (s : Core) :
    s.Spares (foldS (fun p => Core.onSlice p (f p)) l s) := by
  induction l generalizing s with
  | nil => exact .of_slices rfl rfl rfl
  | cons p l ih => exact (s.onSlice_spares p (hf p)).trans (ih _)

theorem Core.upset_spares (s : Core) : s.Spares s.upset := by
  unfold Core.upset
  dsimp only
  refine Core.Spares.trans ?own (Core.foldS_onSlice_spares ?slices _ _)
  case own => exact .of_slices rfl rfl rfl
  case slices => exact fun _ _ => rfl

theorem Core.raiseEv_spares (e : FltEvent) (s : Core) : s.Spares (s.raiseEv e) := by
  obtain ⟨f, n, h⟩ := Core.raiseEv_eq e s
  rw [h]
  exact .of_slices rfl rfl rfl

theorem Core.freeCtr_spares (n : Nat) (s : Core) : s.Spares { s with freeCtr := n } := .of_slices rfl rfl rfl

/-- R4's effect touches the engine alone, and spares there what R4 says it spares. -/
theorem State.upset_spares (s : State) : ∃ k : Core, s.upset = { s with core := k } ∧ s.core.Spares k := by
  let drawn : Core := { s.core with freeCtr := s.core.freeCtr + 1 }
  have reported (w : Word) : ∃ k : Core, (if bit w 11 && famUses (bits w 10 0 / 32) (bits w 10 0 % 32)
      then State.raise (bits w 10 0 / 32) (bits w 10 0 % 32) { s with core := drawn } else { s with core := drawn }) = { s with core := k } ∧
      s.core.Spares k := by
    split
    · exact ⟨_, rfl, (s.core.freeCtr_spares _).trans (drawn.raiseEv_spares _)⟩
    · exact ⟨drawn, rfl, s.core.freeCtr_spares _⟩
  obtain ⟨k, h, spares⟩ := reported (Config.freeWord s.core.freeCtr)
  have drawnAgain : s.core.Spares { k with freeCtr := k.freeCtr + 1 } := spares.trans (k.freeCtr_spares _)
  have first : s.freeWord = (Config.freeWord s.core.freeCtr, { s with core := drawn }) := rfl
  unfold State.upset
  rw [first]
  dsimp only
  rw [h]
  by_cases upset : bit (Config.freeWord k.freeCtr) 0 = true
  · exact ⟨_, if_pos upset, drawnAgain.trans (Core.upset_spares _)⟩
  · exact ⟨_, if_neg upset, drawnAgain⟩

/-- The last clause of `UncheckedDutiesStopNothing`, of states whose slices are in their form. The clause itself speaks of every list of
slices: in one that lists a slice twice, first as it is at reset, R4's effect takes the first entry out and the second one's control store
shows, if the free word that decides on the effect says so. -/
theorem State.upset_leaves {s : State} (form : mrising 0 s.core.slices = true) : let u := s.upset
    u.core.regs = s.core.regs ∧ u.core.pf = s.core.pf ∧ (∀ p : Nat, (u.slice p).control = (s.slice p).control) ∧
    u.irq = s.irq ∧ u.watch = s.watch ∧ u.tow = s.tow ∧ u.gals = s.gals ∧ u.cul = s.cul ∧ u.pwr = s.pwr ∧ u.start = s.start ∧
    u.arrivals = s.arrivals ∧ u.pending = s.pending := by
  obtain ⟨k, h, spares⟩ := s.upset_spares
  rw [h]
  exact ⟨spares.regs, spares.pf, spares.control form, rfl, rfl, rfl, rfl, rfl, rfl, rfl, rfl, rfl⟩

theorem exec_ne_refused (i : Instr) (s : State) (r : Refusal) : exec i s ≠ .refused r := by
  obtain ⟨t, h⟩ := exec_completes i s
  rw [h]
  exact nofun

theorem exec_ne_fault (i : Instr) (s : State) (e : Fault) : exec i s ≠ .fault e := by
  obtain ⟨t, h⟩ := exec_completes i s
  rw [h]
  exact nofun

theorem exec_request_held {e : (Src → Hdr → Instr) × BitVec 8} (he : e ∈ requestRows) {f : Fin 4} {h : Hdr} {s : State} (a : s.Able)
    (lit : s.core.doms.getLsbD (66 + f.val) = true) (ok : s.core.agentOk f (agentLocal h.agent) = true) (held : s.tagHeld f h = true) :
    exec (e.1 (.fabric f) h) s = .next (State.finish s ((s.arrive (.request f e.2 h)).upset)) := by
  have on : s.fabOn f.val = true := by simp [State.fabOn, a.1, lit]
  rw [exec_request he]
  exact State.requestIn_held e.2 a.2 on ok held


/-! Why `UncheckedDutiesStopNothing` stays unsettled. All of it but the control stores in a list of slices not in its form holds; that one
part is settled by the values of `Config.freeWord`, which no proof can see: free words of 0 make it hold, free words of all ones make it
fail. -/

/-- All of the obligation holds but for what it says of the control stores in every list of slices. -/
theorem uncheckedDutiesStopNothing_iff_control :
    Obligations.UncheckedDutiesStopNothing ↔ ∀ (s : State) (p : Nat), (s.upset.slice p).control = (s.slice p).control := by
  unfold Obligations.UncheckedDutiesStopNothing
  constructor
  · rintro ⟨-, -, -, -, -, spares⟩ s
    obtain ⟨-, -, control, -⟩ := spares s
    exact control
  · intro control
    refine ⟨exec_ne_refused, exec_ne_fault, fun s f h a lit ok held e he => ?tag, fun s v a moved => ?id, fun s l a bad => ?presence,
      fun s => ?spares⟩
    case tag =>
      obtain ⟨row, listed, rfl⟩ := List.mem_map.1 (show e ∈ requestRows.map (fun r => (r.1 (.fabric f) h, r.2)) from he)
      exact exec_request_held listed a lit ok held
    case id => exact exec_genericRegisterWrite_moved (off := 0x10) a moved
    case presence =>
      rw [State.presence_defined true (State.defined_of_badPresence bad)]
      exact exec_presenceChange_bad a bad
    case spares =>
      obtain ⟨k, h, spares⟩ := s.upset_spares
      have stores := control s
      rw [h] at stores ⊢
      exact ⟨spares.regs, spares.pf, stores, rfl, rfl, rfl, rfl, rfl, rfl, rfl, rfl, rfl⟩

theorem Core.raiseEv_slices (e : FltEvent) (s : Core) : (s.raiseEv e).slices = s.slices := by
  obtain ⟨f, n, h⟩ := Core.raiseEv_eq e s
  rw [h]

theorem State.raise_slices (fam idx : Nat) (s : State) : (s.raise fam idx).core.slices = s.core.slices :=
  Core.raiseEv_slices _ _

/-- Free words of 0 make the obligation hold: R4's effect then enters no state and touches no slice. -/
theorem uncheckedDutiesStopNothing_of_freeWord_zero (zero : ∀ n, Config.freeWord n = 0) : Obligations.UncheckedDutiesStopNothing := by
  rw [uncheckedDutiesStopNothing_iff_control]
  intro s p
  have free (t : State) : t.freeWord = (0, t.onCore (fun c => { c with freeCtr := c.freeCtr + 1 })) := by
    rw [State.freeWord, zero]
  have quiet (n : Nat) : bit (0 : Word) n = false := by simp [bit]
  simp only [State.upset, free, quiet, Bool.false_and, Bool.false_eq_true, if_false]
  rfl

/-- The state after reset with slice 0 listed twice, once as it is at reset and once with a verified control store. -/
def sliceTwice : State :=
  { State.reset with core := { State.reset.core with
      slices := [(0, Slice.reset), (0, { Slice.reset with control := { Store.none with st := .verified } })] } }

/-- Free words of all ones make the obligation fail: R4's effect then takes the first of two entries of a slice out of the list. -/
theorem not_uncheckedDutiesStopNothing_of_freeWord_ones (ones : ∀ n, Config.freeWord n = BitVec.allOnes 64) :
    ¬ Obligations.UncheckedDutiesStopNothing := by
  rw [uncheckedDutiesStopNothing_iff_control]
  intro control
  have free (t : State) : t.freeWord = (BitVec.allOnes 64, t.onCore (fun c => { c with freeCtr := c.freeCtr + 1 })) := by
    rw [State.freeWord, ones]
  have unused : famUses (bits (BitVec.allOnes 64 : Word) 10 0 / 32) (bits (BitVec.allOnes 64 : Word) 10 0 % 32) = false := by decide
  have low : bit (BitVec.allOnes 64 : Word) 0 = true := by decide
  have past {α : Type} (l : List α) (x : α) (short : l.length ≤ 8) : anyOf l x (BitVec.allOnes 64 : Word).toNat = x := by
    have far : (BitVec.allOnes 64 : Word).toNat = 2 ^ 64 - 1 := by decide
    rw [far, anyOf, List.getD_eq_default _ _ (by omega)]
  have after : (sliceTwice.upset.slice 0).control.st = .verified := by
    simp only [State.upset, free, unused, low, Bool.and_false, Bool.false_eq_true, if_false, if_true, Core.upset, State.onCore, ones]
    simp (disch := simp) only [past]
    decide
  have before : (sliceTwice.slice 0).control.st = Store.none.st := by rfl
  rw [control sliceTwice 0, before] at after
  exact absurd after (by decide)

end Sys2Proof.Machine
end

section
/-!
SUPPORT. The statement on messages as they arrive at a Culvert port.
-/
namespace Sys2Proof.Machine

/-! Messages at a Culvert port (R271, R288, R295, R319). -/

theorem State.culArrive_inactive {n : Fin 6} (c : CulMsg) {s : State} (h : (s.cport n.val).st ≠ .active) : s.culArrive n c = s := by
  simp [State.culArrive, h]

/-- A message for this instance, and every HELLO, is taken from an ACTIVE port. -/
theorem State.culArrive_here {n : Fin 6} {c : CulMsg} {s : State} (active : (s.cport n.val).st = .active)
    (here : c.m.h.dsti = s.self ∨ c.m.op = 0xC1) : s.culArrive n c = s.arrive (.culvert n.val c) := by
  unfold State.culArrive
  rw [if_neg (by simp [active]), if_pos (by simpa using here)]

theorem State.culArrive_elsewhere {n : Fin 6} {c : CulMsg} {s : State} (active : (s.cport n.val).st = .active)
    (away : c.m.h.dsti ≠ s.self) (hello : c.m.op ≠ 0xC1) : s.culArrive n c = s.culTransit n.val c := by
  unfold State.culArrive
  rw [if_neg (by simp [active]), if_neg (by simpa using ⟨away, hello⟩)]

/-- A command is the arrival of a message with a header on a Culvert port. -/
def ArrivesAs (n : Fin 6) (h : Hdr) (e : Instr × CulMsg) : Prop := e.2.m.h = h ∧ exec e.1 = State.doesOn (State.culArrive n e.2)

/-- Settles O47: every row is an arrival, and an arrival meets a port that is not ACTIVE, is for this instance, or passes on. -/
theorem culvertMessages : Obligations.CulvertMessages := by
  intro n h d vc hops q rows e he s a
  have rows_arrive : ∀ e ∈ rows, ArrivesAs n h e := by
    simp only [rows, List.forall_mem_append, List.forall_mem_map, List.forall_mem_cons, List.not_mem_nil, false_imp_iff, implies_true, and_true]
    and_intros <;> rfl
  obtain ⟨rfl, arrival⟩ := rows_arrive e he
  have outcome {t : State} (arrives : s.culArrive n e.2 = t) : exec e.1 s = .next (State.finish s t) := by
    rw [arrival, State.doesOn_next _ a, arrives]
  exact ⟨fun inactive => outcome (State.culArrive_inactive e.2 inactive),
    fun active here stopped => outcome ((State.culArrive_here active here).trans (State.arrive_stopped _ stopped)),
    fun active here goes => outcome ((State.culArrive_here active here).trans (State.arrive_taken _ goes)),
    fun active away hello => outcome (State.culArrive_elsewhere active away hello)⟩

end Sys2Proof.Machine
end

section
/-!
SUPPORT. The statement on the commands of the Wharf, the directory engines, a slice's background work and a fabric port's credits.
-/
namespace Sys2Proof.Machine

/-! What leaves the Wharf as it was (R204). -/

/-- A fold whose steps leave a view of the state leaves that view. -/
theorem foldS_view {σ α β : Type} {view : σ → β} {f : α → σ → σ} (h : ∀ a x, view (f a x) = view x) (l : List α) (x : σ) :
    view (foldS f l x) = view x := by
  induction l generalizing x with
  | nil => rfl
  | cons a l ih => exact (ih (f a x)).trans (h a x)

@[simp] theorem Core.grantFab_wharf (f kind agent cls n : Nat) (s : Core) : (s.grantFab f kind agent cls n).wharf = s.wharf := by
  unfold Core.grantFab
  split <;> rfl

@[simp] theorem Core.returnHeader_wharf (b : Berth) (s : Core) : (s.returnHeader b).wharf = s.wharf := by
  unfold Core.returnHeader
  split
  · rfl
  · split
    · split
      · split <;> exact Core.grantFab_wharf _ _ _ _ _ s
      · rfl
    · split <;> rfl

@[simp] theorem Core.returnData_wharf (b : Berth) (s : Core) : (s.returnData b).wharf = s.wharf := by
  unfold Core.returnData
  split
  · rfl
  · split
    · split
      · split
        · rfl
        · exact Core.grantFab_wharf _ _ _ _ _ s
      · rfl
    · rfl

@[simp] theorem Core.freeBerth_wharf (id : Nat) (s : Core) : (s.freeBerth id).wharf = s.wharf := by
  unfold Core.freeBerth
  split
  · rfl
  · rw [Core.returnData_wharf, Core.returnHeader_wharf, Core.onHost_wharf]

@[simp] theorem Core.cmpLeft_wharf (m : Msg) (s : Core) : (s.cmpLeft m).wharf = s.wharf := by
  unfold Core.cmpLeft
  split
  · rfl
  · split
    · exact s.freeBerth_wharf _
    · rfl

@[simp] theorem Core.flushFab_wharf (f : Nat) (s : Core) : (s.flushFab f).wharf = s.wharf := by
  have sent (l : List Msg) (k : Core) : (foldS (fun m => Core.emit (.fabric f m)) l k).wharf = k.wharf :=
    foldS_view (view := Core.wharf) (fun _ => Core.emit_wharf _) l k
  have completed (l : List Msg) (k : Core) : (foldS (fun m k => (k.emit (.fabric f m)).cmpLeft m) l k).wharf = k.wharf :=
    foldS_view (view := Core.wharf) (fun m k => (k.emit (.fabric f m)).cmpLeft_wharf m) l k
  unfold Core.flushFab
  split
  · rfl
  · simp only [Core.bump_wharf, sent, Core.onFab_wharf, completed]

@[simp] theorem Core.writeNow_wharf (w : MWrite) (s : Core) : (s.writeNow w).2.wharf = s.wharf := by
  unfold Core.writeNow
  split
  · split
    · split <;> rfl
    · rfl
  · rfl

@[simp] theorem Core.issueWrite_wharf (id : Nat) (s : Core) : (s.issueWrite id).wharf = s.wharf := by
  unfold Core.issueWrite
  split
  · rfl
  · split
    · rfl
    · split
      · rfl
      · split
        · rfl
        · exact s.writeNow_wharf _

@[simp] theorem Core.sklPin_wharf (p i : Nat) (on : Bool) (s : Core) : (s.sklPin p i on).wharf = s.wharf := rfl

@[simp] theorem Core.endBarge_wharf (p id : Nat) (s : Core) : (s.endBarge p id).wharf = s.wharf := by
  have woken (l : List Nat) (k : Core) : (foldS (fun w k => k.task (.wbArrive p w)) l k).wharf = k.wharf :=
    foldS_view (view := Core.wharf) (fun _ => Core.task_wharf _) l k
  unfold Core.endBarge
  split
  · rfl
  · rw [Core.task_wharf, Core.onSlice_wharf, woken]
    split <;> rfl

/-- A line that has crossed gives the Wharf nothing new. -/
theorem Core.crossed_wharf (a : XferTo) (s : Core) : (s.crossed a).wharf = s.wharf := by
  cases a with
  | fabric f m => exact Core.flushFab_wharf f _
  | culvert c behind => rfl
  | memory i => exact Core.issueWrite_wharf i _
  | skillet p id operand => rfl
  | warm p i id d q => exact Core.endBarge_wharf p id _

/-! The commands (R155, R166, R171, R181, R182, R204, R242, R579). -/

/-- The transfer that a destination grants is taken off, the pointer moves past its source, and it arrives. -/
theorem Core.wharfGrant_some {d : Nat} {s : Core} {x : Xfer} (h : s.wharfPick d = some x) :
    (s.wharfGrant d).wharf.ptrs = mset 0 s.wharf.ptrs d ((x.src + 1) % 32) ∧
    (s.wharfGrant d).wharf.xfers = s.wharf.xfers.filter (fun y => y.id != x.id) ∧
    ∀ (c : CulMsg) (l : List Msg), x.act = .culvert c l → (s.wharfGrant d).toSend = s.toSend ++ (c :: l.map culOwn) := by
  unfold Core.wharfGrant
  simp only [h, Core.crossed_wharf]
  refine ⟨by split <;> rfl, by split <;> rfl, fun c l e => ?_⟩
  rw [e]
  split <;> rfl

theorem Core.wharfGrant_none {d : Nat} {s : Core} (h : s.wharfPick d = none) : s.wharfGrant d = s := by
  simp [Core.wharfGrant, h]

theorem Core.insertStart_none {p : Nat} {s : Core} (h : (s.slice p).spill = []) : s.insertStart p = s := by
  simp [Core.insertStart, h]

/-- With no insertion under way the Overflow engine takes a slice's oldest spilled entry. -/
theorem Core.insertStart_oldest {p : Nat} {s : Core} {e : LsWay} {l : List LsWay} (h : (s.slice p).spill = e :: l) (move : s.eng.move = none)
    (idle : s.eng.ovf = []) : s.insertStart p =
      (s.onEng (fun g => { g with ovfCount := g.ovfCount + 1 })).ovfAdd (.insert (some (p, e.line)) false) e.line (some e.ent) := by
  simp [Core.insertStart, Core.insertBusy, h, move, idle]

theorem Core.sklBackground_low {p : Nat} {s : Core} (h : (s.slice p).sklDirty ≤ s.sklHigh) : s.sklBackground p = s := by
  simp [Core.sklBackground, Nat.not_lt.mpr h]

theorem Core.sklBackground_high {p i : Nat} {s : Core} (h : s.sklHigh < (s.slice p).sklDirty) (none_out : s.mem.writes = [])
    (lru : lruOf ((s.slice p).skl.filter (fun e => e.2.dirty && !e.2.pinned)) = some i) : s.sklBackground p = s.sklWrite p i none := by
  simp [Core.sklBackground, h, none_out, lru]

/-- The Home Sieve's DIRTY_HIGH of a slice (R155). -/
def Core.hsHigh (s : Core) : Nat := Nat.min 1024 (bits (s.reg offHsCtl) 10 0)

/-- The records that a slice may pass to write-back: dirty, and pinned by no barge (R155). -/
def Core.hsFree (s : Core) (p : Nat) : List (Nat × HsWay) := (s.slice p).hs.filter (fun e => e.2.dirty && !s.hsPinned p (e.1 / 16) e.2)

/-- The sets that a slice's patrol goes through before it reaches a way's, the ways of a set in order (R155, R181). -/
def Slice.patrolFar (x : Slice) (k : Nat) : Nat := (k / 16 + 2048 - x.patrol % 2048) % 2048 * 16 + k % 16

/-- The record that a slice's patrol reaches next, of those that it may pass to write-back (R155). -/
def Core.hsNext (s : Core) (p : Nat) : Option (Nat × HsWay) :=
  pickBy (fun a b => decide ((s.slice p).patrolFar a.1 < (s.slice p).patrolFar b.1)) (s.hsFree p)

theorem Core.hsBackground_eq (p : Nat) (s : Core) : s.hsBackground p =
    if s.hsHigh < (s.slice p).heldDirty then
      match s.hsNext p with
      | some (k, e) =>
        (s.onSlice p (fun y => { y with hs := mput y.hs k { e with dirty := false } })).writeBack p (hsLineIndex (k / 16) e.tag * 256) e.rcd
      | none => s
    else s := rfl

theorem Core.hsBackground_low {p : Nat} {s : Core} (h : (s.slice p).heldDirty ≤ s.hsHigh) : s.hsBackground p = s := by
  rw [Core.hsBackground_eq, if_neg (Nat.not_lt.mpr h)]

theorem Core.hsBackground_none {p : Nat} {s : Core} (h : s.hsFree p = []) : s.hsBackground p = s := by
  have none : s.hsNext p = none := by rw [Core.hsNext, h]; rfl
  rw [Core.hsBackground_eq, none]
  exact ite_self s

theorem Core.hsBackground_high {p k : Nat} {e : HsWay} {s : Core} (h : s.hsHigh < (s.slice p).heldDirty) (next : s.hsNext p = some (k, e)) :
    s.hsBackground p =
      (s.onSlice p (fun y => { y with hs := mput y.hs k { e with dirty := false } })).writeBack p (hsLineIndex (k / 16) e.tag * 256) e.rcd := by
  rw [Core.hsBackground_eq, if_pos h, next]

theorem Core.takes_stopped {s : Core} (f : Core → Core) (h : s.stopped = true) : s.takes f = s := by
  simp [Core.takes, h]

theorem Core.patrol_idle {p : Nat} (errs : List PatrolErr) {s : Core} (h : s.serves p = false) : s.patrol p errs = s := by
  simp [Core.patrol, h]

/-- To list a key again as it reads leaves an array that lists it. -/
theorem mput_mget {α : Type} {d : α} {k : Nat} : ∀ {m : Map α}, mget d m k ≠ d → mput m k (mget d m k) = m
  | [], h => absurd rfl h
  | (j, u) :: m, h => by
    simp only [mget] at h ⊢
    by_cases same : j = k
    · simp [mput, same]
    · by_cases past : k < j
      · simp [same, past] at h
      · simp only [if_neg same, if_neg past] at h ⊢
        simp only [mput, if_neg same, if_neg past, mput_mget h]

/-- A slice that serves is not as at reset. -/
theorem Core.slice_ne_reset_of_serves {s : Core} {p : Nat} (h : s.serves p = true) : s.slice p ≠ Slice.reset := by
  intro e
  simp [Core.serves, e, Slice.reset] at h

/-- An update that changes nothing in a slice that serves changes nothing. -/
theorem Core.onSlice_fixed {s : Core} {p : Nat} {f : Slice → Slice} (h : s.serves p = true) (fixed : f (s.slice p) = s.slice p) :
    s.onSlice p f = s := by
  have listed := Core.slice_ne_reset_of_serves h
  have same : mset Slice.reset s.slices p (s.slice p) = s.slices := by
    rw [mset, if_neg listed]
    exact mput_mget listed
  rw [Core.onSlice, fixed, Core.setSlice, same]

/-- A patrol that finds no error, of a slice that holds few dirty records, moves its position on. -/
theorem Core.patrol_clean {p : Nat} {s : Core} (serves : s.serves p = true) (goes : s.stopped = false) (clean : (s.slice p).ceWays = [])
    (low : (s.slice p).heldDirty ≤ s.hsHigh) : s.patrol p [] = s.onSlice p (fun x => { x with patrol := (x.patrol + 1) % 4096 }) := by
  have kept (c : Bool × Nat × Nat → Bool) : s.onSlice p (fun y => { y with ceWays := y.ceWays.filter c }) = s :=
    Core.onSlice_fixed serves (by rw [clean, List.filter_nil, ← clean])
  have few : decide (Nat.min 1024 (bits (s.reg offHsCtl) 10 0) < (s.slice p).heldDirty) = false := decide_eq_false (Nat.not_lt.mpr low)
  have noErr (f : PatrolErr → Core → Core) : foldS f [] s = s := rfl
  unfold Core.patrol
  rw [if_neg (by simp [serves, goes])]
  dsimp only
  rw [kept, noErr, foldS_fixed (fun w => ?_)]
  split
  · rw [few, Bool.and_false, Bool.false_and, if_neg Bool.false_ne_true]
  · rfl

/-- The census walk of a chip goes to its next page, whose operation joins the Larder's. -/
theorem Core.censusStep_next {c : BitVec 6} {s : Core} {x : Census} (h : s.eng.censuses.find? (fun x => x.chip = c) = some x)
    (free : s.larderHeld = false) (idle : s.eng.larder = []) (more : x.page < s.pageCount) : s.censusStep c =
      (s.onEng (fun g => { g with
        censuses := updateWhere (fun y => y.chip = c) (fun y => { y with page := y.page + 1 }) g.censuses })).larderOp x.page (.census c x.seq) := by
  simp [Core.censusStep, h, free, idle, Nat.not_le.mpr more]

theorem Core.censusStep_none {c : BitVec 6} {s : Core} (h : s.eng.censuses.find? (fun x => x.chip = c) = none) : s.censusStep c = s := by
  simp [Core.censusStep, h]

/-- What keeps a scrub interval from asking leave (R182). -/
theorem State.scrubAsk_eq (s : State) : s.scrubAsk =
    if s.core.eng.generation = 0 ∨ s.core.stopped = true ∨ s.core.gatePaused gateScrub = true ∨
      s.pwr.queue.any (fun r => r.cls = lvScrub) = true ∨ (s.pwr.shown.map (fun r => decide (r.cls = lvScrub))).getD false = true then s
    else s.leaveAsk ⟨lvScrub, 10, [.scrub]⟩ := by
  unfold State.scrubAsk
  cases s.pwr.shown <;> simp [or_assoc]

theorem exec_fabricCreditReturn {s : State} {f : Fin 4} (a : s.Able) (on : s.fabOn f.val = true) (kind : Fin 3) :
    exec (.fabricCreditReturn f kind) s = .next (State.finish s { s with core := s.core.fabricCredit f.val kind.val }) :=
  State.doesOn_core a (by rw [if_pos on])

/-- Settles O50: each command by its equations; what the Wharf hands on gives it nothing new, and a patrol that finds nothing only moves on. -/
theorem engineCommands : Obligations.EngineCommands := by
  refine ⟨fun s d err a => ⟨fun h => ?noXfer, fun h => ⟨fun gone => ?struck, fun x picked => ?grant⟩⟩,
    fun s p a goes => ⟨fun h => ?noSpill, fun e l h move idle => ?spill, fun h => ?sklLow, fun i high out lru => ?sklHigh,
      fun h => ?hsLow, fun high k e next => ?hsHigh⟩,
    fun s p a stops => ⟨?hsStops, ?ovfStops, ?sklStops⟩,
    fun s p errs a => ⟨fun gated => ?gated, fun runs idle => ?idle, fun runs serves goes clean low => ?patrol⟩,
    fun s a => ⟨fun h => ?noScrub, fun gen goes runs queued shown => ?scrub⟩,
    fun s c a goes => ⟨fun h => ?noWalk, fun x h free idle more => ?walk⟩,
    fun s f a => ⟨fun dark k => ?dark, fun on => ?credit⟩⟩
  case noXfer => exact State.doesOn_core a (by rw [h]; exact Core.wharfGrant_none h)
  case struck => exact State.doesOn_core a (by rw [if_pos h]; exact Core.wharfGrant_none gone)
  case grant => exact ⟨_, State.doesOn_core a (congrArg (Core.wharfGrant d) (if_pos h)), Core.wharfGrant_some picked⟩
  case noSpill => exact State.doesOn_takes a goes (Core.insertStart_none h)
  case spill => exact State.doesOn_takes a goes (Core.insertStart_oldest h move idle)
  case sklLow => exact State.doesOn_takes a goes (Core.sklBackground_low h)
  case sklHigh => exact State.doesOn_takes a goes (Core.sklBackground_high high out lru)
  case hsLow => exact State.doesOn_takes a goes (h.elim Core.hsBackground_low Core.hsBackground_none)
  case hsHigh => exact State.doesOn_takes a goes (Core.hsBackground_high high next)
  case hsStops => exact State.doesOn_core a (Core.takes_stopped _ stops)
  case ovfStops => exact State.doesOn_core a (Core.takes_stopped _ stops)
  case sklStops => exact State.doesOn_core a (Core.takes_stopped _ stops)
  case gated => exact if_pos gated
  case idle => exact (if_neg (by simp [runs])).trans (State.doesOn_core a (Core.patrol_idle errs idle))
  case patrol => exact (if_neg (by simp [runs])).trans (State.doesOn_core a (Core.patrol_clean serves goes clean low))
  case noScrub => exact (State.doesOn_next _ a).trans (by rw [State.scrubAsk_eq, if_pos h])
  case scrub =>
    have asks := And.intro gen (And.intro goes (And.intro runs (And.intro queued shown)))
    exact (State.doesOn_next _ a).trans (by rw [State.scrubAsk_eq, if_neg (by simpa only [not_or, Bool.not_eq_true] using asks)])
  case noWalk => exact State.doesOn_takes a goes (Core.censusStep_none h)
  case walk => exact State.doesOn_takes a goes (Core.censusStep_next h free idle more)
  case dark => exact State.doesOn_core a (by rw [dark]; rfl)
  case credit =>
    exact ⟨exec_fabricCreditReturn a on 0, exec_fabricCreditReturn a on 1, exec_fabricCreditReturn a on 2⟩

end Sys2Proof.Machine
end

section
/-!
SUPPORT. The statement on the arbiter of a slice, the head of a chamber, simmer timers and the stamp sweep, which fails where a slice's pair is
listed twice, and the part of it that fails, of states whose pairs are in their form.
-/
namespace Sys2Proof.Machine

/-! An admission's program (R202, R203, R323, R352). -/

/-- With its pair whole and the pairs in their form, a slice runs an item's program to its end in the control store alone. -/
theorem State.galEnter_ended {s : State} {p op n : Nat} {m : GalMode} (agent : AgentId) (line : LineAddr) (form : mrising 0 s.gals = true)
    (whole : (s.gal p).split = false) (ends : uEnter (s.core.slice p).control (s.core.slice p).mode op s.core.freeCtr = .ended m n) :
    s.galEnter p op agent line =
      (true, ((s.freeFrom (n + 1)).onGal p (fun g => { g with regs := n })).onSlice p (fun x => { x with mode := m })) := by
  have left : ((s.freeFrom (n + 1)).onGal p (fun g => { g with regs := n })).gal p = { s.gal p with regs := n } := mget_mset_same form
  have checked : State.galCheck p op agent line ((s.freeFrom (n + 1)).onGal p (fun g => { g with regs := n })) =
      (s.freeFrom (n + 1)).onGal p (fun g => { g with regs := n }) := by
    unfold State.galCheck
    rw [left]
    exact if_pos (by simp [whole])
  unfold State.galEnter State.slice
  simp only [ends, checked]

/-- The state in which an arbiter cycle leaves its selection: with select the choice beside the item held, else none (R203). -/
def State.selecting (p : Nat) (sel : Bool) (s : State) : State := s.onSlice p (fun x => { x with
  selected := if sel then (s.core.choice p (s.core.slice p).selected).map Pick.sel else none })

/-- An arbiter cycle takes an item: the one held, still eligible, or where none is held and it does not select, the choice (R203). -/
def Core.Takes (s : Core) (p : Nat) (sel : Bool) (k : Pick) : Prop :=
  (∃ j, (s.slice p).selected = some j ∧ s.picked p j = some k) ∨ (sel = false ∧ (s.slice p).selected = none ∧ s.choice p = some k)

theorem State.admission_takes {s : State} {p : Nat} {sel : Bool} {k : Pick} (r : CsRead) (err : Option HalfErr) (goes : s.core.stopped = false)
    (takes : s.core.Takes p sel k) : s.admission p sel r err = (s.selecting p sel).admitItem p k r err := by
  unfold State.admission State.selecting Core.admitting State.slice
  obtain ⟨j, held, picked⟩ | ⟨rfl, held, choice⟩ := takes
  · simp [goes, held, picked]
  · simp [goes, held, choice]

/-- The clause of `SliceCommandsOfEngine` that fails where a pair is listed twice, of states whose pairs are in their form: an item whose
program ends is admitted, in the mode in which it ended. -/
theorem exec_admission_ended {s : State} {p : Fin 18} {sel : Bool} {k : Pick} {op : Nat} {agent : AgentId} {line : LineAddr} {m : GalMode} {n : Nat}
    {err : Option HalfErr} (a : s.Able) (goes : s.core.stopped = false) (form : mrising 0 s.gals = true) (whole : (s.gal p).split = false)
    (takes : s.core.Takes p sel k) (head : pickHead k = some (op, agent, line)) :
    let u := (s.selecting p sel).onCore (Core.halfErr 0 err)
    u.core.stopped = false → uEnter (u.core.slice p).control (u.core.slice p).mode op u.core.freeCtr = .ended m n →
    exec (.admission p sel .clean err) s = .next (State.finish s
      ((((u.freeFrom (n + 1)).onGal p (fun g => { g with regs := n })).onSlice p (fun x => { x with mode := m })).onCore (Core.admitPick p k))) := by
  intro u runs ends
  refine (State.doesOn_next _ a).trans ?_
  rw [State.admission_takes .clean err goes takes]
  unfold State.admitItem
  simp only [head, Option.isSome_some, if_true, State.galFetch, Bool.not_true, Bool.false_or]
  rw [if_neg (Bool.eq_false_iff.mp runs), State.galEnter_ended (s := u) agent line form whole ends]
  rfl

/-! A state whose pairs are not in their form: slice 0's is listed twice, as it is whole and as it is split. -/

/-- An image whose one program is END, for SNP_S (R324, R345). -/
def endImage : Store := { Store.none with st := .verified, words := (((List.replicate 97 0).set 2 0x10000).set 48 0x1000).set 96 9 }

/-- A SNP_S in the intake, for a line of slice 0. -/
def waitingSnoop : SnoopItem := { id := 0, op := opSnpS, h := Hdr.zero, stamp := 0, hash := 0, slice := none }

/-- Slice 0 serves in PROOF, with that image in both its stores, and a snoop waits. -/
def pairTwice : State :=
  { State.reset with
    core := { Core.reset with
      slices := [(0, { Slice.reset with st := .proof, proofServing := true, mode := .service, control := endImage, standby := endImage })]
      host := { HostPort.reset with intake := [waitingSnoop] } }
    gals := [(0, { Gal.reset with regs := 1 }), (0, { Gal.reset with split := true })] }

theorem pairTwice_chooses : pairTwice.core.choice 0 = some (.snoop waitingSnoop) := by decide

/-- Whether the check copy of slice 0's pair has run the program that began at free value 1. -/
def checkRan (o : Host.Outcome State Fault Refusal) : Bool := match o with
  | .next t => decide ((t.gal 0).checkRegs = 1)
  | _ => false

/-- The lead leaves the pair as at reset, which takes the first entry out, and the check copy of the second one runs the program too. -/
theorem pairTwice_checks : checkRan (exec (.admission 0 false .clean none) pairTwice) = true := by decide +kernel

/-- Refutes O49: it speaks of every list of pairs, and in `pairTwice`, where the pair of slice 0 is listed as whole and again as split, the
program's end takes the first entry out, so that the check copy runs the program too, though the pair was whole at the admission. -/
theorem not_sliceCommandsOfEngine : ¬ Obligations.SliceCommandsOfEngine := by
  rintro ⟨admission, -⟩
  obtain ⟨-, -, -, admits⟩ := admission pairTwice 0 false .clean none ⟨rfl, rfl⟩ rfl
  obtain ⟨-, runs⟩ := admits (.snoop waitingSnoop) (.inr ⟨rfl, rfl, pairTwice_chooses⟩)
  obtain ⟨-, programs⟩ := runs rfl
  obtain ⟨ended, -⟩ := programs 0x40 0 0 rfl rfl
  have claimed := congrArg checkRan (ended .service 0 (by decide))
  rw [pairTwice_checks] at claimed
  exact absurd claimed (by decide +kernel)

end Sys2Proof.Machine
end

section
/-!
SUPPORT. The statement on the requests that a fabric port does not store: what each check of R61, R75, R81, R195, R224 and R394 makes of one.
-/
namespace Sys2Proof.Machine

/-! Counting the message changes nothing that a check reads. -/

@[simp] theorem Core.bump_agentOk (g e n : Nat) (s : Core) (f : Fin 4) (l : BitVec 6) : (s.bump g e n).agentOk f l = s.agentOk f l := rfl
@[simp] theorem Core.bump_ingress (g e n : Nat) (s : Core) (op : BitVec 8) (h : Hdr) : (s.bump g e n).ingress op h = s.ingress op h := rfl
@[simp] theorem Core.bump_tombed (g e n : Nat) (s : Core) (a : AgentId) : (s.bump g e n).tombed a = s.tombed a := rfl
@[simp] theorem Core.bump_headerRoom (g e n : Nat) (s : Core) (src : Src) (h : Hdr) (op : BitVec 8) :
    (s.bump g e n).headerRoom src h op = s.headerRoom src h op := rfl

/-! What each check makes of a request that fails it (R61, R75, R81, R195, R224, R394). -/

/-- A request of an agent that is not DEFINED, or not on this port, is discarded (R75). -/
theorem Core.fabricRequest_foreign {s : Core} {f : Fin 4} (op : BitVec 8) {h : Hdr} (foreign : s.agentOk f (agentLocal h.agent) = false) :
    s.fabricRequest f op h =
      ((s.bump (unitFab f.val) 0x110 1).returnReq (.fabric f) h op).raise famAgentUndef (unitFab f.val) := by
  simp [Core.fabricRequest, foreign]

/-- A request of a tombstoned agent in a freeze is discarded (R394). -/
theorem Core.fabricRequest_tombed {s : Core} {f : Fin 4} {op : BitVec 8} {h : Hdr} (ok : s.agentOk f (agentLocal h.agent) = true)
    (frozen : s.frz.st ≠ 0) (dead : s.tombed (s.ingress op h).agent = true) :
    s.fabricRequest f op h = (s.bump (unitFab f.val) 0x110 1).returnReq (.fabric f) (s.ingress op h) op :=
  (if_neg (by simpa using ok)).trans (if_pos (by simpa using ⟨frozen, dead⟩))

/-- A request whose entry is not free is discarded, and no credit is returned (R195). -/
theorem Core.fabricRequest_full {s : Core} {f : Fin 4} {op : BitVec 8} {h : Hdr} (ok : s.agentOk f (agentLocal h.agent) = true)
    (alive : s.frz.st = 0 ∨ s.tombed (s.ingress op h).agent = false) (full : s.headerRoom (.fabric f) (s.ingress op h) op = false) :
    s.fabricRequest f op h =
      (s.bump (unitFab f.val) 0x110 1).raiseAt famBerthOvf (unitFab f.val) h.line (s.ingress op h).agent :=
  (if_neg (by simpa using ok)).trans <| (if_neg (by simpa [or_iff_not_imp_left] using alive)).trans (if_pos (by simpa using full))

/-- The event of a request that its proxy completes without a home: its form (R224), else its agent's role (R81), else its line (R61). -/
def Core.aloneEvent (s : Core) (op : BitVec 8) (h : Hdr) : Option Nat :=
  if op = opAtom && atomBad h.param then some famAtomForm
  else if s.isIo h.agent && ioForbidden op then some famMsgRole
  else if (s.homeOf h.line).isNone then some famAddrNohome
  else none

theorem Core.aloneEvent_form {s : Core} {op : BitVec 8} {h : Hdr} (atom : op = opAtom) (bad : atomBad h.param = true) :
    s.aloneEvent op h = some famAtomForm := if_pos (by simp [atom, bad])

theorem Core.aloneEvent_role {s : Core} {op : BitVec 8} {h : Hdr} (form : op = opAtom → atomBad h.param = false)
    (forbidden : (s.isIo h.agent && ioForbidden op) = true) : s.aloneEvent op h = some famMsgRole :=
  (if_neg (by simpa using form)).trans (if_pos forbidden)

theorem Core.aloneEvent_home {s : Core} {op : BitVec 8} {h : Hdr} (form : op = opAtom → atomBad h.param = false)
    (allowed : (s.isIo h.agent && ioForbidden op) = false) (homeless : (s.homeOf h.line).isNone = true) :
    s.aloneEvent op h = some famAddrNohome :=
  (if_neg (by simpa using form)).trans <| (if_neg (by simp [allowed])).trans (if_pos homeless)

/-- A request that has an entry and one of these events is completed alone, and the event raised. -/
theorem Core.fabricRequest_alone {s : Core} {f : Fin 4} {op : BitVec 8} {h : Hdr} {fam : Nat}
    (ok : s.agentOk f (agentLocal h.agent) = true) (alive : s.frz.st = 0 ∨ s.tombed (s.ingress op h).agent = false)
    (room : s.headerRoom (.fabric f) (s.ingress op h) op = true) (event : s.aloneEvent op (s.ingress op h) = some fam) :
    s.fabricRequest f op h = ((s.bump (unitFab f.val) 0x110 1).completeAlone f op (s.ingress op h)).raiseAt fam (unitFab f.val) h.line
      (s.ingress op h).agent := by
  refine (if_neg (by simpa using ok)).trans <| (if_neg (by simpa [or_iff_not_imp_left] using alive)).trans <|
    (if_neg (by simpa using room)).trans ?_
  unfold Core.aloneEvent at event
  split_ifs at event with form role home <;> cases event
  · exact if_pos form
  · exact (if_neg form).trans (if_pos role)
  · exact (if_neg form).trans <| (if_neg role).trans (if_pos home)

/-! The credit of a discarded request (R598). -/

/-- The host port keeps a request's local number. -/
@[simp] theorem Core.agentLocal_ingress (s : Core) (op : BitVec 8) (h : Hdr) : agentLocal (s.ingress op h).agent = agentLocal h.agent :=
  agentLocal_agentId _ _

theorem Core.grantFab_open {f : Nat} {s : Core} (kind agent cls cnt : Nat) (o : s.fabOpen f = true) :
    s.grantFab f kind agent cls cnt = s.emit (.credit f kind agent cls cnt) := if_pos o

theorem Core.returnReq_pool {f : Fin 4} (op : BitVec 8) {h : Hdr} {s : Core} (o : s.fabOpen f.val = true) (pool : h.credit = true) :
    s.returnReq (.fabric f) h op = s.emit (.credit f.val 1 0 0 1) :=
  (if_pos pool).trans (Core.grantFab_open _ _ _ _ o)

theorem Core.returnReq_mooring {f : Fin 4} (op : BitVec 8) {h : Hdr} {s : Core} (o : s.fabOpen f.val = true)
    (ok : s.agentOk f (agentLocal h.agent) = true) (moored : h.credit = false) :
    s.returnReq (.fabric f) h op = s.emit (.credit f.val 0 (agentLocal h.agent).toNat (classOf op) 0) := by
  obtain ⟨defined, port⟩ : s.defined (agentLocal h.agent) = true ∧ s.fport (agentLocal h.agent) = f.val := by simpa [Core.agentOk] using ok
  unfold Core.returnReq
  simp only [moored, defined, port, Core.grantFab_open _ _ _ _ o, Bool.false_eq_true, if_false, if_true]

/-- Settles O44: the checks in their order, each of a request that has passed those before it. -/
theorem requestChecks : Obligations.RequestChecks := by
  intro f op h s k g a
  have loc : agentLocal g.agent = agentLocal h.agent := s.agentLocal_ingress op h
  refine ⟨Core.fabricRequest_foreign op, fun ok => ⟨Core.fabricRequest_tombed ok, fun alive => ⟨Core.fabricRequest_full ok alive,
    fun room => ⟨fun atom bad => ?form, fun form forbidden => ?role, fun form allowed homeless => ?home⟩⟩, fun o => ⟨?pool, ?mooring⟩⟩⟩
  case form => exact Core.fabricRequest_alone ok alive room (Core.aloneEvent_form atom bad)
  case role => exact Core.fabricRequest_alone ok alive room (Core.aloneEvent_role form forbidden)
  case home => exact Core.fabricRequest_alone ok alive room (Core.aloneEvent_home form allowed homeless)
  case pool => exact Core.returnReq_pool (h := g) (s := k) op o
  case mooring =>
    rw [← loc]
    exact Core.returnReq_mooring (h := g) (s := k) op o (by rw [loc]; exact ok)

end Sys2Proof.Machine
end

section
/-!
SUPPORT. The statement on flits and messages without a body: the layouts read back what was laid into them.
-/
namespace Sys2Proof.Machine

/-! Fields of a header (03 R83). -/

theorem getLsbD_append_of_lt {m n i : Nat} {x : BitVec m} {y : BitVec n} (h : i < n) : (x ++ y).getLsbD i = y.getLsbD i := by
  rw [BitVec.getLsbD_append, if_pos h]

theorem getLsbD_append_of_le {m n i : Nat} {x : BitVec m} {y : BitVec n} (h : n ≤ i) : (x ++ y).getLsbD i = x.getLsbD (i - n) := by
  rw [BitVec.getLsbD_append, if_neg (Nat.not_lt.mpr h)]

theorem hdrOf_hdrBits (op : BitVec 8) (h : Hdr) : hdrOf (hdrBits op h) = (op, h) := by
  simp (disch := decide) only [hdrOf, hdrBits, BitVec.extractLsb'_append_eq_of_le, BitVec.extractLsb'_append_eq_of_add_le,
    getLsbD_append_of_lt, getLsbD_append_of_le, BitVec.extractLsb'_eq_self, BitVec.getLsbD_ofBool]
  simp

theorem flitHdr_append (c : BitVec 32) (h : FlitHdr) (v : BitVec 1936) : flitHdr (c ++ flitBody h v) = h := by
  simp (disch := decide) only [flitHdr, flitBody, FlitHdr.bits, BitVec.extractLsb'_append_eq_of_le,
    BitVec.extractLsb'_append_eq_of_add_le, getLsbD_append_of_lt, getLsbD_append_of_le, BitVec.extractLsb'_eq_self, BitVec.getLsbD_ofBool]
  simp

/-- A flit is its body under its CRC. -/
theorem flitOf_eq_append (h : FlitHdr) (v : BitVec 1936) :
    flitOf h v = flitCrc ((0 : BitVec 32) ++ flitBody h v) ++ flitBody h v := by
  unfold flitOf
  dsimp only
  generalize flitCrc ((0 : BitVec 32) ++ flitBody h v) = c
  generalize flitBody h v = b
  refine BitVec.eq_of_getLsbD_eq fun i hi => ?_
  rw [BitVec.getLsbD_or, BitVec.getLsbD_shiftLeft, BitVec.getLsbD_append, BitVec.getLsbD_append, BitVec.getLsbD_setWidth]
  by_cases low : i < 2016
  · simp [low]
  · have : i - 2016 < 2048 := by omega
    simp [low, hi, this]

/-- The CRC covers the body alone. -/
theorem flitCrc_append (c d : BitVec 32) (b : BitVec 2016) : flitCrc (c ++ b) = flitCrc (d ++ b) := by
  have same : bitsUp (c ++ b).toNat 2016 = bitsUp (d ++ b).toNat 2016 := by
    refine List.map_congr_left fun i hi => ?_
    rw [BitVec.testBit_toNat, BitVec.testBit_toNat, BitVec.getLsbD_append, BitVec.getLsbD_append, if_pos (List.mem_range.mp hi),
      if_pos (List.mem_range.mp hi)]
  rw [flitCrc, flitCrc, same]

theorem flitOf_reads (h : FlitHdr) (v : BitVec 1936) :
    flitHdr (flitOf h v) = h ∧ (flitOf h v).extractLsb' 80 1936 = v ∧ flitCrc (flitOf h v) = (flitOf h v).extractLsb' 2016 32 := by
  rw [flitOf_eq_append]
  refine ⟨flitHdr_append _ h v, ?payload, ?crc⟩
  case payload =>
    rw [BitVec.extractLsb'_append_eq_of_add_le (by decide)]
    exact BitVec.extractLsb'_append_eq_left
  case crc =>
    rw [BitVec.extractLsb'_append_eq_left]
    exact flitCrc_append _ _ _

/-! Bytes of a number. -/

theorem bytesOf_succ (v n : Nat) : bytesOf v (n + 1) = BitVec.ofNat 8 v :: bytesOf (v / 2 ^ 8) n := by
  simp only [bytesOf, List.range_succ_eq_map, List.map_cons, List.map_map, Nat.mul_zero, Nat.shiftRight_zero, List.cons.injEq, true_and]
  refine List.map_congr_left fun i _ => ?_
  simp only [Function.comp, Nat.mul_succ, Nat.add_comm _ 8, Nat.shiftRight_add, Nat.shiftRight_eq_div_pow v 8]

@[simp] theorem bytesOf_length (v n : Nat) : (bytesOf v n).length = n := by simp [bytesOf]

theorem numOf_bytesOf (v n : Nat) : numOf (bytesOf v n) = v % 256 ^ n := by
  induction n generalizing v with
  | zero => simp [bytesOf, numOf, Nat.mod_one]
  | succ n ih =>
    calc numOf (bytesOf v (n + 1)) = v % 256 + 256 * numOf (bytesOf (v / 256) n) := by rw [bytesOf_succ]; rfl
      _ = v % 256 ^ (n + 1) := by rw [ih, pow_succ' 256 n, Nat.mod_mul]

theorem numOf_bytesOf_toNat {w : Nat} (x : BitVec w) (n : Nat) (fits : w ≤ 8 * n) : numOf (bytesOf x.toNat n) = x.toNat := by
  rw [numOf_bytesOf, Nat.mod_eq_of_lt]
  calc x.toNat < 2 ^ w := x.isLt
    _ ≤ 2 ^ (8 * n) := Nat.pow_le_pow_right (by decide) fits
    _ = 256 ^ n := pow_mul 2 8 n

/-! Messages without a body (09 R284). -/

/-- The first byte of a message without byte enables: its virtual channel, HOPS and DL. -/
def leadByte (vc hops : Nat) (dl : Bool) : BitVec 8 := BitVec.ofNat 8 (vc + hops * 32 + if dl then 128 else 0)

theorem msgBytes_bodyless (op : BitVec 8) (h : Hdr) (vc hops : Nat) (dl : Bool) :
    msgBytes ⟨op, h, none⟩ vc hops dl = leadByte vc hops dl :: 9 :: bytesOf (hdrBits op h).toNat 16 := by
  simp [msgBytes, msgHalves, leadByte]

theorem leadByte_fields (vc : Fin 10) (hops : Fin 4) (dl : Bool) : (leadByte vc hops dl).toNat % 16 = vc ∧
    (leadByte vc hops dl).toNat / 32 % 4 = hops ∧ (leadByte vc hops dl)[7] = dl ∧ (leadByte vc hops dl)[4] = false := by
  revert vc hops dl
  decide

theorem parseMsg_msgBytes {op : BitVec 8} (h : Hdr) (vc : Fin 10) (hops : Fin 4) (dl : Bool) (rest : List (BitVec 8))
    (bodyless : hasBody op = false) : parseMsg (msgBytes ⟨op, h, none⟩ vc hops dl ++ rest) =
      .msg { m := ⟨op, h, none⟩, vc := vc, hops := hops, dl := dl, came := true, fixed := false, cells := none } rest := by
  obtain ⟨vcRead, hopsRead, dlRead, flag⟩ := leadByte_fields vc hops dl
  have len (one : Bool) : msgLen op one false = 9 := by simp [msgLen, bodyless]
  have plain : op ≠ 195#8 := fun e => by simp [e, hasBody] at bodyless
  have header : BitVec.ofNat 128 (numOf (bytesOf (hdrBits op h).toNat 16)) = hdrBits op h := by
    rw [numOf_bytesOf_toNat _ _ (by decide), BitVec.ofNat_toNat, BitVec.setWidth_eq]
  have front : (bytesOf (hdrBits op h).toNat 16 ++ rest).take 16 = bytesOf (hdrBits op h).toNat 16 := List.take_left' (bytesOf_length _ _)
  have after : (bytesOf (hdrBits op h).toNat 16 ++ rest).drop 16 = rest := List.drop_left' (bytesOf_length _ _)
  have whole : ¬16 + rest.length + 1 + 1 < 18 := by omega
  rw [msgBytes_bodyless]
  unfold parseMsg
  simp [vcRead, hopsRead, dlRead, flag, len, plain, header, front, after, whole, hdrOf_hdrBits, bodyless, Nat.not_le.mpr vc.isLt]

/-- Settles O52: the CRC of a flit covers its body alone, and each layout's fields are read where they were laid. -/
theorem flitReadsAsSent : Obligations.FlitReadsAsSent :=
  ⟨flitOf_reads, hdrOf_hdrBits, fun _ h vc hops dl rest bodyless => parseMsg_msgBytes h vc hops dl rest bodyless⟩

end Sys2Proof.Machine
end

section
/-!
SUPPORT. The statements on responses and data of local agents: what each check of a fabric port makes of one, and the snoop, the request or the
slot that it meets.
-/
namespace Sys2Proof.Machine

/-! Arrivals that a fabric port takes (R94, R271). -/

/-- The commands of the responses of local agents, with their opcodes. -/
def responseRows : List ((Src → Hdr → Instr) × BitVec 8) :=
  [(.rspI, 0x60), (.rspS, 0x61), (.rspFwd, 0x62), (.rspD, 0x63), (.rspAbsent, 0x64), (.rspWbx, 0x65)]

/-- The commands of the data of local agents, with their opcodes. -/
def dataRows : List ((Src → Hdr → Beats → Instr) × BitVec 8) := [(.datS, 0x80), (.datF, 0x81), (.datM, 0x83), (.datNa, 0x84)]

theorem exec_response {e : (Src → Hdr → Instr) × BitVec 8} (he : e ∈ responseRows) (f : Fin 4) (h : Hdr) (s : State) :
    exec (e.1 (.fabric f) h) s = s.fabricArrive f (.response f e.2 h) := by
  simp only [responseRows, List.mem_cons, List.not_mem_nil, or_false] at he
  rcases he with rfl | rfl | rfl | rfl | rfl | rfl <;> rfl

theorem exec_data {e : (Src → Hdr → Beats → Instr) × BitVec 8} (he : e ∈ dataRows) (f : Fin 4) (h : Hdr) (d : Beats) (s : State) :
    exec (e.1 (.fabric f) h d) s = s.fabricArrive f (.data f e.2 h d) := by
  simp only [dataRows, List.mem_cons, List.not_mem_nil, or_false] at he
  rcases he with rfl | rfl | rfl | rfl <;> rfl

/-- On a powered port, while the block's work goes on, an arrival is taken. -/
theorem State.fabricArrive_taken {f : Fin 4} {s : State} (w : s.tow.waiting = []) (on : s.fabOn f.val = true) (goes : s.core.stopped = false)
    (a : Arrival) : s.fabricArrive f a = .next (State.finish s (s.takeArrival a)) := by
  rw [State.fabricArrive_next a on w, State.arrive_taken a goes]

/-- A message of a local agent is heard: the agent is DEFINED, of this port, and not tombstoned in a quiet period (R75, R394). -/
structure Core.Hears (s : Core) (f : Fin 4) (l : BitVec 6) : Prop where
  defined : s.agentOk f l = true
  alive : s.frz.st ≠ 2 ∨ s.tombed (agentId s.self l) = false

theorem Core.fport_of_agentOk {s : Core} {f : Fin 4} {l : BitVec 6} (h : s.agentOk f l = true) : s.fport l = f.val := by
  unfold Core.agentOk at h
  exact of_decide_eq_true (Bool.and_eq_true_iff.mp h).2

/-- A message of an agent that is heard passes both checks. -/
theorem Core.Hears.passes {s : Core} {f : Fin 4} {l : BitVec 6} (a : s.Hears f l) :
    ¬(!s.agentOk f l) = true ∧ ¬(decide (s.frz.st = 2) && s.tombed (agentId s.self l)) = true := by
  obtain ⟨defined, alive⟩ := a
  exact ⟨by simp [defined], by simpa [or_iff_not_imp_left] using alive⟩

/-! Responses (R88, R121, R390, R596). -/

/-- The engine with a response kept by the barge of the snoop that it answers, which goes on unless its slice is SEALED. -/
def Core.responded (p : Nat) (b : Barge) (n : LSnoop) (op : BitVec 8) (h : Hdr) (s : Core) : Core :=
  let l := agentLocal h.peer
  let k : Core := { s with frz := { s.frz with agentPings := s.frz.agentPings.filter (fun x => x.1 != l) } }
  let k := k.onBarge p b.id (fun y => { y with
    locals := updateWhere (fun m => m.loc = n.loc && m.op = n.op && m.rsp.isNone)
      (fun m => { m with rsp := some (op, readState (h.hint.extractLsb' 0 3), h.hint.getLsbD 3) }) y.locals
    awaitD := y.awaitD || (op = opRspD && y.dirty.isNone) })
  let k := if op = opRspWbx && !n.wbSeen then
    k.onHost (fun x => { x with wbComing := x.wbComing ++ [(agentId s.self l, h.line)] }) else k
  if k.sliceSealed p then k else k.task (.advance p b.id)

section
variable {s : Core} {f : Fin 4} {h : Hdr} (op : BitVec 8) (heard : s.Hears f (agentLocal h.peer))
include heard

theorem Core.agentResponse_answers {p : Nat} {b : Barge} {n : LSnoop}
    (answers : s.localSnoop (agentLocal h.peer) h (fun _ n => n.rsp.isNone) = some (p, b, n)) : s.agentResponse f op h = s.responded p b n op h := by
  obtain ⟨known, alive⟩ := heard.passes
  unfold Core.agentResponse
  dsimp only
  rw [if_neg known, if_neg alive, answers]
  rfl

theorem Core.agentResponse_stray (unasked : s.localSnoop (agentLocal h.peer) h (fun _ n => n.rsp.isNone) = none) :
    s.agentResponse f op h = if h.epoch = s.epochOf h.line then s.stray h else s := by
  obtain ⟨known, alive⟩ := heard.passes
  unfold Core.agentResponse
  dsimp only
  rw [if_neg known, if_neg alive, unasked]
  simp only [Core.oldEpoch, bne_iff_ne, ne_eq, ite_not]

end

/-- Settles O45: a response meets the snoop it answers, or none; an undefined message is discarded whatever it meets. -/
theorem fabricResponses : Obligations.FabricResponses := by
  refine ⟨?responses, fun f op h s w on goes => ?undefinedRsp, fun f op ch h d s w on goes => ⟨?undefined, ?datE⟩⟩
  case responses =>
    intro e he f h s w on goes l ok alive
    have heard : s.core.Hears f (agentLocal h.peer) := ⟨ok, alive⟩
    rw [exec_response he, State.fabricArrive_taken w on goes]
    constructor
    · intro p b n answers
      simp only [State.takeArrival, State.onCore, Core.agentResponse_answers e.2 heard answers]
      rfl
    · intro stray
      simp only [State.takeArrival, State.onCore, Core.agentResponse_stray e.2 heard stray]
      split <;> rfl
  case undefinedRsp => exact State.fabricArrive_taken w on goes (.undefined f .rsp op h)
  case undefined => exact State.fabricArrive_taken w on goes (.undefined f ch op h)
  case datE => exact State.fabricArrive_taken w on goes (.undefined f .dat opDatE h)

/-! Data (R94, R96, R596, R601). -/

/-- The header of a local agent's data under this block's own numbers. -/
def Core.ownHdr (s : Core) (h : Hdr) : Hdr := { h with peer := agentId s.self (agentLocal h.peer), srci := s.self }

/-- The header of a local agent's request data: it is the agent's own, whatever its AGENT says. -/
def Core.requestHdr (s : Core) (h : Hdr) : Hdr := { s.ownHdr h with agent := agentId s.self (agentLocal h.peer) }

/-- The engine with the beats of a data message of a fabric port counted. -/
def Core.countBeats (s : Core) (f : Fin 4) (d : Beats) : Core := s.bump (unitFab f.val) 0x112 (if d.one then 1 else 2)

@[simp] theorem Core.bump_self (g e n : Nat) (s : Core) : (s.bump g e n).self = s.self := rfl

/-- Counting the beats changes none of what makes an agent heard. -/
theorem Core.Hears.bump {s : Core} {f : Fin 4} {l : BitVec 6} (a : s.Hears f l) (g e n : Nat) : (s.bump g e n).Hears f l := ⟨a.defined, a.alive⟩

section
variable {s : Core} {f : Fin 4} {op : BitVec 8} {h : Hdr} {d : Beats} (heard : s.Hears f (agentLocal h.peer))
include heard

theorem Core.fabricData_alone (alone : (s.countBeats f d).snoopFor (agentLocal h.peer) op (s.ownHdr h) = none) :
    s.fabricData f op h d = if h.hint.getLsbD 2 && agentLocal h.agent != agentLocal h.peer then (s.countBeats f d).stray (s.ownHdr h)
      else (s.countBeats f d).requestData (.fabric f) op (s.requestHdr h) d := by
  obtain ⟨known, alive⟩ := (heard.bump (unitFab f.val) 0x112 (if d.one then 1 else 2)).passes
  unfold Core.countBeats Core.ownHdr at alone
  unfold Core.fabricData
  dsimp only
  rw [if_neg known, if_neg alive, Core.bump_self, alone]
  rfl

/-- Data that answers no outstanding snoop is the agent's request data, where it may be. -/
theorem Core.fabricData_request (alone : (s.countBeats f d).snoopFor (agentLocal h.peer) op (s.ownHdr h) = none)
    (own : h.hint.getLsbD 2 = false ∨ agentLocal h.agent = agentLocal h.peer) :
    s.fabricData f op h d = (s.countBeats f d).requestData (.fabric f) op (s.requestHdr h) d := by
  rw [Core.fabricData_alone heard alone, if_neg (by simpa [or_iff_not_imp_left] using own)]

/-- TO_HOME data under another agent's AGENT is stray where it answers no outstanding snoop. -/
theorem Core.fabricData_stray (alone : (s.countBeats f d).snoopFor (agentLocal h.peer) op (s.ownHdr h) = none)
    (toHome : h.hint.getLsbD 2 = true) (other : agentLocal h.agent ≠ agentLocal h.peer) :
    s.fabricData f op h d = (s.countBeats f d).stray (s.ownHdr h) := by
  rw [Core.fabricData_alone heard alone, if_pos (by simp only [toHome, Bool.true_and, bne_iff_ne]; exact other)]

theorem Core.fabricData_answers {i : Nat} {b : Barge} {n : LSnoop}
    (answers : (s.countBeats f d).snoopFor (agentLocal h.peer) op (s.ownHdr h) = some (i, b, n)) :
    s.fabricData f op h d = if h.hint.getLsbD 2 then ((s.countBeats f d).agentDirty (s.ownHdr h) d).2
      else (s.countBeats f d).forwardDat f i b n (s.ownHdr h) d := by
  obtain ⟨known, alive⟩ := (heard.bump (unitFab f.val) 0x112 (if d.one then 1 else 2)).passes
  unfold Core.countBeats Core.ownHdr at answers
  unfold Core.fabricData
  dsimp only
  rw [if_neg known, if_neg alive, Core.bump_self, answers]
  rfl

end

/-! Request data (R119, R195). -/

/-- A berth entry waits for request data of an agent under a TAG. -/
def Berth.wants (op : BitVec 8) (h : Hdr) (b : Berth) : Bool :=
  b.h.agent = h.agent && b.h.tag = h.tag && !b.full && carriesData b.op && ((b.op = opWbD) == (op = opDatM))

/-- Data under an agent's TAG and opcode waits already. -/
def EarlyData.same (f : Fin 4) (l : BitVec 6) (op : BitVec 8) (h : Hdr) (x : EarlyData) : Bool :=
  x.port = f && x.loc = l && x.tag = h.tag && x.op = op

section
variable {s : Core} {f : Fin 4} {op : BitVec 8} {h : Hdr} {d : Beats}

/-- Data that a berth entry waits for joins it where it finds its slot. -/
theorem Core.requestData_asked {r : Berth} (asked : s.host.berths.find? (Berth.wants op h) = some r) : s.requestData (.fabric f) op h d =
    if s.dataRoom (.fabric f) op { h with credit := r.pool } then s.berthData r.id d h.poison (madeUp h)
    else s.raiseAt famBerthOvf (unitFab f.val) h.line h.agent := by
  unfold Berth.wants at asked
  unfold Core.requestData
  rw [asked]
  rfl

/-- Data that no berth entry waits for yet takes a slot, where none of the agent's holds such data. -/
theorem Core.requestData_unasked {l : BitVec 6} (loc : agentLocal h.agent = l) (unasked : s.host.berths.find? (Berth.wants op h) = none) :
    s.requestData (.fabric f) op h d =
      if s.host.early.any (EarlyData.same f l op h) || !s.dataRoom (.fabric f) op h then s.raiseAt famBerthOvf (unitFab f.val) h.line h.agent
      else s.onHost (fun x => { x with early := x.early ++ [⟨f, l, h.tag, h.credit, op, d, h.poison, madeUp h⟩] }) := by
  subst loc
  unfold Berth.wants at unasked
  unfold Core.requestData
  rw [unasked]
  rfl

end

/-! Data under a snoop (R94, R122, R190, R601). -/

/-- TO_HOME data that answers a snoop is DAT_M. -/
theorem Core.snoopFor_toHome {s : Core} {l : BitVec 6} {op : BitVec 8} {h : Hdr} {x : Nat × Barge × LSnoop} (toHome : h.hint.getLsbD 2 = true)
    (answers : s.snoopFor l op h = some x) : op = opDatM := by
  by_contra other
  simp [Core.snoopFor, toHome, other] at answers

/-- Dirty data for a barge is kept where the barge or the reserve has a slot for it. -/
theorem Core.agentDirty_answers {s : Core} {l : BitVec 6} {h : Hdr} {d : Beats} {i : Nat} {b : Barge} {n : LSnoop} (loc : agentLocal h.peer = l)
    (answers : s.snoopFor l opDatM h = some (i, b, n)) : (s.agentDirty h d).2 =
      if !s.ownSlot b && s.reserveFull then s.waitSlot (s.fport l) { h with srci := s.self } d
      else s.dirtyData i b.id (s.fport l) d.data h.poison (madeUp h) := by
  subst loc
  unfold Core.agentDirty
  rw [answers]
  exact apply_ite Prod.snd _ _ _

/-- Settles O46: data of a local agent answers a snoop, or is its request's, or is stray. -/
theorem fabricData : Obligations.FabricData := by
  intro e he f h d s w on goes l p k g q made ok alive
  have heard : s.core.Hears f (agentLocal h.peer) := ⟨ok, alive⟩
  have outcome {c : Core} (taken : s.core.fabricData f e.2 h d = c) :
      exec (e.1 (.fabric f) h d) s = .next (State.finish s { s with core := c }) := by
    rw [exec_data he, State.fabricArrive_taken w on goes, ← taken]
    rfl
  have loc : agentLocal p = l := agentLocal_agentId _ _
  have port : k.fport l = f.val := Core.fport_of_agentOk ok
  refine ⟨fun alone own => ?request, fun alone toHome other => ?stray,
    fun i b n answers => ⟨fun toHome => ?dirty, fun forward clean => ?forward⟩⟩
  case request =>
    have request := Core.fabricData_request heard alone own
    refine ⟨fun r asked room => ?joins, fun r asked full => ?full, fun unasked => ⟨fun new room => ?early, fun lost => ?lost⟩⟩
    case joins => exact outcome ((request.trans (Core.requestData_asked asked)).trans (if_pos room))
    case full => exact outcome ((request.trans (Core.requestData_asked asked)).trans (if_neg (Bool.eq_false_iff.mp full)))
    case early =>
      have kept : (s.core.host.early.any (EarlyData.same f l e.2 q) || !k.dataRoom (.fabric f) e.2 q) = false :=
        Bool.or_eq_false_iff.mpr ⟨new, by simp [room]⟩
      exact outcome ((request.trans (Core.requestData_unasked loc unasked)).trans (if_neg (Bool.eq_false_iff.mp kept)))
    case lost =>
      have discarded : (s.core.host.early.any (EarlyData.same f l e.2 q) || !k.dataRoom (.fabric f) e.2 q) = true :=
        Bool.or_eq_true_iff.mpr (lost.imp_right (by simp))
      exact outcome ((request.trans (Core.requestData_unasked loc unasked)).trans (if_pos discarded))
  case stray => exact outcome (Core.fabricData_stray heard alone toHome other)
  case dirty =>
    have dirty := (Core.fabricData_answers heard answers).trans (if_pos toHome)
    rw [Core.snoopFor_toHome toHome answers] at answers
    have kept := Core.agentDirty_answers (d := d) loc answers
    rw [port] at kept
    refine ⟨fun room => outcome (dirty.trans (kept.trans (if_neg ?_))), fun slotless full => outcome (dirty.trans (kept.trans (if_pos ?_)))⟩
    · simpa [Core.reserveFull, or_iff_not_imp_left] using room
    · simp [Core.reserveFull, slotless, full]
  case forward =>
    refine outcome ((Core.fabricData_answers heard answers).trans ?_)
    rw [if_neg (Bool.eq_false_iff.mp forward)]
    unfold Core.forwardDat
    simp only [Core.ownHdr, clean, Bool.false_and, Bool.false_eq_true, if_false]
    rfl

end Sys2Proof.Machine
end

section
/-!
SUPPORT. The statement on the charter and domain commands: each row's own run, and the bars of SERVICE_ENTER.
-/
namespace Sys2Proof.Machine

/-! Commands of the tables that a check stops (R406). -/

/-- A command that its transport takes and that a check with a RESULT of its own stops is answered, and does nothing else. -/
theorem State.towRow_answered {r : TowRow} {c : TowCmd} {s : State} {st : BitVec 8} {w : Word} (isOpen : s.viaOpen c.via = true)
    (free : s.towHeld c.via = false) (lit : s.core.block ≠ .pilot) (stopped : State.towCheck r c (s.viaTaken r.op c) = some (st, some w)) :
    s.towRow r c = ((s.viaTaken r.op c).sendReply c.via ⟨r.op, c.tag, st, 0, w, []⟩).setPrev c.via .bad := by
  unfold State.towRow State.towArrive
  simp only [isOpen, Bool.not_true, Bool.false_eq_true, if_false, State.viaTaken_towHeld, free]
  unfold State.towTake
  simp [lit, stopped, State.towError]

@[simp] theorem State.viaTaken_towPriv (op : BitVec 8) (c : TowCmd) (s : State) (v : Via) : (s.viaTaken op c).towPriv v = s.towPriv v := by
  unfold State.towPriv State.reg
  rw [State.viaTaken_core]

@[simp] theorem State.viaTaken_serviceBar (op : BitVec 8) (c : TowCmd) (s : State) : (s.viaTaken op c).serviceBar = s.serviceBar := by
  simp only [State.serviceBar, State.viaTaken_core]

/-! The entry into service (R428). -/

theorem State.serviceBar_generation {s : State} (h : s.core.eng.generation = 0) : s.serviceBar = 1 := if_pos h

theorem State.serviceBar_unmapped {s : State} {l : Nat} (set : s.core.eng.generation ≠ 0) (served : l < trimSize s.core.host.trim)
    (unmapped : s.core.mapped l = false) : s.serviceBar = 2 := by
  have notAll : (List.range (trimSize s.core.host.trim)).all s.core.mapped = false :=
    List.all_eq_false.mpr ⟨l, List.mem_range.mpr served, by simp [unmapped]⟩
  unfold State.serviceBar
  rw [if_neg set, notAll]
  rfl

/-- What each bar answers as its RESULT. -/
theorem State.serviceBar_of_barred {s : State}
    (h : s.core.eng.generation = 0 ∨ ∃ l : Nat, l < trimSize s.core.host.trim ∧ s.core.mapped l = false) :
    s.serviceBar ≠ 0 ∧ at' s.serviceBar 0 = if s.core.eng.generation = 0 then 1 else 2 := by
  by_cases zero : s.core.eng.generation = 0
  · rw [State.serviceBar_generation zero, if_pos zero]
    exact ⟨by decide, rfl⟩
  · obtain ⟨l, served, unmapped⟩ := h.resolve_left zero
    rw [State.serviceBar_unmapped zero served unmapped, if_neg zero]
    exact ⟨by decide, rfl⟩

/-- The check of a SERVICE_ENTER that is as its row wants it: its state check stops it, with the bar as its RESULT. -/
theorem State.towCheck_serviceEnter {c : TowCmd} {s : State} (priv : s.towPriv c.via = 0)
    (payload : c.payload = []) (target : c.target = 0xFF) (flags : c.flags &&& 0xFE = 0) (resv : c.resv = 0) (param : c.param = 0)
    (barred : s.serviceBar ≠ 0) :
    State.towCheck rowServiceEnter c s = some (tsWrongState, some (at' s.serviceBar 0)) := by
  have allowed : (decide (rowServiceEnter.least < s.towPriv c.via) || rowServiceEnter.denied s c) = false := by
    rw [priv]
    rfl
  have long : rowServiceEnter.lengthBad s c = false := by
    simp [TowRow.lengthBad, rowServiceEnter, blockRow, payload]
  have fields : rowServiceEnter.paramBad s c = false := by
    simp only [TowRow.paramBad, flags]
    simp [rowServiceEnter, blockRow, target, resv, param]
  have wrong : rowServiceEnter.stateBad s c = true := by
    simp [TowRow.stateBad, rowServiceEnter, blockRow, barred]
  have result : rowServiceEnter.wrongResult s c = some (at' s.serviceBar 0) := if_neg barred
  simp only [State.towCheck, allowed, long, fields, wrong, result, Bool.false_eq_true, if_false, if_true]

/-- CHARTER_CHECK names this instance, so that a failing check's RESULT has bit 22 at 0. -/
theorem State.checkResult_self (code entry : Nat) (s : State) :
    s.checkResult code entry s.self = if code = 0 then 0 else at' code 0 ||| at' entry 8 ||| at' s.self.toNat 16 := by
  have own : at' 0 22 = 0#64 := rfl
  simp only [State.checkResult, if_true, own, BitVec.or_zero]

theorem rowCharterCommit_run (id : Nat) (c : TowCmd) (s : State) : rowCharterCommit.run id c s = s.charterCommit id c.param := by
  simp only [rowCharterCommit, blockRow]
theorem rowDiscover_run (id : Nat) (c : TowCmd) (s : State) : rowDiscover.run id c s = s.discover id (c.param.setWidth 8) := by
  simp only [rowDiscover, blockRow]

/-- Settles O30: each row's own run in the state in which it begins, and the check that stops a SERVICE_ENTER. -/
theorem domainCommands : Obligations.DomainCommands := by
  refine ⟨⟨fun s c h => ?charterCheck, fun s c h => ?charterCommit, fun s c h => ?charterRelease, fun s c h => ?discover,
    fun s c h => ?genAdvance, fun s c h => ?serviceEnter⟩, ?barred⟩
  case charterCheck =>
    refine (State.does_towRow h).trans ?_
    rw [← State.checkResult_self]
    rfl
  case charterCommit => exact (State.does_towRow h).trans (by rw [rowCharterCommit_run])
  case charterRelease => exact State.does_towRow h
  case discover => exact (State.does_towRow h).trans (by rw [rowDiscover_run]; rfl)
  case genAdvance => exact State.does_towRow h
  case serviceEnter => exact State.does_towRow h
  case barred =>
    intro s c idle isOpen free block priv payload target flags resv param bar _ why _ _
    obtain ⟨barred, result⟩ := State.serviceBar_of_barred bar
    have lit : s.core.block ≠ .pilot := by rw [block]; decide
    have stopped := State.towCheck_serviceEnter (c := c) (s := s.viaTaken 0x26 c) (by simpa using priv)
      payload target flags resv param (by simpa using barred)
    have answered := State.towRow_answered (r := rowServiceEnter) isOpen free lit stopped
    rw [State.viaTaken_serviceBar, result] at answered
    exact (State.does_next _ idle).trans (by rw [answered]; rfl)

end Sys2Proof.Machine
end

section
/-!
SUPPORT. The statement on register writes that act on their unit: a clause of it where the stored registers are in their form, and the state
that refutes it.
-/
namespace Sys2Proof.Machine

/-! What a write of CLK_SLICE does where the stored registers are in their form (R490, R491). -/

theorem State.writeAt_clkSlice (p : Fin 18) (v : Word) {s : State} (h : s.pilotOnly = false) :
    s.writeAt (0x30200 + p.val * 8) v = s.clkWrite p.val v := by
  have listed : inArray (0x30200 + p.val * 8) 0x30200 8 18 = true := inArray_iff.mpr (by omega)
  have index : (0x30200 + p.val * 8 - 0x30200) / 8 = p.val := by omega
  have own : s.writeOwnHigh (0x30200 + p.val * 8) v = some (s.clkWrite p.val v) := by
    unfold State.writeOwnHigh
    rw [if_neg (by omega), if_pos listed, index]
  have high : ¬0x30200 + p.val * 8 < 0x30000 := by omega
  have holdup : 0x30200 + p.val * 8 ≠ 0x30100 := by omega
  simp only [State.writeAt, State.regWrite, State.reached h, high, holdup, own, Bool.false_eq_true, if_false]

/-- In a slice that runs items a divider that is no faster waits for a quiesce point. -/
theorem State.clkWrite_waits {p : Nat} {v : Word} {s : State} (slower : (s.gal p).div ≤ divOf v)
    (runs : (s.slice p).st = .serving ∨ (s.slice p).st = .draining ∨ (s.slice p).st = .proof ∨ (s.slice p).st = .waking) :
    s.clkWrite p v = s.onCore (Core.setReg (0x30200 + p * 8) (v &&& 7)) := by
  have noFaster : ¬divOf v < (s.gal p).div := Nat.not_lt.mpr slower
  have waits (t : State) (same : (t.slice p).st = (s.slice p).st) : t.divPump p = t := by
    unfold State.divPump
    rcases runs with e | e | e | e <;> simp [same, e]
  unfold State.clkWrite
  have pair (f : Core → Core) : (s.onCore f).gal p = s.gal p := rfl
  simp only [pair, noFaster, decide_false, Bool.false_eq_true, if_false]
  exact waits _ rfl

/-- The clause of `UnitRegisterWrites` that fails where INST_ID is listed behind CLK_SLICE, of states whose registers are in their form. -/
theorem exec_clkSliceDivWrite_waits {p : Fin 18} {v : Word} {s : State} (a : s.Able) (h : s.pilotOnly = false)
    (form : mrising 0 s.core.regs = true) (slower : (s.gal p.val).div ≤ divOf v)
    (runs : (s.slice p.val).st = .serving ∨ (s.slice p.val).st = .draining ∨ (s.slice p.val).st = .proof ∨ (s.slice p.val).st = .waking) :
    exec (.clkSliceDivWrite p v) s =
      .next (State.finish s (s.onCore (Core.setReg (0x30200 + p.val * 8) (v &&& 7)))) := by
  have effect := (State.writeAt_clkSlice p v h).trans (State.clkWrite_waits slower runs)
  have other : offInstId ≠ 0x30200 + p.val * 8 := by unfold offInstId; omega
  have still : s.idMoved (s.onCore (Core.setReg (0x30200 + p.val * 8) (v &&& 7))) = false :=
    State.idMoved_same (congrArg (BitVec.extractLsb' 0 6) (Core.reg_setReg_other _ form other))
  exact (State.writes_to (f := State.writeAt (0x30200 + p.val * 8) v) a.2 effect).trans (by rw [still]; rfl)

/-! The end of a step that began with no pair running and no command waiting. -/

theorem State.commitAll_dark {s0 : State} (dark : ∀ p, s0.galRuns p = false) (s : State) : State.commitAll s0 s = s :=
  foldS_fixed (fun p => by simp [State.galCommit, dark p]) _

/-- The count of free values that it leaves does not depend on the state in which it began. -/
theorem State.finish_freeCtr {s0 s1 : State} (dark0 : ∀ p, s0.galRuns p = false) (dark1 : ∀ p, s1.galRuns p = false)
    (idle0 : s0.tow.waiting = []) (idle1 : s1.tow.waiting = []) (s : State) :
    (State.finish s0 s).core.freeCtr = (State.finish s1 s).core.freeCtr := by
  have goOn : State.goOn s0 s = State.goOn s1 s := by simp only [State.goOn, idle0, idle1]
  have cycle (a t : State) : (if t.powered then State.irqCycle a t else t).core.freeCtr = t.core.freeCtr := by
    split
    · exact State.irqCycle_freeCtr a t
    · rfl
  unfold State.finish
  simp only [State.commitAll_dark dark0, State.commitAll_dark dark1, goOn]
  cases s.powered with
  | false => simp only [Bool.not_false, if_true]
  | true => simp only [Bool.not_true, Bool.false_eq_true, if_false, cycle]

/-! A state whose stored registers are not in their form: CLK_SLICE(0) is listed before INST_ID, which reads its reset value behind it. -/

/-- Slice 0 serves. -/
def servingZero : Map Slice := [(0, { Slice.reset with st := .serving })]

def listedBehind : State := resting ((0x30200, 4) :: (0x10, 5) :: ignoring) .standby servingZero [] 0

/-- A write of CLK_SLICE(0)'s reset value takes its entry out, and INST_ID reads 5 behind it. -/
theorem listedBehind_write : listedBehind.writeAt 0x30200 0 = onceListed .standby servingZero [] 0 := by rfl

theorem listedBehind_dark (p : Nat) : listedBehind.galRuns p = false := by simp [State.galRuns, listedBehind, resting]

theorem listedBehind_finish (b : BlockSt) (m : Map Slice) {r : List FltEvent} (n : Nat) (h : r = [] ∨ ∃ e, r = [e] ∧ e.src < 2048) :
    (State.finish listedBehind (onceListed b m r n)).core.freeCtr = n :=
  (State.finish_freeCtr listedBehind_dark (fun p => by simp [State.galRuns, twiceListed, resting]) rfl rfl _).trans
    (onceListed_finish b m n h)

/-- Refutes O24: it speaks of every list of stored registers, and in `listedBehind`, where CLK_SLICE(0) is listed before INST_ID, a write of
DIV 0 takes CLK_SLICE(0)'s entry out and uncovers INST_ID's, so that INST_ID has moved and R4's effect, which takes free values, follows. -/
theorem not_unitRegisterWrites : ¬ Obligations.UnitRegisterWrites := by
  rintro ⟨-, -, clk, -⟩
  have idle : listedBehind.tow.waiting = [] := rfl
  obtain ⟨-, -, serves⟩ := clk listedBehind 0 0 ⟨rfl, idle⟩ rfl
  have claimed : exec (.clkSliceDivWrite 0 0) listedBehind = .next (State.finish listedBehind (onceListed .standby servingZero [] 0)) :=
    serves (by decide) (.inl rfl)
  have moved : listedBehind.idMoved (onceListed .standby servingZero [] 0) = true := by decide
  have actual : exec (.clkSliceDivWrite 0 0) listedBehind =
      .next (State.finish listedBehind (onceListed .standby servingZero [] 0).upset) :=
    (State.writes_to (f := State.writeAt 0x30200 0) idle listedBehind_write).trans (by rw [if_pos moved])
  obtain ⟨b, m, r, k, upset, taken, events⟩ := onceListed_upset .standby servingZero 0
  have count := congrArg (fun s : State => s.core.freeCtr) (Host.Outcome.next.inj (actual.symm.trans claimed))
  rw [upset, listedBehind_finish b m k events, listedBehind_finish .standby servingZero 0 (.inl rfl)] at count
  omega

end Sys2Proof.Machine
end

section
/-!
SUPPORT. The statement on the state after a block reset.
-/
namespace Sys2Proof.Machine

/-- After reset no stored register differs from its reset value. -/
theorem State.reset_reg (o : Nat) : State.reset.reg o = resetOf o := rfl

/-- Domains 74 to 79 are on (R472, R494). -/
theorem State.reset_doms : ∀ d : Fin 80, State.reset.core.doms.getLsbD d.val = decide (74 ≤ d.val) := by decide

/-- IRQ_MASK is all ones (R565). -/
theorem resetOf_irqMask : ∀ k : Fin 4, resetOf (0x10800 + 8 * k.val) = BitVec.allOnes 64 := by decide

/-- Settles O7: the arrays of the state after reset list nothing, so that each entry reads its own reset value. -/
theorem resetState : Obligations.ResetState := by
  refine ⟨⟨rfl, State.reset_doms, fun _ => rfl, rfl, fun _ => ⟨rfl, rfl⟩, fun _ => rfl, rfl, rfl, rfl, rfl, rfl, rfl, rfl, rfl, rfl, rfl⟩,
    State.reset_reg, ?simmer, fun k => (State.reset_reg _).trans (resetOf_irqMask k), ?faults, ?freeze⟩
  case simmer => exact (State.reset_reg 0x110).trans (by decide)
  case faults => exact (State.reset_reg 0x20400).trans (by decide)
  case freeze => exact (State.reset_reg 0x20600).trans (by decide)

end Sys2Proof.Machine
end

section
/-!
SUPPORT. The statement on what another chip's message does when it is taken.
-/
namespace Sys2Proof.Machine

/-! One round of what units hand each other. -/

theorem Core.settle_done {s : Core} (h : s.flt.raised = []) (k : s.nextTask = none) : s.settle = s := Core.drain_done drainFuel h k

theorem State.moveOut_none {s : State} (h : s.core.toSend = []) : s.moveOut = s := by
  have cleared : s.onCore (fun k => { k with toSend := [] }) = s := by rw [← h]; rfl
  simp only [State.moveOut, h, cleared, foldS, List.foldl_nil]

theorem State.moveUp_none {s : State} (h : s.core.up = []) : s.moveUp = s := by
  have cleared : s.onCore (fun k => { k with up := [] }) = s := by rw [← h]; rfl
  simp only [State.moveUp, h, cleared, foldS, List.foldl_nil]

theorem State.moveIn_one {n : Nat} {c : CulMsg} {s : State} (h : s.cul.inbox = [(n, c)]) :
    s.moveIn = State.takeIn n c { s with cul := { s.cul with inbox := [] } } := by
  unfold State.moveIn
  rw [h]
  rfl

theorem State.pump_one (k : Nat) {n : Nat} {c : CulMsg} {s : State} (sent : s.core.toSend = []) (up : s.core.up = [])
    (raised : s.core.flt.raised = []) (task : s.core.nextTask = none) (inbox : s.cul.inbox = [(n, c)]) :
    State.pump (k + 1) s = State.pump k (State.takeIn n c { s with cul := { s.cul with inbox := [] } }) := by
  have busy : s.quiet = false := by simp [State.quiet, inbox]
  have settled : s.onCore Core.settle = s := by
    unfold State.onCore
    rw [Core.settle_done raised task]
  simp only [State.pump, busy, settled, State.moveOut_none sent, State.moveUp_none up, State.moveIn_one inbox, Bool.false_eq_true, if_false]

/-! Receive cells (R297). -/

theorem State.takeIn_without_cells {c : CulMsg} (cells : c.cells = none) (n : Nat) (s : State) : State.takeIn n c s = State.culRecv n c s := by
  simp only [State.takeIn, cells]

theorem State.takeIn_frees {n : Nat} {c : CulMsg} {x : Cells} {s : State} (cells : c.cells = some x)
    (taken : (State.culRecv n c s).core.host.waitData.any (fun w => w.2 = c.m) = false) :
    State.takeIn n c s = (State.culRecv n c s).cellsFree x := by
  simp only [State.takeIn, cells, taken, Bool.false_and, Bool.false_eq_true, if_false]

/-! Which unit takes a message (R298). -/

theorem State.culRecv_hello {n : Fin 6} {c : CulMsg} (h : c.m.op = 0xC1) (s : State) :
    State.culRecv n c s = s.takeHello n c.hops c.m.h := by
  simp only [State.culRecv, h, if_true, n.isLt]

theorem State.culRecv_elsewhere {n : Fin 6} {c : CulMsg} {s : State} (hello : c.m.op ≠ 0xC1) (away : c.m.h.dsti ≠ s.self) :
    State.culRecv n c s = s.culTransit n { c with cells := none } := by
  simp only [State.culRecv, if_neg hello, bne_iff_ne.mpr away, if_true, n.isLt]

theorem State.culRecv_reserved {n : Fin 6} {c : CulMsg} {s : State} (hello : c.m.op ≠ 0xC1) (here : c.m.h.dsti = s.self)
    (reserved : culReserved c.m.op.toNat = true) : State.culRecv n c s = s.raise famCulProto (unitCul n) := by
  simp only [State.culRecv, if_neg hello, here, bne_self_eq_false, Bool.false_eq_true, if_false, reserved, if_true, n.isLt]

/-- Opcodes that go to the engine: not HELLO's, none of the Lockkeeper's, none reserved. -/
def engineOp (op : BitVec 8) : Bool :=
  decide (op ≠ 0xC1) && !culReserved op.toNat && !List.contains [0xC3, 0xC4, 0xC5, 0xD8, 0xD9, 0xDA, 0xDB] op.toNat

theorem State.culRecv_engine {n : Fin 6} {c : CulMsg} {s : State} (goes : s.core.stopped = false) (here : c.m.h.dsti = s.self)
    (engine : engineOp c.m.op = true) : State.culRecv n c s = s.onCore (Core.recvChip (some n) c.m) := by
  simp only [engineOp, Bool.and_eq_true, decide_eq_true_eq, Bool.not_eq_true', List.contains_eq_mem, decide_eq_false_iff_not, List.mem_cons,
    List.not_mem_nil, or_false, not_or] at engine
  obtain ⟨⟨hello, reserved⟩, salvage, fence, fenceAck, report, go, ack, all⟩ := engine
  have service : s.culService c = none := by
    simp only [State.culService, salvage, fence, fenceAck, report, go, ack, all, if_false]
  have takes (f : Core → Core) : s.onCore (Core.takes f) = s.onCore f := by
    simp only [State.onCore, Core.takes, goes, Bool.false_eq_true, if_false]
  simp only [State.culRecv, if_neg hello, here, bne_self_eq_false, Bool.false_eq_true, if_false, reserved, service, n.isLt, dif_pos, Fin.eta,
    takes]

/-! What the engine makes of it, by its opcode (R89). -/

/-- Opcodes of requests. -/
def requestOps : List (BitVec 8) := [0x00, 0x01, 0x02, 0x03, 0x04, 0x10, 0x11, 0x18, 0x20, 0x28]
/-- Opcodes of home snoops. -/
def homeSnoopOps : List (BitVec 8) := [0x40, 0x41, 0x42, 0x43, 0x44]

theorem engineOp_request : ∀ op ∈ requestOps, engineOp op = true := by decide
theorem engineOp_homeSnoop : ∀ op ∈ homeSnoopOps, engineOp op = true := by decide

theorem Core.recvChip_request {n : Fin 6} {m : Msg} (h : m.op ∈ requestOps) (s : Core) : s.recvChip (some n) m = s.chipRequest n m.op m.h := by
  have listed : ∀ op ∈ requestOps, [0x00, 0x01, 0x02, 0x03, 0x04, 0x10, 0x11, 0x18, 0x20, 0x28].contains op.toNat = true := by decide
  simp only [Core.recvChip, listed _ h, if_true, Core.takeRequest]

theorem Core.recvChip_homeSnoop {m : Msg} (h : m.op ∈ homeSnoopOps) (src : Option (Fin 6)) (s : Core) :
    s.recvChip src m = s.takeSnoop src m.op m.h := by
  have range : ∀ op ∈ homeSnoopOps, [0x00, 0x01, 0x02, 0x03, 0x04, 0x10, 0x11, 0x18, 0x20, 0x28].contains op.toNat = false ∧
      0x40 ≤ op.toNat ∧ op.toNat ≤ 0x44 := by decide
  obtain ⟨request, inside⟩ := range _ h
  simp only [Core.recvChip, request, Bool.false_eq_true, if_false, if_pos inside]

theorem Core.recvChip_credit {m : Msg} (h : m.op = 0xC0) (src : Option (Fin 6)) (s : Core) : s.recvChip src m = s.takeCredit m.h := by
  simp [Core.recvChip, h]

theorem Core.recvChip_frzPing {m : Msg} (h : m.op = 0xD0) (src : Option (Fin 6)) (s : Core) :
    s.recvChip src m = s.takeFrzPing m.h.srci m.h := by
  simp [Core.recvChip, h]

theorem Core.recvChip_census {m : Msg} (h : m.op = 0xC2) (src : Option (Fin 6)) (s : Core) : s.recvChip src m = s.takeCensus m.h := by
  simp [Core.recvChip, h]

/-! Home snoops (R194, R195). -/

theorem Core.takeSnoop_room (n : Fin 6) (op : BitVec 8) {h : Hdr} {s : Core}
    (room : (s.host.intake.filter (fun i => i.h.srci = h.srci)).length < 16) :
    s.takeSnoop (some n) op h = { s with
      nextId := s.nextId + 1
      host := { s.host with intake := s.host.intake ++ [
        { id := s.nextId, op := op, h := h, stamp := s.arrival, hash := sliceHash h.line, slice := none }] } } := by
  have free : ¬16 ≤ (s.host.intake.filter (fun i => i.h.srci = h.srci)).length := Nat.not_le.mpr room
  simp only [Core.takeSnoop, free, decide_false, Bool.false_eq_true, if_false]
  rfl

theorem Core.takeSnoop_full (n : Fin 6) (op : BitVec 8) {h : Hdr} {s : Core}
    (full : 16 ≤ (s.host.intake.filter (fun i => i.h.srci = h.srci)).length) :
    s.takeSnoop (some n) op h = s.raiseAt famBerthOvf (unitCul n) h.line h.agent := by
  simp only [Core.takeSnoop, full, decide_true, if_true]

/-! Forwarded requests (R188, R195, R387). -/

/-- A request of another chip's proxy pairs no data that came first. -/
theorem Core.storeRequest_culvert (n : Fin 6) (op : BitVec 8) (h : Hdr) (own : Bool) (s : Core) :
    s.storeRequest (.culvert n) op h own = { s with
      nextId := s.nextId + 1
      host := { s.host with
        berths := s.host.berths ++ [{
          id := s.nextId, op := op, h := h, own := own, pool := h.credit, port := none, stamp := s.arrival, hash := sliceHash h.line
          ep := 8 + n.val, full := !carriesData op, seq := s.host.seq }]
        seq := s.host.seq + 1 } } := by
  simp only [Core.storeRequest, Option.isSome_none, Bool.and_false, Bool.or_false, Bool.false_eq_true, if_false]
  rfl

/-- Of a sender that no freeze has tombstoned, a request that names no entry held already is stored where its entry is free. -/
theorem Core.chipRequest_new {n : Fin 6} {op : BitVec 8} {h : Hdr} {s : Core} (alive : s.frz.st = 0 ∨ s.tombed h.agent = false)
    (new : s.host.berths.any (fun b =>
      b.h.agent = h.agent && b.h.tag = h.tag && (b.own == (op = opWbD && h.hint.getLsbD 3)) && b.op = op && b.port.isNone) = false) :
    s.chipRequest n op h = if s.headerRoom (.culvert n) h op then s.storeRequest (.culvert n) op h (op = opWbD && h.hint.getLsbD 3)
      else s.raiseAt famBerthOvf (unitCul n) h.line h.agent := by
  have taken : (s.frz.st != 0 && s.tombed h.agent) = false := by
    rcases alive with e | e <;> simp [e]
  simp only [Core.chipRequest, taken, new, Bool.false_eq_true, if_false]
  cases s.headerRoom (.culvert n) h op <;> rfl

/-! Pings and census requests (R392, R513). -/

theorem Core.takeFrzPing_answered {from_ : BitVec 6} {h : Hdr} {s : Core} (goes : s.stopped = false) (on : s.block ≠ .off)
    (lit : s.block ≠ .pilot) : s.takeFrzPing from_ h = s.sendFrz opFrzPong from_ { Hdr.zero with tag := h.tag } := by
  simp [Core.takeFrzPing, goes, on, lit]

theorem Core.takeCensus_before_generation {h : Hdr} {s : Core} (first : s.eng.generation = 0) :
    s.takeCensus h =
      let n := (h.tag.extractLsb' 0 8).toNat
      let k := snpqHdr (s.recLine 0 0) 2 n n
      (s.censusSent h.srci k).sendSnpQ h.srci ⟨opSnpQ, k, none⟩ none := by
  simp [Core.takeCensus, first]

/-- Settles O48: a round of units that have nothing else to hand on takes the message, which goes to its unit by its opcode and address, and the
engine's part by the rule of its kind. -/
theorem messagesTaken : Obligations.MessagesTaken := by
  refine ⟨fun k n c s => State.pump_one k, fun n c s => ⟨fun cells => State.takeIn_without_cells cells n s, fun x => State.takeIn_frees⟩,
    fun n c s => ⟨fun hello => State.culRecv_hello hello s, State.culRecv_elsewhere, fun hello here listed => ?reserved⟩, ?engine⟩
  case reserved =>
    have reserved : ∀ op ∈ ([0xC6, 0xC7, 0xC8, 0xC9, 0xCA, 0xCB, 0xCC, 0xCD, 0xCE, 0xCF, 0xD6, 0xD7, 0xDC, 0xDD, 0xDE, 0xDF] : List (BitVec 8)),
        culReserved op.toNat = true := by decide
    exact State.culRecv_reserved hello here (reserved _ listed)
  case engine =>
    intro n c s goes here k h r
    have engine {x : Core} (e : engineOp c.m.op = true) (effect : s.core.recvChip (some n) c.m = x) : r = { s with core := x } :=
      (State.culRecv_engine goes here e).trans (congrArg (fun x : Core => { s with core := x }) effect)
    refine ⟨?snoop, ?request, fun credit => ?credit, fun ping on lit => ?ping, fun census first => ?census⟩
    case snoop =>
      intro snoop
      have taken := Core.recvChip_homeSnoop snoop (some n) s.core
      exact ⟨fun room => engine (engineOp_homeSnoop _ snoop) (taken.trans (Core.takeSnoop_room n _ room)),
        fun full => engine (engineOp_homeSnoop _ snoop) (taken.trans (Core.takeSnoop_full n _ full))⟩
    case request =>
      intro request own alive new
      have taken := (Core.recvChip_request (n := n) request s.core).trans (Core.chipRequest_new alive new)
      exact ⟨fun room => engine (engineOp_request _ request) (taken.trans ((if_pos room).trans (Core.storeRequest_culvert n _ _ _ _))),
        fun full => engine (engineOp_request _ request) (taken.trans (if_neg (ne_true_of_eq_false full)))⟩
    case credit => exact engine (credit ▸ by decide) (Core.recvChip_credit credit (some n) s.core)
    case ping =>
      exact engine (ping ▸ by decide) ((Core.recvChip_frzPing ping (some n) s.core).trans (Core.takeFrzPing_answered goes on lit))
    case census =>
      exact engine (census ▸ by decide) ((Core.recvChip_census census (some n) s.core).trans (Core.takeCensus_before_generation first))

end Sys2Proof.Machine
end

section
/-!
SUPPORT. The statement on ticks, counter updates, dumps and the Logbook.
-/
namespace Sys2Proof.Machine

/-! What a tick leaves as it was behind its own counts (R198). -/

/-- The host port with AGE_NOW, the cycle count, the stored registers and the interrupt controller. -/
def State.tickView (s : State) : HostPort × Nat × Map Word × Irq := (s.core.host, s.core.cycles, s.core.regs, s.irq)

@[simp] theorem State.tickView_onGal (p : Nat) (f : Gal → Gal) (s : State) : (s.onGal p f).tickView = s.tickView := rfl
@[simp] theorem State.tickView_onSlice (p : Nat) (f : Slice → Slice) (s : State) : (s.onSlice p f).tickView = s.tickView := rfl
@[simp] theorem State.tickView_bump (g e n : Nat) (s : State) : (s.onCore (Core.bump g e n)).tickView = s.tickView := rfl
@[simp] theorem State.tickView_freeWord (s : State) : s.freeWord.2.tickView = s.tickView := rfl
@[simp] theorem State.tickView_galRelease (p : Nat) (s : State) : (s.galRelease p).tickView = s.tickView := rfl
@[simp] theorem State.tickView_raise (fam idx : Nat) (s : State) : (s.raise fam idx).tickView = s.tickView := by
  obtain ⟨f, n, e⟩ := Core.raiseEv_eq (FltEvent.plain (32 * fam + idx)) s.core
  have core : (s.raise fam idx).core = { s.core with flt := f, freeCtr := n } := e
  unfold State.tickView
  rw [core]
  rfl

@[simp] theorem State.tickView_galRewind (p : Nat) (s : State) : (s.galRewind p).tickView = s.tickView := by
  simp only [State.galRewind, State.tickView_raise, State.tickView_bump, State.tickView_onGal]

/-- A window that a tick closes has no second difference, and is released. -/
@[simp] theorem State.tickView_galTick (p : Nat) (s : State) : (s.galTick p).tickView = s.tickView := by
  have alike (g : Gal) : g.differs [] = false := rfl
  unfold State.galTick State.galClose
  simp only [alike, Bool.not_false, Bool.and_true, Bool.false_eq_true, if_false]
  split
  · split
    · exact State.tickView_galRelease p s
    · split
      · exact State.tickView_galRelease p s
      · rw [State.tickView_galRelease, State.tickView_galRewind, State.tickView_onGal]
  · rfl

theorem State.tickView_tickSlice (p : Nat) (s : State) : (s.tickSlice p).tickView = s.tickView := by
  unfold State.tickSlice
  split
  · rfl
  · split
    · rfl
    · exact (State.tickView_galTick p _).trans rfl

theorem State.tickView_tickPort (u : Nat) (s : State) : (s.tickPort u).tickView = s.tickView := by
  unfold State.tickPort
  generalize (if u < 24 then decide (1 < (s.cport (u - 18)).st.code) else s.core.doms.getLsbD (66 + (u - 24))) = on
  cases on with
  | false => rfl
  | true =>
    simp only [Bool.not_true, Bool.false_eq_true, if_false]
    split
    · split <;> rfl
    · split <;> rfl

/-- A tick counts itself and its four cycles. -/
theorem State.tickView_ageTick (s : State) :
    s.ageTick.tickView = ({ s.core.host with tick := s.core.host.tick + 1 }, s.core.cycles + 4, s.core.regs, s.irq) := by
  unfold State.ageTick
  rw [foldS_view State.tickView_tickPort]
  have wharf (t : State) : (t.onCore (if t.pwr.wharfGated then Core.bump 32 0x205 4 else Core.bump 32 0x001 4)).tickView = t.tickView := by
    split <;> rfl
  rw [wharf, foldS_view State.tickView_tickSlice]
  rfl

/-! Counters (R531, R532). -/

theorem State.cntStep_val (s : State) (x : Watch × Bool) (a : Nat) :
    (s.cntStep x a).1.val = mset 0 x.1.val a ((mget 0 x.1.val a + s.cntAdd x.2 a) % 2 ^ 48) := by
  unfold State.cntStep
  dsimp only
  split
  · rfl
  · split <;> rfl

/-- A counter that is not chained adds the counts of its event, whatever the counter before it carries. -/
theorem State.cntAdd_unchained {s : State} {c : Nat} (free : s.cntChained c = false) (carry : Bool) :
    s.cntAdd carry c = if s.cntRuns c && bits (s.cntCfg c) 9 0 != 0 then
      Nat.min 4095 (mget 0 s.core.cntPend (cntGroup c * 1024 + bits (s.cntCfg c) 9 0)) else 0 := by
  unfold State.cntAdd
  rw [free]
  cases s.cntRuns c with
  | false => rfl
  | true => by_cases unnamed : bits (s.cntCfg c) 9 0 = 0 <;> simp [unnamed]

/-- A pass over distinct counters changes one that is not chained where it comes to it, and nowhere else. -/
theorem State.cntSteps_val {s : State} {c : Nat} (free : s.cntChained c = false) {l : List Nat} (distinct : l.Nodup) {x : Watch × Bool}
    (form : Map.wf 0 x.1.val = true) : mget 0 (l.foldl s.cntStep x).1.val c =
      if c ∈ l then (mget 0 x.1.val c + s.cntAdd false c) % 2 ^ 48 else mget 0 x.1.val c := by
  induction l generalizing x with
  | nil => rfl
  | cons a l ih =>
    obtain ⟨apart, distinct⟩ := List.nodup_cons.mp distinct
    have formed : Map.wf 0 (s.cntStep x a).1.val = true := by
      rw [State.cntStep_val]
      exact mset_wf 0 _ a form
    rw [List.foldl_cons, ih distinct formed, State.cntStep_val]
    by_cases here : c = a
    · subst here
      rw [if_neg apart, if_pos List.mem_cons_self, mget_mset_same (Map.rising_of_wf form), State.cntAdd_unchained free,
        State.cntAdd_unchained free]
    · rw [mget_mset_other (Map.rising_of_wf form) here]
      simp only [List.mem_cons, here, false_or]

theorem State.cntUpdate_val {s : State} (form : Map.wf 0 s.watch.val = true) (c : Fin 408) (free : s.cntChained c = false) :
    mget 0 s.cntUpdate.watch.val c = (mget 0 s.watch.val c + s.cntAdd false c) % 2 ^ 48 :=
  (State.cntSteps_val free List.nodup_range (x := (s.watch, false)) form).trans (if_pos (List.mem_range.mpr c.isLt))

/-! Dumps (R538). -/

/-- Handing bursts on leaves a dump its number, and leaves it under way. -/
theorem State.dumpPump_keeps (n : Nat) {s : State} (h : s.watch.dump.isSome = true) :
    (s.dumpPump n).watch.dumpSeq = s.watch.dumpSeq ∧ (s.dumpPump n).watch.dump.isSome = true := by
  induction n generalizing s with
  | zero => exact ⟨rfl, h⟩
  | succ n ih =>
    unfold State.dumpPump
    split
    · exact ⟨rfl, h⟩
    · dsimp only
      split
      · exact ⟨rfl, h⟩
      · split
        · exact ⟨rfl, rfl⟩
        · exact ih rfl

theorem State.dumpPeriod_idle {s : State} (h : bit (s.reg 0x42200) 0 = false ∨ s.core.stopped = true) : s.dumpPeriod = s := by
  unfold State.dumpPeriod
  rw [if_pos]
  rcases h with e | e <;> simp [e]

section Period
variable {s : State} (on : bit (s.reg 0x42200) 0 = true) (goes : s.core.stopped = false)
include on goes

theorem State.dumpPeriod_skips (busy : s.watch.dump.isSome = true ∨ s.core.gatePaused gateDump = true) : s.dumpPeriod = s.onWatch Watch.skip := by
  unfold State.dumpPeriod
  rw [if_neg (by simp [on, goes]), if_pos (by simpa using busy)]

theorem State.dumpPeriod_starts (idle : s.watch.dump = none) (unpaused : s.core.gatePaused gateDump = false) : s.dumpPeriod = s.dumpStart [] := by
  unfold State.dumpPeriod
  rw [if_neg (by simp [on, goes]), if_neg (by simp [idle, unpaused])]

end Period

/-! The Logbook (R544, R545). -/

/-- Taking the next record off its queue moves neither pointer of the ring. -/
theorem Watch.nextTrace_ring {w v : Watch} {r : BitVec 256} (h : w.nextTrace = some (r, v)) : v.wr = w.wr ∧ v.rd = w.rd := by
  unfold Watch.nextTrace at h
  split at h
  · split at h
    · cases h
      exact ⟨rfl, rfl⟩
    · cases h
  · split at h
    · cases h
      exact ⟨rfl, rfl⟩
    · cases h

theorem State.traceWrite_idle {s : State} (h : s.logOn = false ∨ s.watch.nextTrace = none) : s.traceWrite = s := by
  unfold State.traceWrite
  split
  · rfl
  · next on =>
    rw [h.resolve_left (by simpa using on)]

section Trace
variable {s : State} {r : BitVec 256} {v : Watch} (on : s.logOn = true) (next : s.watch.nextTrace = some (r, v))
include on next

theorem State.traceWrite_loses (full : s.watch.ringFull = true) (stops : s.logWrap = false) : s.traceWrite = { s with watch := v.lose } := by
  simp only [State.traceWrite, on, next, full, stops, Bool.not_true, Bool.not_false, Bool.and_true, Bool.false_eq_true, if_false, if_true]

/-- Where the ring takes a record, a loss summary that is due goes first. -/
theorem State.traceWrite_room (room : s.watch.ringFull = false ∨ s.logWrap = true) :
    s.traceWrite = if s.watch.lossDue != 0 then
      { s with watch := { s.watch.ringPut
        (traceMark s.core.host.tick 3 0 (Nat.min 0xFFFFFFFF s.watch.lossDue) s.core.tb) with lossDue := 0 } }
    else { s with watch := v.ringPut r } := by
  have goes : (s.watch.ringFull && !s.logWrap) = false := by
    rcases room with e | e <;> simp [e]
  simp only [State.traceWrite, on, next, goes, Bool.not_true, Bool.false_eq_true, if_false]

end Trace

/-- Settles O60: a tick's own counts through the passes over slices and port units, a counter's part of the pass of an mc, and the branches of a
dump period, of the Logbook's write and of its spill. -/
theorem countersDumpsLogbook : Obligations.CountersDumpsLogbook := by
  refine ⟨fun s able => ?tick, fun s able form => ⟨s.cntUpdate, State.doesOn_next _ able, fun c free => ?counter⟩, ?watch⟩
  case tick =>
    have view := s.tickView_ageTick
    simp only [State.tickView, Prod.mk.injEq] at view
    obtain ⟨host, cycles, regs, irq⟩ := view
    exact ⟨s.ageTick, State.doesOn_next _ able, by rw [host], cycles, regs, irq⟩
  case counter =>
    exact (State.cntUpdate_val form c free).trans (by rw [State.cntAdd_unchained free]; rfl)
  case watch =>
    intro s able w put
    have dumps {t : State} (h : s.dumpPeriod = t) : exec .dumpPeriodExpiry s = .next (State.finish s t) :=
      h ▸ State.doesOn_next State.dumpPeriod able
    have writes {t : State} (h : s.traceWrite = t) : exec .traceRecordWrite s = .next (State.finish s t) :=
      h ▸ State.doesOn_next State.traceWrite able
    refine ⟨fun idle => dumps (State.dumpPeriod_idle idle), fun on goes => ⟨fun busy => dumps (State.dumpPeriod_skips on goes busy),
      fun idle unpaused => ?start⟩, fun idle => writes (State.traceWrite_idle idle), ?trace, State.doesOn_next State.logSpillRun able⟩
    case start =>
      exact ⟨s.dumpStart [], dumps (State.dumpPeriod_starts on goes idle unpaused), State.dumpPump_keeps 4 rfl⟩
    case trace =>
      intro r v on next full into
      obtain ⟨wr, rd⟩ := Watch.nextTrace_ring next
      have ring : v.ringPut r = into v r := by
        simp only [Watch.ringPut, Watch.ringFull, Watch.ringLen, wr, rd, into, full, w]
      refine ⟨fun isFull stops => writes (State.traceWrite_loses on next isFull stops), fun room => ?_⟩
      have written := State.traceWrite_room on next room
      exact ⟨fun due => writes (written.trans (if_pos (by simpa using due))),
        fun due => writes (written.trans ((if_neg (by simpa using due)).trans (by rw [ring])))⟩

end Sys2Proof.Machine
end

section
/-!
SUPPORT. The statement on the directory and maintenance commands.
-/
namespace Sys2Proof.Machine

/-! The outcome of a command that is taken, by an equation for its row's run (R406). -/

theorem State.does_towRow_to {r : TowRow} {c : TowCmd} {s t : State} (h : s.Takes r c) (e : r.run s.tow.nextCmd c (s.begun r c) = t) :
    s.does (State.towRow r c) = .next (State.finish s t) := e ▸ State.does_towRow h

/-! LARDER_READ before the first generation and after it (R440, R513). -/

theorem State.larderRead_first {s : State} (page cmd : Nat) (h : s.core.eng.generation = 0) :
    s.larderRead page cmd = s.complete cmd 0 1 (List.replicate 136 0) := if_pos h

theorem State.larderRead_later {s : State} (page cmd : Nat) (h : s.core.eng.generation ≠ 0) :
    s.larderRead page cmd = s.onCore (Core.larderOp page (.towRead cmd)) := if_neg h

/-! What a maintenance command does once its operation is named (R441). -/

theorem rowMaintAddr_run {c : TowCmd} {o : MaintOp} (h : maintOf (bits c.param 1 0) = some o) (id : Nat) (s : State) :
    rowMaintAddr.run id c s = s.maintAddr o (maintLine c) id := by
  simp only [rowMaintAddr, blockRow, State.towMaintAddr, h]

theorem rowMaintEntry_run {c : TowCmd} {o : MaintOp} (h : maintOf (bits c.param 9 8) = some o) (id : Nat) (s : State) :
    rowMaintEntry.run id c s = s.maintEntry c.target.toNat (bits c.param 5 0) o id := by
  simp only [rowMaintEntry, sliceRow, blockRow, State.towMaintEntry, h]

/-- The internal operation takes the next name, and neither the name nor the count of names decides its slice or its arrival (R247). -/
theorem State.maintAddr_eq (o : MaintOp) (x : LineAddr) (cmd : Nat) (s : State) :
    s.maintAddr o x cmd = s.onCore (fun k => Core.onSlice (k.physOfLine x)
      (fun y => { y with internals := y.internals ++ [⟨k.nextId, .maint o cmd, x, k.arrival⟩] }) { k with nextId := k.nextId + 1 }) := rfl

/-- Settles O36: each row's own run in the state in which it begins, LARDER_READ by the generation and a maintenance command by its operation. -/
theorem directoryCommands : Obligations.DirectoryCommands := by
  refine ⟨fun s c h => ?dirDump, fun s c h => ?dirRebuild, fun s c h => ⟨fun first => ?readFirst, fun later => ?readLater⟩,
    fun s c o h named => ?maintAddr, fun s c o h named => ?maintEntry⟩
  case dirDump => exact State.does_towRow h
  case dirRebuild => exact State.does_towRow h
  case readFirst => exact State.does_towRow_to h (State.larderRead_first _ _ first)
  case readLater => exact State.does_towRow_to h (State.larderRead_later _ _ later)
  case maintAddr => exact State.does_towRow_to h ((rowMaintAddr_run named _ _).trans (State.maintAddr_eq _ _ _ _))
  case maintEntry => exact State.does_towRow_to h (rowMaintEntry_run named _ _)

end Sys2Proof.Machine
end

section
/-!
SUPPORT. The statement on the power commands.
-/
namespace Sys2Proof.Machine

/-! PWR_TRIM (R444). -/

theorem State.towPwrTrim_present {c : TowCmd} {s : State} (id : Nat) (h : bits c.param 1 0 = s.core.host.trim) :
    s.towPwrTrim id c = s.complete id 0 0 [] := if_pos h

theorem State.towPwrTrim_other {c : TowCmd} {s : State} (id : Nat) (h : bits c.param 1 0 ≠ s.core.host.trim) :
    s.towPwrTrim id c = s.pwrTrim (bits c.param 1 0) (if trimSize s.core.host.trim < trimSize (bits c.param 1 0) then
      (s.core.trimAdds (bits c.param 1 0)).getD [] else []) id :=
  (if_neg h).trans (congrArg (fun l => s.pwrTrim (bits c.param 1 0) l id) (if_congr decide_eq_true_iff rfl rfl))

/-! PWR_IDLE (R474, R477). -/

theorem State.pwrIdle_stands (cmd : Nat) {on : Bool} {s : State} (h : s.pwr.idle = on) : s.pwrIdle on cmd = s.complete cmd 0 0 [] := by
  unfold State.pwrIdle
  rw [h]
  cases on <;> rfl

theorem State.pwrIdle_enters (cmd : Nat) {on : Bool} {s : State} (h : on = true) (idle : s.pwr.idle = false) :
    s.pwrIdle on cmd = (({ s with pwr := { s.pwr with idle := true } }).marker 0x01 0).complete cmd 0 0 [] := by
  unfold State.pwrIdle
  rw [if_pos h, idle]
  rfl

section Leaves
variable {on : Bool} {s : State} (h : on = false) (idle : s.pwr.idle = true)
include h idle

theorem State.pwrIdle_leaves (cmd : Nat) (lit : s.halvesOff = []) : s.pwrIdle on cmd = s.idleLeave cmd := by
  unfold State.pwrIdle
  rw [h, idle, lit]
  rfl

theorem State.pwrIdle_switches (cmd : Nat) (dark : s.halvesOff ≠ []) :
    s.pwrIdle on cmd = foldS (fun d k =>
      let u := halfUnit ((d - 74) / 2) ((d - 74) % 2)
      if k.pwr.work.any (fun w => w.unit = u && w.on) then k else k.workOn none u [d] false) s.halvesOff
      { s with pwr := { s.pwr with leaving := some cmd } } := by
  unfold State.pwrIdle
  rw [if_neg (by simp [h]), if_neg (by simp [idle])]
  split
  · contradiction
  · rfl

end Leaves

/-! PWR_HALF and PORT_POWER (R444, R445). -/

theorem State.pwrHalf_stands {e h : Nat} {on : Bool} (cmd : Nat) {s : State} (stands : on = s.core.doms.getLsbD (74 + 2 * e + h)) :
    s.pwrHalf e h on cmd = s.complete cmd 0 0 [] := by
  unfold State.pwrHalf
  dsimp only
  rw [← stands]
  cases on <;> rfl

theorem State.pwrHalf_on {e h : Nat} {on : Bool} (cmd : Nat) {s : State} (up : on = true)
    (dark : s.core.doms.getLsbD (74 + 2 * e + h) = false) :
    s.pwrHalf e h on cmd = s.workOn (some cmd) (halfUnit e h) [74 + 2 * e + h] false := by
  unfold State.pwrHalf
  dsimp only
  rw [up, dark]
  rfl

theorem State.pwrHalf_off {e h : Nat} {on : Bool} (cmd : Nat) {s : State} (down : on = false)
    (lit : s.core.doms.getLsbD (74 + 2 * e + h) = true) :
    s.pwrHalf e h on cmd = s.workOff (some cmd) (halfUnit e h) [74 + 2 * e + h] := by
  unfold State.pwrHalf
  dsimp only
  rw [down, lit]
  rfl

theorem State.towPortPower_on {c : TowCmd} (id : Nat) (s : State) (up : bit c.param 0 = true) :
    s.towPortPower id c = s.workOn (some id) c.target.toNat (unitDoms c.target.toNat) false := by
  unfold State.towPortPower
  dsimp only
  rw [up]
  rfl

theorem State.towPortPower_already {c : TowCmd} (id : Nat) {s : State} (down : bit c.param 0 = false)
    (dark : (unitDoms c.target.toNat).all (fun d => !s.core.doms.getLsbD d) = true) : s.towPortPower id c = s.complete id 0 0 [] := by
  unfold State.towPortPower
  dsimp only
  rw [down, dark]
  rfl

theorem State.towPortPower_off {c : TowCmd} (id : Nat) {s : State} (down : bit c.param 0 = false)
    (lit : (unitDoms c.target.toNat).all (fun d => !s.core.doms.getLsbD d) = false) :
    s.towPortPower id c = s.portPower c.target.toNat false id := by
  unfold State.towPortPower
  dsimp only
  rw [down, lit]
  rfl

/-- Settles O38: each row's own run in the state in which it begins, by the branch that the statement names. -/
theorem powerCommands : Obligations.PowerCommands := by
  refine ⟨fun s c h => ⟨fun same => ?trimSame, fun other => ?trimOther⟩,
    fun s c h => ⟨fun on idle => ?idleEnter, fun same _ => ?idleOn, fun off idle => ?idleOff, fun off idle lit => ?idleLeave,
      fun off idle dark => ?idleHalves⟩,
    fun s c h => ?deep,
    fun s c h => ⟨fun stands => ?halfStands, fun up dark => ?halfOn, fun down lit => ?halfOff⟩,
    fun s c h => ?release,
    fun s c h => ⟨fun up => ?portOn, fun down dark => ?portDark, fun down lit => ?portOff⟩⟩
  case trimSame => exact State.does_towRow_to h (State.towPwrTrim_present _ same)
  case trimOther => exact State.does_towRow_to h (State.towPwrTrim_other _ other)
  case idleEnter => exact State.does_towRow_to h (State.pwrIdle_enters _ on idle)
  case idleOn => exact State.does_towRow_to h (State.pwrIdle_stands _ same.symm)
  case idleOff => exact State.does_towRow_to h (State.pwrIdle_stands _ (idle.trans off.symm))
  case idleLeave => exact State.does_towRow_to h (State.pwrIdle_leaves off idle _ lit)
  case idleHalves => exact State.does_towRow_to h (State.pwrIdle_switches off idle _ dark)
  case deep => exact State.does_towRow h
  case halfStands => exact State.does_towRow_to h (State.pwrHalf_stands _ stands)
  case halfOn => exact State.does_towRow_to h (State.pwrHalf_on _ up dark)
  case halfOff => exact State.does_towRow_to h (State.pwrHalf_off _ down lit)
  case release => exact State.does_towRow h
  case portOn => exact State.does_towRow_to h (State.towPortPower_on _ _ up)
  case portDark => exact State.does_towRow_to h (State.towPortPower_already _ down dark)
  case portOff => exact State.does_towRow_to h (State.towPortPower_off _ down lit)

end Sys2Proof.Machine
end

section
/-!
SUPPORT. The statement on what memory returns.
-/
namespace Sys2Proof.Machine

/-! A read returns (R584). -/

/-- What a read gives of the line that memory returned: bytes of partial writes that memory had not accepted lie over it (R208). -/
def MRead.seen (d : LineData) (r : MRead) : LineData :=
  match r.above with
  | some (v, k) => mergeLine d v k
  | none => d

/-- The engine once a read has freed its tag and its poison is reported. -/
def Core.readEnds (s : Core) (m tag : Nat) (r : MRead) (po : Bool) : Core :=
  let a : Core := { s with mem := { s.mem with reads := s.mem.reads.filter (fun q => !(q.port = m && q.tag = some tag)) } }
  if po then (a.bump (unitMem m) 0x124 1).raiseAt famMemPoison (unitMem m) r.line 0 else a

theorem Core.memReadReturn_unknown {m tag : Nat} {s : Core} (d : LineData) (po : Bool) (bad : BitVec 8)
    (h : s.mem.reads.find? (fun r => r.port = m && r.tag = some tag) = none) :
    s.memReadReturn m tag d po bad = s.raise famMemProto (unitMem m) := by
  unfold Core.memReadReturn
  rw [h]

theorem Core.memReadReturn_awaited {m tag : Nat} {s : Core} {r : MRead} (d : LineData) (po : Bool) (bad : BitVec 8)
    (h : s.mem.reads.find? (fun r => r.port = m && r.tag = some tag) = some r) :
    s.memReadReturn m tag d po bad = (((s.readEnds m tag r po).giveRead r.use (r.seen d) po bad).issueReads).issueWrites := by
  unfold Core.memReadReturn
  rw [h]
  rfl

/-! A write's acknowledgement returns (R262, R271). -/

/-- The engine once an acknowledgement's error is reported; the write still counts. -/
def Core.wrerr (s : Core) (m : Nat) (w : MWrite) (err : Bool) : Core := if err then s.raiseAt famMemWrerr (unitMem m) w.line 0 else s

@[simp] theorem Core.wrerr_persist (s : Core) (m : Nat) (w : MWrite) (err : Bool) : (s.wrerr m w err).persist m = s.persist m := by
  unfold Core.wrerr Core.persist Core.reg
  split
  · exact congrArg (fun l => bit (mget _ l _) 1) (Core.raiseEv_regs _ s)
  · rfl

/-- The engine with one write changed on its table. -/
def Core.onWrite (id : Nat) (f : MWrite → MWrite) (s : Core) : Core :=
  { s with mem := { s.mem with writes := updateWhere (fun v => v.id = id) f s.mem.writes } }

theorem Core.memWackReturn_unknown {m tag : Nat} {s : Core} (err : Bool)
    (h : s.mem.writes.find? (fun w => w.port = m && w.tag = some tag && !w.wack) = none) :
    s.memWackReturn m tag err = s.raise famMemProto (unitMem m) := by
  unfold Core.memWackReturn
  rw [h]

section Acknowledged
variable {m tag : Nat} {s : Core} {w : MWrite} (err : Bool) (h : s.mem.writes.find? (fun w => w.port = m && w.tag = some tag && !w.wack) = some w)
include h

/-- An acknowledgement by its port's PERSIST and by whether the write is a drain's. -/
theorem Core.memWackReturn_known : s.memWackReturn m tag err =
    if s.persist m then
      if w.drain then (((s.wrerr m w err).onWrite w.id (fun v => { v with
        wack := true, src := .drained, posted := false, frees := none, waiter := none })).task (.place w)).task (.written w)
      else (s.wrerr m w err).onWrite w.id (fun v => { v with wack := true })
    else (s.wrerr m w err).acceptWrite w := by
  rw [← Core.wrerr_persist s m w err]
  unfold Core.memWackReturn
  rw [h]
  dsimp only
  cases w.drain <;> rfl

theorem Core.memWackReturn_accepts (pers : s.persist m = false) : s.memWackReturn m tag err = (s.wrerr m w err).acceptWrite w := by
  rw [Core.memWackReturn_known err h, if_neg (by simp [pers])]

theorem Core.memWackReturn_marks (pers : s.persist m = true) (own : w.drain = false) :
    s.memWackReturn m tag err = (s.wrerr m w err).onWrite w.id (fun v => { v with wack := true }) := by
  rw [Core.memWackReturn_known err h, if_pos pers, if_neg (by simp [own])]

theorem Core.memWackReturn_drained (pers : s.persist m = true) (drain : w.drain = true) :
    s.memWackReturn m tag err = (((s.wrerr m w err).onWrite w.id (fun v => { v with
      wack := true, src := .drained, posted := false, frees := none, waiter := none })).task (.place w)).task (.written w) := by
  rw [Core.memWackReturn_known err h, if_pos pers, if_pos drain]

end Acknowledged

/-! A persistence acknowledgement returns (R262). -/

theorem Core.memPackReturn_unawaited {m tag : Nat} {s : Core}
    (h : s.mem.writes.find? (fun w => w.port = m && w.tag = some tag) = none ∨ s.persist m = false) :
    s.memPackReturn m tag = s.raise famMemProto (unitMem m) := by
  unfold Core.memPackReturn
  split
  · rfl
  · next found =>
    rw [if_neg (by simpa using h.resolve_left (by simp [found]))]

theorem Core.memPackReturn_accepts {m tag : Nat} {s : Core} {w : MWrite}
    (h : s.mem.writes.find? (fun w => w.port = m && w.tag = some tag) = some w) (pers : s.persist m = true) :
    s.memPackReturn m tag = s.acceptWrite w := by
  unfold Core.memPackReturn
  rw [h]
  exact if_pos pers

/-- Settles O51: each return by whether its tag is outstanding, an acknowledgement then by PERSIST and by whether the write is a drain's. -/
theorem memoryReturns : Obligations.MemoryReturns := by
  refine fun s m tag able => ⟨fun d po bad => ⟨fun unknown => ?readUnknown, fun r awaited => ?read⟩,
    fun err => ⟨fun unknown => ?wackUnknown, fun w known => ⟨fun pers => ?accepts, fun pers own => ?marks, fun pers drain => ?drained⟩⟩,
    fun unawaited => ?packUnawaited, fun w known pers => ?packAccepts⟩
  case readUnknown => exact State.doesOn_core able (Core.memReadReturn_unknown d po bad unknown)
  case read => exact State.doesOn_core able (Core.memReadReturn_awaited d po bad awaited)
  case wackUnknown => exact State.doesOn_core able (Core.memWackReturn_unknown err unknown)
  case accepts => exact State.doesOn_core able (Core.memWackReturn_accepts err known pers)
  case marks => exact State.doesOn_core able (Core.memWackReturn_marks err known pers own)
  case drained => exact State.doesOn_core able (Core.memWackReturn_drained err known pers drain)
  case packUnawaited => exact State.doesOn_core able (Core.memPackReturn_unawaited unawaited)
  case packAccepts => exact State.doesOn_core able (Core.memPackReturn_accepts known pers)

end Sys2Proof.Machine
end

section
/-!
SUPPORT. The statement on the events of power, leave to draw, clocks, the wake watcher and the test wrapper.
-/
namespace Sys2Proof.Machine

/-! Outcomes, and the commands that act only while the main domains have power. -/

/-- A command that acts whatever power the block has, by an equation for what it does. -/
theorem State.does_next_to {s t : State} {f : State → State} (h : s.tow.waiting = []) (e : f s = t) :
    s.does f = .next (State.finish s t) := e ▸ State.does_next f h

/-- A command that acts while the main domains have power, by an equation for what it does. -/
theorem State.doesOn_next_to {s t : State} {f : State → State} (h : s.Able) (e : f s = t) :
    s.doesOn f = .next (State.finish s t) := e ▸ State.doesOn_next f h

/-- Among them timers and pins of every unit, each with what it does. -/
def suppliedRows : List (Instr × (State → State)) :=
  [(.stampSweep, State.onCore Core.sweep), (.scrubBurst, State.scrubAsk), (.ageTick, State.ageTick), (.counterMcUpdate, State.cntUpdate),
    (.traceRecordWrite, State.traceWrite), (.logbookSpill, State.logSpillRun), (.dumpPeriodExpiry, State.dumpPeriod),
    (.logEntryWrite, State.onCore Core.logWrite), (.commitReportTimeout, State.commitReportLimit), (.commitGoTimeout, State.commitGoLimit),
    (.helloResend, State.helloResend), (.discoverQuietEnd, State.discQuiet), (.discoverLimit, State.discLimit),
    (.quietPeriodEnd, State.onCore Core.quietEnd), (.thawWaitTimeout, State.onCore Core.thawWait), (.freezeLate, State.onCore Core.freezeLate),
    (.drainLateTimer, State.onCore Core.pfLate), (.pwrLeaveGnt false, State.leaveGnt false), (.pwrLeaveGnt true, State.leaveGnt true),
    (.leaveWaitTimeout, State.leaveLate), (.gntStuckTimeout, State.gntStuck), (.pwrLeaveGntFall false, State.gntFall false),
    (.pwrLeaveGntFall true, State.gntFall true), (.wrapperReset, State.wrapperReset)]

theorem exec_supplied : ∀ e ∈ suppliedRows, exec e.1 = State.doesOn e.2 := List.map_inj_left.mp rfl

theorem exec_supplied_off {s : State} (off : s.powered = false) : ∀ i ∈ suppliedRows.map Prod.fst, exec i s = .next s :=
  List.forall_mem_map.mpr fun e mem => (congrFun (exec_supplied e mem) s).trans (State.doesOn_off _ off)

/-! What leaves a power-fail hold, and the block's state, as they were (R271). -/

/-- The block's state with HOLD, SEEN and the level of PWR_FAIL_N. -/
def Core.holdView (s : Core) : BlockSt × Bool × Bool × Bool := (s.block, s.pf.hold, s.pf.seen, s.pf.failHigh)

theorem Core.holdView_eq {s t : Core} (h : s.holdView = t.holdView) :
    s.block = t.block ∧ s.pf.hold = t.pf.hold ∧ s.pf.seen = t.pf.seen ∧ s.pf.failHigh = t.pf.failHigh := by
  simpa only [Core.holdView, Prod.mk.injEq] using h

@[simp] theorem Core.holdView_foldS {α : Type} {f : α → Core → Core} (h : ∀ a k, (f a k).holdView = k.holdView) (l : List α) (s : Core) :
    (foldS f l s).holdView = s.holdView := foldS_view h l s

@[simp] theorem Core.holdView_writeNow (w : MWrite) (s : Core) : (s.writeNow w).2.holdView = s.holdView := by
  unfold Core.writeNow
  split
  · split
    · split <;> rfl
    · rfl
  · rfl

@[simp] theorem Core.holdView_issueWrite (id : Nat) (s : Core) : (s.issueWrite id).holdView = s.holdView := by
  unfold Core.issueWrite
  split
  · rfl
  · split
    · rfl
    · split
      · rfl
      · split
        · rfl
        · exact s.holdView_writeNow _

@[simp] theorem Core.holdView_issueWrites (s : Core) : s.issueWrites.holdView = s.holdView :=
  foldS_view (fun (w : MWrite) => Core.holdView_issueWrite w.id) s.issueOrder s

@[simp] theorem Core.holdView_queueWrite (line : LineAddr) (data : LineData) (mask : LineMask) (poison : Bool) (src : WSrc) (stamp : Stamp)
    (posted : Bool) (frees : Option Nat) (waiter : Option (Nat × Nat)) (ep : Option Nat) (s : Core) :
    (s.queueWrite line data mask poison src stamp posted frees waiter ep).2.holdView = s.holdView := by
  unfold Core.queueWrite Core.fresh
  dsimp only
  split
  · rfl
  · cases ep with
    | none => exact Core.holdView_issueWrite _ _
    | some e => rfl

@[simp] theorem Core.holdView_sklWrite (p i : Nat) (waiter : Option (Nat × Nat)) (s : Core) : (s.sklWrite p i waiter).holdView = s.holdView := by
  unfold Core.sklWrite
  split
  · exact s.holdView_queueWrite _ _ _ _ _ _ _ _ _ _
  · rfl

@[simp] theorem Core.holdView_drainAcked (ids : List Nat) (s : Core) : (s.drainAcked ids).holdView = s.holdView := by
  unfold Core.drainAcked
  refine Core.holdView_foldS (fun w k => ?_) _ s
  rfl

@[simp] theorem Core.holdView_restStart (m : Nat) (s : Core) : (s.restStart m).holdView = s.holdView := by
  unfold Core.restStart
  exact foldS_view (view := fun (a : List Nat × Core) => a.2.holdView) (fun _ _ => Core.holdView_queueWrite _ _ _ _ _ _ _ _ _ _ _) _ (_, s)

@[simp] theorem Core.holdView_drainEnd (s : Core) : s.drainEnd.holdView = s.holdView := by
  unfold Core.drainEnd
  split
  · rfl
  · split <;> rfl

/-- Fixing the drain set and starting the drain: each of its steps leaves the view. -/
@[simp] theorem Core.holdView_drainStart (forSeal : Bool) (s : Core) : (s.drainStart forSeal).holdView = s.holdView := by
  have marked (ids : List Nat) (k : Core) : (k.drainMark ids).holdView = k.holdView := rfl
  have counted (left : List Nat) (n b : Nat) (k : Core) :
      (k.onPf (fun f => { f with left := left, rest := [], lines := n, began := b, forSeal := forSeal })).holdView = k.holdView := rfl
  simp only [Core.drainStart, apply_ite Core.holdView, Core.holdView_drainEnd, Core.holdView_issueWrites, Core.holdView_restStart,
    Core.holdView_drainAcked, Core.holdView_sklWrite, Core.holdView_foldS, marked, counted, ite_self, implies_true]

/-- A powered block seals, whatever its drain then does (R400). -/
theorem Core.sealBlock_block {s : Core} (off : s.block ≠ .off) (pilot : s.block ≠ .pilot) : s.sealBlock.block = .sealed_ := by
  unfold Core.sealBlock
  split
  · next h => simpa [off, pilot] using h
  · dsimp only
    split
    · split <;> rfl
    · exact (Core.holdView_eq (Core.holdView_drainStart true _)).1

/-! Recognition of a power failure (R270). -/

theorem Core.pfRecognise_passes {s : Core} (h : s.block = .off ∨ s.block = .pilot ∨ s.pf.hold = true) :
    s.pfRecognise = { s with pf := { s.pf with failHigh := false } } := by
  unfold Core.pfRecognise
  rw [if_pos (by simpa [or_assoc] using h)]

theorem Core.pfRecognise_holds {s : Core} (off : s.block ≠ .off) (pilot : s.block ≠ .pilot) (new : s.pf.hold = false) :
    s.pfRecognise.pf.hold = true ∧ s.pfRecognise.pf.seen = true ∧ s.pfRecognise.pf.failHigh = false := by
  have view : s.pfRecognise.holdView = (s.block, true, true, false) := by
    unfold Core.pfRecognise
    rw [if_neg (by simp [off, pilot, new])]
    simp only [apply_ite Core.holdView, Core.holdView_drainEnd, Core.holdView_drainStart, ite_self]
    rfl
  simpa only [Core.holdView, Prod.mk.injEq] using congrArg Prod.snd view

/-- The same of a whole state: a pair that abandons PROOF, and the reply that its command then gets, leave it. -/
def State.holdView (s : State) : BlockSt × Bool × Bool × Bool := s.core.holdView

theorem State.holdView_emits {α : Type} (x : α → Out) (l : List α) (s : State) :
    (s.onCore (foldS (fun a => Core.emit (x a)) l)).holdView = s.holdView := by
  refine Core.holdView_foldS (fun a k => ?_) l s.core
  rfl

theorem State.holdView_sendReply (v : Via) (r : Reply) (s : State) : (s.sendReply v r).holdView = s.holdView := by
  cases v with
  | stream => exact State.holdView_emits (fun w => .reply 0 [w]) _ _
  | window w => rfl
  | wire =>
    unfold State.sendReply State.wireReady
    dsimp only
    split
    · exact State.holdView_emits (fun i => .twoWire _) _ _
    · rfl

@[simp] theorem State.holdView_complete (id : Nat) (status : BitVec 8) (result : Word) (payload : List Word) (s : State) :
    (s.complete id status result payload).holdView = s.holdView := by
  have noted {c : Prop} [Decidable c] (t : State) (v : Via) (q : Prev) : (if c then t.setPrev v q else t).holdView = t.holdView := by
    split <;> rfl
  unfold State.complete
  split
  · rfl
  · next r found =>
    dsimp only
    split
    · exact (State.holdView_sendReply _ _ _).trans (noted _ _ _)
    · split
      · exact noted _ _ _
      · cases r.via with
        | stream => exact (State.holdView_sendReply _ _ _).trans (noted _ _ _)
        | window w => exact noted _ _ _
        | wire => exact noted _ _ _

@[simp] theorem State.holdView_completeOpt (c : Option Nat) (status : BitVec 8) (result : Word) (s : State) :
    (s.completeOpt c status result).holdView = s.holdView := by
  cases c with
  | none => rfl
  | some id => exact State.holdView_complete _ _ _ _ s

theorem State.holdView_galAbandon (p : Nat) (s : State) : (s.galAbandon p).holdView = s.holdView := by
  unfold State.galAbandon
  refine (foldS_view (view := State.holdView) (fun w t => ?_) _ _).trans rfl
  cases w with
  | cut c => exact State.holdView_complete _ _ _ _ t
  | proofEnd b c => exact State.holdView_completeOpt _ _ _ t

@[simp] theorem State.marker_core (code arg : Nat) (s : State) : (s.marker code arg).core = s.core := by
  unfold State.marker
  split <;> rfl

theorem State.powerFail_passes {s : State} (h : s.core.block = .off ∨ s.core.block = .pilot ∨ s.core.pf.hold = true) :
    s.powerFail = s.onCore (fun k => { k with pf := { k.pf with failHigh := false } }) := by
  unfold State.powerFail
  have passes : s.onCore Core.pfRecognise = s.onCore (fun k => { k with pf := { k.pf with failHigh := false } }) :=
    congrArg (fun k => { s with core := k }) (Core.pfRecognise_passes h)
  dsimp only
  rw [passes]
  exact if_pos (Bool.or_not_self s.core.pf.hold)

/-- What follows the recognition leaves the hold. -/
theorem State.powerFail_holds {s : State} (off : s.core.block ≠ .off) (pilot : s.core.block ≠ .pilot) (new : s.core.pf.hold = false) :
    s.powerFail.core.pf.hold = true ∧ s.powerFail.core.pf.seen = true ∧ s.powerFail.core.pf.failHigh = false := by
  have holds := Core.pfRecognise_holds off pilot new
  have rest : s.powerFail.holdView = s.core.pfRecognise.holdView := by
    unfold State.powerFail
    dsimp only
    rw [if_neg (by simp [new, holds])]
    unfold State.holdView
    rw [State.marker_core]
    refine (foldS_view (view := State.holdView) (fun p t => ?_) _ _).trans rfl
    split
    · exact t.holdView_galAbandon p
    · rfl
  obtain ⟨_, hold, seen, high⟩ := Core.holdView_eq rest
  rw [hold, seen, high]
  exact holds

theorem State.pfLate_eq (s : State) : s.onCore Core.pfLate = if s.core.pf.hold && !s.core.pf.left.isEmpty then
    { s with core := { s.core with pf := { s.core.pf with drainLate := true } } } else s := by
  unfold State.onCore Core.pfLate
  split <;> rfl

/-! PWR_GOOD and the always-on supply (R416). -/

theorem State.goodRise_enters {s : State} (pilot : s.core.block = .pilot) (low : s.pwr.good = false) :
    s.goodRise = ({ s with pwr := { s.pwr with good := true, cause := 1 } }).enterInit := by
  unfold State.goodRise
  dsimp only
  rw [if_pos (by simp [pilot, low])]
  rfl

theorem State.goodRise_stays {s : State} (h : s.core.block ≠ .pilot ∨ s.pwr.good = true) :
    s.goodRise = s.onPwr (fun p => { p with good := true }) := by
  unfold State.goodRise
  dsimp only
  rw [if_neg (by rcases h with e | e <;> simp [e])]

theorem State.goodFall_powered {s : State} (h : s.powered = true) :
    s.goodFall = (s.onPwr (fun p => { p with good := false, goodLost := true })).blockReset .pilot := if_pos h

theorem State.goodFall_unpowered {s : State} (h : s.powered = false) : s.goodFall = s.onPwr (fun p => { p with good := false }) :=
  if_neg (Bool.eq_false_iff.mp h)

/-- What a request for leave leaves as it was: the engine, the strap of the address and the wake cause. -/
def State.wakeView (s : State) : Core × BitVec 7 × Nat := (s.core, s.pwr.strapAddr, s.pwr.cause)

theorem State.wakeView_leavePump (s : State) : s.leavePump.wakeView = s.wakeView := by
  unfold State.leavePump
  dsimp only
  split
  · rfl
  · split
    · rfl
    · split <;> rfl

theorem State.wakeView_leaveWithdraw (s : State) : s.leaveWithdraw.wakeView = s.wakeView := by
  unfold State.leaveWithdraw
  split <;> rfl

theorem State.wakeView_leaveAsk (l : Leave) (s : State) : (s.leaveAsk l).wakeView = s.wakeView := by
  have withdrawn {c : Prop} [Decidable c] (t : State) : (if c then t.leaveWithdraw else t).wakeView = t.wakeView := by
    split
    · exact t.wakeView_leaveWithdraw
    · rfl
  exact (State.wakeView_leavePump _).trans (withdrawn _)

theorem State.enterInit_enters (s : State) :
    s.enterInit.core.block = .init ∧ s.enterInit.pwr.strapAddr = s.pwr.strapAddr ∧ s.enterInit.pwr.cause = s.pwr.cause := by
  have view : s.enterInit.wakeView = _ := State.wakeView_leaveAsk _ _
  obtain ⟨core, addr, cause⟩ : s.enterInit.core = _ ∧ s.enterInit.pwr.strapAddr = _ ∧ s.enterInit.pwr.cause = _ := by
    simpa only [State.wakeView, Prod.mk.injEq] using view
  exact ⟨congrArg Core.block core, addr, cause⟩

theorem State.supplyOn_on {s : State} (st : Straps) (good : Bool) (h : s.core.block ≠ .off) : s.supplyOn st good = s :=
  if_pos (by simpa using h)

/-- PILOT once the always-on supply is in regulation, with the straps sampled. -/
def State.supplied (st : Straps) (good : Bool) (s : State) : State :=
  let k := s.onCore (fun c => { c with regs := [], pf := { PowerFail.reset with failHigh := c.pf.failHigh } })
  let p := k.onPwr (fun p => { p with
    fired := 0, cause := 0, deep := false, goodLost := false, good := good, strapAddr := st.addr, strapLeader := st.leader, strapTest := st.test })
  (p.onTow (fun t => { t with wire := some [], wireRead := none })).blockReset .pilot

theorem State.supplyOn_off {s : State} (st : Straps) (good : Bool) (h : s.core.block = .off) : s.supplyOn st good =
    if good then ((s.supplied st true).onPwr (fun p => { p with cause := 1 })).enterInit else s.supplied st false := by
  unfold State.supplyOn
  rw [if_neg (by simp [h])]
  cases good <;> rfl

/-! Domains (R482, R499). -/

theorem State.workPump_idle {s : State} (h : s.pwr.work = []) : s.workPump = s := by
  unfold State.workPump
  simp only [h, List.filter_nil, List.append_nil, List.flatMap_eq_nil_iff.mpr fun _ _ => rfl]
  rfl

theorem State.domainOn_still {d : Nat} {s : State} (h : s.pwr.ramp.getLsbD d = false) : s.domainOn d = s := if_pos (by simp [h])

section Alone
variable {d : Nat} {s : State} (idle : s.pwr.work = [])
include idle

/-- With no switching under way nothing else follows a domain's change. -/
theorem State.work_none {f : Switching → Bool} {w : Switching} : ¬ s.pwr.work.find? f = some w := by simp [idle]

/-- A port's or a later domain comes on. -/
theorem State.domainOn_last (ramps : s.pwr.ramp.getLsbD d = true) (port : 54 ≤ d) (last : s.core.block ≠ .init ∨ initNext d = none) :
    s.domainOn d = { s with
      pwr := { s.pwr with ramp := clearBit s.pwr.ramp d }
      core := { s.core with doms := setBit s.core.doms d } } := by
  unfold State.domainOn
  rw [if_neg (by simp [ramps])]
  dsimp only
  rw [if_neg (show ¬ d < 54 by omega)]
  rcases last with stop | stop
  all_goals
    simp only [State.onCore_core, State.onPwr_core, stop, if_false, ite_self]
    split
    · exact State.workPump_idle idle
    · next w found => exact absurd found (State.work_none idle)

/-- In INIT the next domain of the grant then ramps. -/
theorem State.domainOn_next {e : Nat} (ramps : s.pwr.ramp.getLsbD d = true) (port : 54 ≤ d) (init : s.core.block = .init)
    (next : initNext d = some e) : s.domainOn d = { s with
      pwr := { s.pwr with ramp := setBit (clearBit s.pwr.ramp d) e }
      core := { s.core with doms := setBit s.core.doms d } } := by
  unfold State.domainOn
  rw [if_neg (by simp [ramps])]
  dsimp only
  rw [if_neg (show ¬ d < 54 by omega)]
  simp only [State.onCore_core, State.onPwr_core, if_pos init, next]
  split
  · exact State.workPump_idle idle
  · next w found => exact absurd found (State.work_none idle)

theorem State.domainOff_alone (falls : s.pwr.falling.getLsbD d = true) :
    s.domainOff d = { s with pwr := { s.pwr with falling := clearBit s.pwr.falling d } } := by
  unfold State.domainOff
  rw [if_neg (by simp [falls])]
  dsimp only
  split
  · exact State.workPump_idle idle
  · next w found => exact absurd found (State.work_none idle)

end Alone

theorem State.domainOff_still {d : Nat} {s : State} (h : s.pwr.falling.getLsbD d = false) : s.domainOff d = s := if_pos (by simp [h])

/-! Wake slots (R468): with domain 78 off the watcher sees its own inputs alone, and those while its clock runs. -/

section Slot
variable {k : Nat} {s : State} {w : Word} (reads : s.reg (0x30400 + k * 8) = w)
include reads

theorem State.wakeFire_passes (h : s.core.block = .off ∨ bit w 0 = false ∨ irqReserved (bits w 15 8) = true ∨ irqSoft (bits w 15 8) = true ∨
    (s.core.doms.getLsbD 78 = false ∧ (bits w 15 8 < 112 ∨ 128 ≤ bits w 15 8 ∨ s.pwr.absent.getLsbD 36 = true))) : s.wakeFire k = s := by
  unfold State.wakeFire
  rw [reads]
  refine if_pos ?_
  rcases h with e | e | e | e | ⟨dark, e | e | e⟩
  · simp [e]
  · simp [e]
  · simp [e]
  · simp [e]
  · simp [-BitVec.getLsbD_eq_getElem, dark, Nat.not_le.mpr e]
  · simp [-BitVec.getLsbD_eq_getElem, dark, Nat.not_lt.mpr e]
  · simp [-BitVec.getLsbD_eq_getElem, dark, e]

theorem State.wakeFire_fires (off : s.core.block ≠ .off) (on : bit w 0 = true) (used : irqReserved (bits w 15 8) = false)
    (hard : irqSoft (bits w 15 8) = false)
    (sees : s.core.doms.getLsbD 78 = true ∨ (112 ≤ bits w 15 8 ∧ bits w 15 8 < 128 ∧ s.pwr.absent.getLsbD 36 = false)) :
    let t : State := s.onPwr (fun p => { p with fired := setBit p.fired k, gated := 0, wharfGated := false })
    s.wakeFire k = if s.core.block = .pilot ∧ s.pwr.good = true then (t.onPwr (fun p => { p with cause := 2 })).enterInit else t := by
  unfold State.wakeFire
  rw [reads]
  dsimp only
  rw [if_neg]
  · exact if_congr (Bool.and_eq_true_iff.trans (and_congr_left' decide_eq_true_iff)) rfl rfl
  · rcases sees with e | ⟨low, high, clock⟩
    · simp [off, on, used, hard, e]
    · simp [-BitVec.getLsbD_eq_getElem, off, on, used, hard, low, high, clock]

end Slot

/-! The self-test (R499, R500). -/

theorem Core.logEvent_halves (e : FltEvent) (s : Core) : (s.logEvent e).flt.halves = s.flt.halves := by
  unfold Core.logEvent
  dsimp only
  split
  · rfl
  · split
    · rfl
    · split
      · rfl
      · cases dataGiven e.src <;> rfl

theorem Core.raiseEv_halves (e : FltEvent) (s : Core) : (s.raiseEv e).flt.halves = s.flt.halves := by
  unfold Core.raiseEv
  split
  · exact Core.logEvent_halves e s
  · rfl

theorem Core.raiseEv_power (e : FltEvent) (s : Core) : (s.raiseEv e).block = s.block ∧ (s.raiseEv e).doms = s.doms := by
  obtain ⟨f, n, h⟩ := Core.raiseEv_eq e s
  rw [h]
  exact ⟨rfl, rfl⟩

/-- A half that fails beside one in service is out of service, and the block goes on (R54). -/
theorem Core.halfFails_beside {element half : Nat} {s : Core} (on : s.halfOn element half = true)
    (powered : s.doms.getLsbD (74 + 2 * element + (1 - half)) = true)
    (sound : (setBit s.flt.halves (2 * element + half)).getLsbD (2 * element + (1 - half)) = false) :
    (s.halfFails element half).block = s.block ∧ (s.halfFails element half).doms = s.doms ∧
      (s.halfFails element half).flt.halves = setBit s.flt.halves (2 * element + half) := by
  let t : Core := { s with flt := { s.flt with halves := setBit s.flt.halves (2 * element + half) } }
  let e : FltEvent := FltEvent.plain (32 * (if element = 0 then famBerthUe else famWharfUe) + half)
  obtain ⟨block, doms⟩ := Core.raiseEv_power e t
  have halves := Core.raiseEv_halves e t
  have goes : s.halfFails element half = t.raiseEv e := by
    have still : (t.raiseEv e).halfOn element (1 - half) = true := by
      unfold Core.halfOn
      rw [doms, halves]
      exact Bool.and_eq_true_iff.mpr ⟨powered, by rw [sound]; rfl⟩
    unfold Core.halfFails
    rw [if_neg (by simp [on])]
    exact if_pos still
  rw [goes]
  exact ⟨block, doms, halves⟩

/-- What the self-test reports (R499). -/
def State.reported (r : SelfTest) (s : State) : State :=
  let b (v : Bool) : Nat := if v then 1 else 0
  let w := at' r.lkOk.toNat 0 ||| at' (b r.voterOk) 3 ||| at' (b r.berthA) 4 ||| at' (b r.berthB) 5 ||| at' (b r.wharfA) 6 |||
    at' (b r.wharfB) 7 ||| at' r.repaired.toNat 16 ||| at' r.timeUs.toNat 32
  (s.onStart (fun x => { x with initStat := w })).onCore (Core.emit (.cmdCredit 64))

/-- INIT ends in STANDBY (R416). -/
def State.standsBy (s : State) : State := s.onCore (fun c => { c with block := .standby })

/-- What follows INIT: slots that fired are handed on, and the Logbook marks the wake. -/
def State.awake (s : State) : State := s.irqWake.marker 0x08 (s.pwr.cause + s.pwr.fired.toNat * 2 ^ 16)

@[simp] theorem State.awake_core (s : State) : s.awake.core = s.core := State.marker_core _ _ _

@[simp] theorem State.awake_start (s : State) : s.awake.start = s.start := by
  unfold State.awake State.marker
  split <;> rfl

theorem State.selftest_passes {s : State} (r : SelfTest)
    (h : s.core.block ≠ .init ∨ [74, 75, 76, 77, 78].all (fun d => s.core.doms.getLsbD d) = false) : s.selftest r = s := by
  unfold State.selftest
  refine if_pos ?_
  rcases h with e | e
  · simp [e]
  · rw [e]; simp

section Tested
variable {s : State} {r : SelfTest} (init : s.core.block = .init) (on : [74, 75, 76, 77, 78].all (fun d => s.core.doms.getLsbD d) = true)
include init on

/-- Without a working voter the block seals. -/
theorem State.selftest_seals (voter : r.voterOk = false) : s.selftest r = (s.reported r).onCore Core.sealBlock := by
  unfold State.selftest
  rw [if_neg (by rw [init, on]; decide)]
  dsimp only
  exact if_pos (by simp [voter])

theorem State.selftest_standby (lk : r.lkOk = 7) (voter : r.voterOk = true) (berthB : r.berthB = true) (wharfA : r.wharfA = true)
    (wharfB : r.wharfB = true) : s.selftest r = ((s.reported r).standsBy.onCore (if r.berthA then id else Core.halfFails 0 0)).awake := by
  have bad : (List.range 3).filter (fun k => !r.lkOk.getLsbD k) = [] := by rw [lk]; decide
  unfold State.selftest State.reported
  rw [if_neg (by rw [init, on]; decide)]
  dsimp only
  rw [bad, if_neg (by simp [voter, berthB, wharfA]), berthB, wharfA, wharfB]
  cases r.berthA <;> rfl

end Tested

/-- With half A of the berth array alone at fault the block stands by, half A out of service (R54, R500). -/
theorem State.selftest_half {s : State} {r : SelfTest} (on : [74, 75, 76, 77, 78].all (fun d => s.core.doms.getLsbD d) = true)
    (whole : s.core.flt.halves = 0) : let t := ((s.reported r).standsBy.onCore (Core.halfFails 0 0)).awake
    t.core.block = .standby ∧ t.core.doms = s.core.doms ∧ t.core.flt.halves = 1 := by
  let k : Core := (s.reported r).standsBy.core
  have halves : k.flt.halves = 0 := whole
  have first : k.doms.getLsbD 74 = true := List.all_eq_true.mp on 74 (by decide)
  have second : k.doms.getLsbD 75 = true := List.all_eq_true.mp on 75 (by decide)
  obtain ⟨block, doms, out⟩ := Core.halfFails_beside (s := k) (element := 0) (half := 0)
    (by unfold Core.halfOn; rw [halves, first]; decide) second (by rw [halves]; decide)
  rw [halves] at out
  dsimp only
  rw [State.awake_core]
  exact ⟨block, doms, out⟩

/-! Leave to draw (R484, R486). -/

theorem State.leaveGnt_high {s : State} (raced : Bool) (h : s.pwr.gnt = true) : s.leaveGnt raced = s := if_pos h

/-- The grant of a request: counted, its wait noted, and REQ falls. -/
def State.granted (s : State) : State := s.onPwr (fun p => { p with
  gnt := true
  shown := none
  req := false
  withdrawnAt := none
  grantedAt := some s.core.tb
  lastWait := Nat.min 0xFFFF ((s.core.tb - p.raisedAt) / 100)
  count := Nat.min 255 (p.count + 1) })

theorem State.leaveGnt_alone {s : State} (raced : Bool) (low : s.pwr.gnt = false) (h : s.pwr.shown = none) :
    s.leaveGnt raced = s.onPwr (fun p => { p with gnt := true, grantedAt := none, withdrawnAt := none }) := by
  have withdrawn {c : Prop} [Decidable c] : (if c then s.leaveWithdraw else s) = s := by
    unfold State.leaveWithdraw
    rw [h, ite_self]
  unfold State.leaveGnt
  rw [if_neg (by simp [low]), withdrawn]
  dsimp only
  rw [h]

theorem State.leaveGnt_grants {s : State} {raced : Bool} {r : Leave} (low : s.pwr.gnt = false) (h : s.pwr.shown = some r)
    (meets : raced = false ∨ s.pwr.withdrawnAt ≠ some s.core.tb) : s.leaveGnt raced = foldS State.leaveStep r.steps s.granted := by
  unfold State.leaveGnt
  rw [if_neg (by simp [low]), if_neg (by rcases meets with e | e <;> simp [e])]
  dsimp only
  rw [h]
  rfl

theorem State.leaveGnt_races {s : State} {raced : Bool} {r : Leave} (low : s.pwr.gnt = false) (h : s.pwr.shown = some r)
    (race : raced = true) (now : s.pwr.withdrawnAt = some s.core.tb) : s.leaveGnt raced =
      s.onPwr (fun p => { p with gnt := true, shown := none, req := false, queue := r :: p.queue, withdrawnAt := none, grantedAt := none }) := by
  unfold State.leaveGnt State.leaveWithdraw
  rw [if_neg (by simp [low]), if_pos (by simp [race, now])]
  dsimp only
  rw [h]
  rfl

/-! Clocks and Idle (R474, R492). -/

theorem State.gateClose_awake {s : State} (g : Option (Fin 18)) (h : s.pwr.idle = false) : s.gateClose g = s := if_pos (by simp [h])

theorem State.gateClose_wharf {s : State} (idle : s.pwr.idle = true) (quiet : s.wharfQuiet = true) (runs : s.pwr.wharfGated = false) :
    s.gateClose none = (s.onPwr (fun p => { p with wharfGated := true })).onCore (Core.bump 32 0x204 1) := by
  unfold State.gateClose
  rw [if_neg (by simp [idle])]
  exact if_pos (by simp [quiet, runs])

theorem State.gateClose_slice {s : State} {g : Fin 18} (idle : s.pwr.idle = true) (may : s.mayGate g = true) (quiet : s.sliceQuiet g = true)
    (runs : s.pwr.gated.getLsbD g = false) :
    s.gateClose (some g) = (s.onPwr (fun p => { p with gated := setBit p.gated g })).onCore (Core.bump g 0x041 1) := by
  unfold State.gateClose
  rw [if_neg (by simp [idle])]
  exact if_pos (by simp [-BitVec.getLsbD_eq_getElem, may, quiet, runs])

theorem State.clockAbsent_passes {d : Nat} {s : State} (h : s.pwr.absent.getLsbD d = true ∨ s.clockRuns d = false) : s.clockAbsent d = s :=
  if_pos (by rcases h with e | e <;> simp [e])

theorem State.clockAbsent_slice {d : Nat} {s : State} (new : s.pwr.absent.getLsbD d = false) (runs : s.clockRuns d = true) (slice : d < 18) :
    s.clockAbsent d = (s.onPwr (fun p => { p with absent := setBit p.absent d })).raise famClkFail d := by
  unfold State.clockAbsent
  rw [if_neg (by simp [new, runs])]
  exact if_pos slice

/-! The test wrapper (R590). -/

theorem State.wrapper_intrusive {ir : BitVec 5} (s : State) (h : wirIntrusive (wirActs ir) = true) : s.wrapper ir =
    if s.pwr.strapTest = true ∧ s.core.block = .standby ∧ (List.range 6).all (fun n => decide ((s.cport n).st.code ≤ 1)) = true ∧
      s.core.host.present = 0 then s.onPwr (fun p => { p with wir := wirActs ir }) else s.wrapperReset := by
  unfold State.wrapper
  dsimp only
  rw [if_pos h]
  exact if_congr (by simp only [Bool.and_eq_true, decide_eq_true_eq, and_assoc]) rfl rfl

theorem State.wrapper_other {ir : BitVec 5} (s : State) (h : wirIntrusive (wirActs ir) = false) : s.wrapper ir =
    if wirIntrusive s.pwr.wir then s.testReset else s.onPwr (fun p => { p with wir := wirActs ir }) := if_neg (by simp [h])

/-- Settles O59: each event by the branches of its own operation, with what a drain leaves of a hold and of a seal, and what a request for leave
leaves of an entry to INIT. -/
theorem powerEvents : Obligations.PowerEvents := by
  refine ⟨fun s off => exec_supplied_off off, fun s w => ?always, fun s able => ?supplied⟩
  case always =>
    refine ⟨State.does_next _ w, fun passes => ?failPasses, fun off pilot new => ?failHolds, fun on => ?late,
      ⟨fun pilot low => ?goodEnters, fun stays => ?goodStays⟩, fun on => ?fall, fun on => ?fallOff,
      fun st => ⟨fun on good => ?supplyStands, fun off => ⟨?supplyPilot, ?supplyInit⟩⟩, ?supplyLost,
      fun d => ⟨fun still => ?domStill, fun ramps port idle => ⟨fun last => ?domLast, fun e init next => ?domNext⟩, fun still => ?offStill,
        fun falls idle => ?offAlone⟩,
      fun j => ⟨fun passes => ?wakePasses, fun off on used hard sees => ?wakeFires⟩⟩
    case failPasses => exact State.does_next_to w (State.powerFail_passes passes)
    case failHolds => exact ⟨_, State.does_next _ w, State.powerFail_holds off pilot new⟩
    case late => exact State.doesOn_next_to ⟨on, w⟩ s.pfLate_eq
    case goodEnters => exact State.does_next_to w (State.goodRise_enters pilot low)
    case goodStays => exact State.does_next_to w (State.goodRise_stays stays)
    case fall => exact State.does_next_to w (State.goodFall_powered on)
    case fallOff => exact State.does_next_to w (State.goodFall_unpowered on)
    case supplyStands => exact State.does_next_to w (State.supplyOn_on st good on)
    case supplyPilot => exact ⟨_, State.does_next_to w (State.supplyOn_off st false off), rfl, rfl, rfl, rfl, rfl, rfl⟩
    case supplyInit => exact ⟨_, State.does_next_to w (State.supplyOn_off st true off), State.enterInit_enters _⟩
    case supplyLost => exact ⟨_, State.does_next _ w, rfl, rfl, rfl, rfl⟩
    case domStill => exact State.does_next_to w (State.domainOn_still still)
    case domLast => exact State.does_next_to w (State.domainOn_last idle ramps port last)
    case domNext => exact State.does_next_to w (State.domainOn_next idle ramps port init next)
    case offStill => exact State.does_next_to w (State.domainOff_still still)
    case offAlone => exact State.does_next_to w (State.domainOff_alone idle falls)
    case wakePasses => exact State.does_next_to w (State.wakeFire_passes rfl passes)
    case wakeFires => exact State.does_next_to w (State.wakeFire_fires rfl off on used hard sees)
  case supplied =>
    refine ⟨fun r passes => ?testPasses, fun r init on => ⟨fun voter => ?testSeals, fun lk voter badA goodB wA wB whole => ?testHalf,
        fun lk voter goodA goodB wA wB => ?testAll⟩,
      fun raced => ⟨fun high => ?gntHigh, fun low alone => ?gntAlone, fun r low shown meets => ?gntGrants, fun r low shown race now => ?gntRaces⟩,
      ?leaveLate, ?gntStuck, fun early => ?gntFall, fun g awake => ?gateAwake, fun idle quiet runs => ?gateWharf,
      fun g idle may quiet runs => ?gateSlice,
      fun d => ⟨fun passes => ?clockPasses, fun new runs slice => ?clockSlice, ?clockReturn⟩,
      fun ir => ⟨fun intrusive => ?wrapperIntrusive, fun other => ?wrapperOther⟩, ?wrapperReset⟩
    case testPasses => exact State.doesOn_next_to able (State.selftest_passes r passes)
    case testSeals =>
      have lit : (s.reported r).core.block = .init := init
      exact ⟨_, State.doesOn_next_to able (State.selftest_seals init on voter), Core.sealBlock_block (by rw [lit]; decide) (by rw [lit]; decide)⟩
    case testHalf =>
      have ends := State.selftest_standby init on lk voter goodB wA wB
      rw [badA] at ends
      exact ⟨_, State.doesOn_next_to able ends, State.selftest_half on whole⟩
    case testAll =>
      refine ⟨_, State.doesOn_next_to able (State.selftest_standby init on lk voter goodB wA wB), ?_⟩
      rw [State.awake_core, State.awake_start, goodA]
      unfold State.reported
      rw [lk, voter, goodA, goodB, wA, wB]
      exact ⟨rfl, rfl, rfl⟩
    case gntHigh => exact State.doesOn_next_to able (State.leaveGnt_high raced high)
    case gntAlone => exact State.doesOn_next_to able (State.leaveGnt_alone raced low alone)
    case gntGrants => exact State.doesOn_next_to able (State.leaveGnt_grants low shown meets)
    case gntRaces => exact State.doesOn_next_to able (State.leaveGnt_races low shown race now)
    case leaveLate => exact State.doesOn_next _ able
    case gntStuck => exact State.doesOn_next _ able
    case gntFall => exact State.doesOn_next _ able
    case gateAwake => exact State.doesOn_next_to able (State.gateClose_awake g awake)
    case gateWharf => exact State.doesOn_next_to able (State.gateClose_wharf idle quiet runs)
    case gateSlice => exact State.doesOn_next_to able (State.gateClose_slice idle may quiet runs)
    case clockPasses => exact State.doesOn_next_to able (State.clockAbsent_passes passes)
    case clockSlice => exact State.doesOn_next_to able (State.clockAbsent_slice new runs slice)
    case clockReturn => exact State.doesOn_next _ able
    case wrapperIntrusive => exact State.doesOn_next_to able (State.wrapper_intrusive s intrusive)
    case wrapperOther => exact State.doesOn_next_to able (State.wrapper_other s other)
    case wrapperReset => exact State.doesOn_next _ able

end Sys2Proof.Machine
end

section
/-!
SUPPORT. The statement on the Culvert commands.
-/
namespace Sys2Proof.Machine

/-! CUL_RETRAIN (R304, R442). -/

theorem rowCulRetrain_run (id : Nat) (c : TowCmd) (s : State) : let n := c.target.toNat - 0x20
    rowCulRetrain.run id c s = ((s.culAbandon n).onPort n (fun x => { x with
      st := .retrain, sub := .retrain, sent := 0, resend := [], cmd := some id })).sayLm n 3 := by
  dsimp only [rowCulRetrain, culRow, blockRow, State.culRetrain, culPort]

/-! CUL_ROUTE_RETURN (R322, R442). -/

/-- Nothing fences where no destination of the mask may go back to PRIMARY. -/
theorem State.routeReturn_stays {mask : BitVec 64} {s : State} (cmd : Nat)
    (stays : ∀ d : Nat, d < 64 → mask.getLsbD d = true → s.cul.onAlt.getLsbD d = true → s.primary d ≤ 5 →
      (s.cport (s.primary d)).st = .active → s.cul.held.getLsbD d = true) : s.routeReturn cmd mask = s.complete cmd 0 0 [] := by
  unfold State.routeReturn
  refine if_pos (List.isEmpty_iff.mpr (List.filter_eq_nil_iff.mpr fun d mem returns => ?_))
  simp only [Bool.and_eq_true, decide_eq_true_eq, Bool.not_eq_true'] at returns
  obtain ⟨⟨⟨⟨named, alt⟩, port⟩, active⟩, unheld⟩ := returns
  rw [stays d (List.mem_range.mp mem) named alt port active] at unheld
  exact Bool.noConfusion unheld

/-- Settles O37: each row's own run in the state in which it begins. -/
theorem culvertCommands : Obligations.CulvertCommands := by
  refine ⟨fun s c h => ?retrain, fun s c h => ?spare, fun s c h => ⟨?routes, fun stays => ?stays⟩, fun s c h => ?status⟩
  case retrain => exact State.does_towRow_to h (rowCulRetrain_run _ _ _)
  case spare => exact State.does_towRow h
  case routes => exact State.does_towRow h
  case stays => exact State.routeReturn_stays _ stays
  case status => exact State.does_towRow h

end Sys2Proof.Machine
end

section
/-!
SUPPORT. The statement on the values of status registers.
-/
namespace Sys2Proof.Machine

/-! What a register reads, by its region (R424, R559). -/

section Reached
variable {s : State} {o : Nat} (h : s.pilotOnly = false)
include h

theorem State.view_global (ho : o < 0x10000) : s.view o = s.viewGlobal o := by
  unfold State.view
  rw [if_neg (by simp [h]), if_pos ho]

theorem State.view_irq (low : 0x10000 ≤ o) (ho : o < 0x20000) : s.view o = s.viewIrq o := by
  unfold State.view
  rw [if_neg (by simp [h]), if_neg (by omega), if_pos ho]

theorem State.view_fault (low : 0x20000 ≤ o) (ho : o < 0x30000) : s.view o = s.viewFault o := by
  unfold State.view
  rw [if_neg (by simp [h]), if_neg (by omega), if_neg (by omega), if_pos ho]

theorem State.view_power (low : 0x30000 ≤ o) (ho : o < 0x40000) : s.view o = s.viewPower o := by
  unfold State.view
  rw [if_neg (by simp [h]), if_neg (by omega), if_neg (by omega), if_neg (by omega), if_pos ho]

theorem State.view_port (n : Fin 6) {l : Nat} (ho : l < 0x10000) : s.view (0x80000 + n.val * 0x10000 + l) = s.viewPort n.val l := by
  unfold State.view
  rw [if_neg (by simp [h]), if_neg (by omega), if_neg (by omega), if_neg (by omega), if_neg (by omega), if_neg (by omega), if_pos (by omega)]
  congr 1 <;> omega

theorem State.view_slice (p : Fin 18) {l : Nat} (ho : l < 0x10000) : s.view (0x100000 + p.val * 0x10000 + l) = s.viewSlice p.val l := by
  unfold State.view
  rw [if_neg (by simp [h]), if_neg (by omega), if_neg (by omega), if_neg (by omega), if_neg (by omega), if_neg (by omega), if_neg (by omega),
    if_neg (by rw [inArray_iff]; omega), if_pos (by omega)]
  congr 1 <;> omega

end Reached

theorem State.viewIrq_tgtStat (t : Fin 8) (s : State) : s.viewIrq (0x10C18 + t.val * 0x40) = s.tgtStat t.val := by
  unfold State.viewIrq
  rw [if_neg (by rw [inArray_iff]; omega), if_neg (by rw [inArray_iff]; omega), if_neg (by rw [inArray_iff]; omega),
    if_neg (by rw [inArray_iff]; omega), if_neg (by rw [inArray_iff]; omega), if_pos (by omega)]
  exact (if_pos (by omega)).trans (congrArg s.tgtStat (by omega))

/-! A register that is not reached (R424). -/

section Unreached
variable {s : State} {o : Nat} (only : s.pilotOnly = true) (other : pilotReg o = false)
include only other

theorem State.view_unreached : s.view o = 0 := if_pos (by simp [only, other])

theorem State.regRead_unreached : s.regRead o = (0, s) := Prod.ext (State.view_unreached only other) (if_pos only)

theorem State.regWrite_unreached (v : Word) : s.regWrite o v = (false, s) := if_pos (by simp [only, other])

end Unreached

/-- Settles O18: each register by the branch of its region that its offset selects; one that is not reached by the checks of R424. -/
theorem registerValues : Obligations.RegisterValues := by
  refine ⟨fun s h => ⟨?fltStat, ?frzStat, fun t => ?tgtStat, ?dom0, ?dom1, ?clkMon, fun n => ?culCnt, fun p => ?galCnt, ?blkStat⟩,
    fun s o v only other => ⟨?view, ?read, ?write⟩⟩
  case fltStat => exact State.view_fault h (by decide) (by decide)
  case frzStat => exact State.view_fault h (by decide) (by decide)
  case tgtStat => exact (State.view_irq h (by omega) (by omega)).trans (State.viewIrq_tgtStat t s)
  case dom0 => exact State.view_power h (by decide) (by decide)
  case dom1 => exact State.view_power h (by decide) (by decide)
  case clkMon => exact State.view_power h (by decide) (by decide)
  case culCnt =>
    rw [show 0x80048 + n.val * 0x10000 = 0x80000 + n.val * 0x10000 + 0x48 by omega]
    exact State.view_port h n (by decide)
  case galCnt =>
    rw [show 0x100A20 + p.val * 0x10000 = 0x100000 + p.val * 0x10000 + 0xA20 by omega]
    exact State.view_slice h p (by decide)
  case blkStat => exact State.view_global h (by decide)
  case view => exact State.view_unreached only other
  case read => exact State.regRead_unreached only other
  case write => exact State.regWrite_unreached only other v

end Sys2Proof.Machine
end

section
/-!
SUPPORT. The rules of a Culvert port's state, and the statement on its training events.
-/
namespace Sys2Proof.Machine

/-! A port after an update of it. -/

/-- A port that differs from reset is listed: its update is read back whatever the form of the array of ports. -/
theorem State.cport_onPort_listed {n : Nat} {f : CPort → CPort} {s : State} (listed : f (s.cport n) ≠ CPort.reset) :
    (s.onPort n f).cport n = f (s.cport n) := by
  unfold State.cport
  rw [State.onPort_cul]
  exact (congrArg (mget _ · n) (if_neg listed)).trans mget_mput_same

theorem State.cport_onPort_live {n : Nat} {f : CPort → CPort} {s : State} (live : (f (s.cport n)).st ≠ .off) :
    (s.onPort n f).cport n = f (s.cport n) := State.cport_onPort_listed fun e => live (congrArg CPort.st e)

theorem State.cport_onPort {n : Nat} {s : State} (form : mrising 0 s.cul.ports = true) (f : CPort → CPort) :
    (s.onPort n f).cport n = f (s.cport n) := mget_mset_same form

@[simp] theorem State.cport_onCore (f : Core → Core) (n : Nat) (s : State) : (s.onCore f).cport n = s.cport n := rfl

theorem State.onPort_congr {n : Nat} {f g : CPort → CPort} {s : State} (h : f (s.cport n) = g (s.cport n)) : s.onPort n f = s.onPort n g :=
  congrArg (fun x => s.putPort n x) h

theorem mput_mput {α : Type} (k : Nat) (u v : α) : ∀ m : Map α, mput (mput m k u) k v = mput m k v
  | [] => by simp [mput]
  | (i, w) :: m => by
    by_cases same : i = k
    · simp [mput, same]
    · by_cases low : k < i
      · simp [mput, same, low]
      · simp [mput, same, low, mput_mput k u v m]

theorem merase_mput {α : Type} (k : Nat) (u : α) : ∀ m : Map α, merase (mput m k u) k = merase m k
  | [] => by simp [mput, merase]
  | (i, w) :: m => by
    by_cases same : i = k
    · simp [mput, merase, same]
    · by_cases low : k < i
      · simp [mput, merase, same, low]
      · simp [mput, merase, same, low, merase_mput k u m]

/-- Of two writes of an entry, the first other than the default, the second stands whatever the form of the array. -/
theorem mset_mset {α : Type} [DecidableEq α] {d u : α} (listed : u ≠ d) (k : Nat) (v : α) (m : Map α) :
    mset d (mset d m k u) k v = mset d m k v := by
  unfold mset
  rw [if_neg listed, mput_mput, merase_mput]

/-- Of two updates of a port that the first does not switch off, the second stands. -/
theorem State.onPort_onPort {n : Nat} {f : CPort → CPort} {s : State} (live : (f (s.cport n)).st ≠ .off) (g : CPort → CPort) :
    (s.onPort n f).onPort n g = s.onPort n (fun x => g (f x)) := by
  have listed : f (s.cport n) ≠ CPort.reset := fun e => live (congrArg CPort.st e)
  show (s.onPort n f).putPort n (g ((s.onPort n f).cport n)) = s.putPort n (g (f (s.cport n)))
  rw [State.cport_onPort_live live]
  exact congrArg (fun m => ({ s with cul := { s.cul with ports := m } } : State)) (mset_mset listed n _ _)

/-! A state's end (R304). -/

theorem State.trainTo_own {n : Nat} {s : State} (st : CulSt) (h : (s.cport n).st ≠ .retrain) :
    s.trainTo n st = s.onPort n (fun x => { x with st := st, sent := 0 }) := State.onPort_congr (if_neg h)

theorem State.onPort_trainTo {n : Nat} {f : CPort → CPort} {s : State} (st : CulSt) (live : (f (s.cport n)).st ≠ .off)
    (own : (f (s.cport n)).st ≠ .retrain) : (s.onPort n f).trainTo n st = s.onPort n (fun x => { f x with st := st, sent := 0 }) := by
  rw [State.trainTo_own st (by rwa [State.cport_onPort_live live]), State.onPort_onPort live]

theorem State.detectGo_eq {n : Nat} {s : State} (h : (s.cport n).st = .detect) :
    s.detectGo n = if (s.cport n).ready && decide (16 ≤ popcount (s.cport n).signal) then
      s.onPort n (fun x => { x with st := .lock, sent := 0 }) else s := by
  unfold State.detectGo
  simp only [h, decide_true, Bool.true_and]
  rw [State.trainTo_own .lock (by simp [h])]

/-! SERDES_READY (R277, R304). -/

theorem State.serdesReady_passes {n : Nat} {s : State} (sig lock : BitVec 18) (h : (s.cport n).st ≠ .detect) : s.serdesReady n sig lock = s :=
  if_neg h

theorem State.serdesReady_detect {n : Nat} {s : State} (sig lock : BitVec 18) (h : (s.cport n).st = .detect) :
    (s.serdesReady n sig lock).cport n =
      if 16 ≤ popcount sig then { s.cport n with signal := sig, lock := lock, ready := true, st := .lock, sent := 0 }
      else { s.cport n with signal := sig, lock := lock, ready := true } := by
  have reported : (s.onPort n (fun x => { x with signal := sig, lock := lock, ready := true })).cport n =
      { s.cport n with signal := sig, lock := lock, ready := true } := State.cport_onPort_live (by simp [h])
  unfold State.serdesReady
  rw [if_pos h, State.detectGo_eq (by rw [reported]; exact h), reported]
  simp only [Bool.true_and, decide_eq_true_eq]
  split
  · rw [State.cport_onPort_live (by simp), reported]
  · exact reported

/-! LANE_SIGNAL_CHANGE (R304, R305). -/

/-- A port once a lane's signal detect and lock are as given. -/
def CPort.sees (j : Nat) (sig lock : Bool) (x : CPort) : CPort := { x with signal := putBit x.signal j sig, lock := putBit x.lock j lock }

section Lane
variable {n j : Nat} {sig lock : Bool} {s : State} (form : mrising 0 s.cul.ports = true)
include form

theorem State.laneSignal_passes (h : (s.cport n).st = .off ∨ (s.cport n).st = .reset ∨ (s.cport n).st = .down) :
    s.laneSignal n j sig lock = s.onPort n (CPort.sees j sig lock) := by
  unfold State.laneSignal
  simp only [State.cport_onPort form]
  rcases h with h | h | h <;> simp only [h] <;> rfl

theorem State.laneSignal_detect (h : (s.cport n).st = .detect) :
    s.laneSignal n j sig lock = if (s.cport n).ready && decide (16 ≤ popcount (putBit (s.cport n).signal j sig)) then
      (s.onPort n (CPort.sees j sig lock)).onPort n (fun y => { y with st := .lock, sent := 0 }) else s.onPort n (CPort.sees j sig lock) := by
  have seen := State.cport_onPort (n := n) form (CPort.sees j sig lock)
  have goes := State.detectGo_eq (s := s.onPort n (CPort.sees j sig lock)) (by rw [seen]; exact h)
  rw [seen] at goes
  unfold State.laneSignal
  simp only [State.cport_onPort form, h]
  exact goes

theorem State.laneSignal_training (h : (s.cport n).st = .lock ∨ (s.cport n).st = .map) :
    s.laneSignal n j sig lock = if popcount (putBit (s.cport n).signal j sig &&& ~~~(s.cport n).rxBad) < 16 then
      ((s.onPort n (CPort.sees j sig lock)).culLeave n .down 3).raise famCulTrain (unitCul n) else s.onPort n (CPort.sees j sig lock) := by
  have few : (s.onPort n (CPort.sees j sig lock)).trainFew n =
      ((s.onPort n (CPort.sees j sig lock)).culLeave n .down 3).raise famCulTrain (unitCul n) := by
    refine if_neg ?_
    rw [State.cport_onPort form]
    rcases h with h | h <;> simp [CPort.sees, h]
  rw [← few]
  unfold State.laneSignal
  simp only [State.cport_onPort form]
  rcases h with h | h <;> simp only [h] <;> rfl

theorem State.laneSignal_later (h : (s.cport n).st = .ident ∨ (s.cport n).st = .test ∨ (s.cport n).st = .config ∨ (s.cport n).st = .retrain) :
    s.laneSignal n j sig lock = if sig && lock then s.onPort n (CPort.sees j sig lock) else
      (s.onPort n (CPort.sees j sig lock)).onPort n (fun y => { y with rxBad := setBit y.rxBad j }) := by
  unfold State.laneSignal
  simp only [State.cport_onPort form]
  rcases h with h | h | h | h <;> simp only [h] <;> rfl

theorem State.laneSignal_active (h : (s.cport n).st = .active) :
    s.laneSignal n j sig lock = if sig && lock then s.onPort n (CPort.sees j sig lock) else
      (s.onPort n (CPort.sees j sig lock)).laneFault n j := by
  unfold State.laneSignal
  simp only [State.cport_onPort form, h]
  rfl

end Lane

/-! TRAINING_ADVANCE (R303 to R305). -/

/-- A port's lanes judged by the blocks they showed: one whose blocks all fail is bad, and in LOCK one without lock. -/
def State.trainJudged (n : Nat) (b : List TrainSeen) (s : State) : State :=
  s.onPort n (fun y => { y with
    rxBad := y.rxBad ||| (laneMask (trainFails b) &&& y.signal) ||| (if (s.cport n).phase = .lock then y.signal &&& ~~~y.lock else 0) })

/-- A lane in use in training: it has signal and is not bad. -/
def CPort.inUse (x : CPort) (j : Nat) : Bool := x.signal.getLsbD j && !x.rxBad.getLsbD j

/-- Whether fewer than 16 lanes with signal are good. -/
def CPort.few (x : CPort) : Bool := decide (popcount (x.signal &&& ~~~x.rxBad) < 16)

/-- The lanes in use that have shown good blocks of a phase. -/
def CPort.shown (x : CPort) (b : List TrainSeen) (ph : CulSt) : List (Nat × TBlock) := (trainLanes b (trainType ph)).filter (fun e => x.inUse e.1)

/-- Every lane in use is among the lanes of a list. -/
def CPort.allShown (x : CPort) (l : List (Nat × TBlock)) : Bool := (List.range 18).all (fun j => !x.inUse j || l.any (fun e => e.1 = j))

/-- What the end of a phase does, by what its lanes have shown. -/
def State.trainEnds (n : Nat) (late : BitVec 18) (l : List (Nat × TBlock)) (b : TBlock) (ph : CulSt) (s : State) : State :=
  if ph = .retrain then (s.onPort n (fun x => { x with lm := [] })).trainTo n .lock
  else if ph = .lock then s.trainLock n l
  else if ph = .map then s.trainMap n l late
  else if ph = .ident then s.trainIdent n b
  else s.trainConfig n b

section Ends
variable {n : Nat} {late : BitVec 18} {l : List (Nat × TBlock)} {b : TBlock} {ph : CulSt} {s : State}

theorem State.trainEnds_lock (h : ph = .lock) : s.trainEnds n late l b ph = s.trainLock n l := by
  subst h
  rfl

theorem State.trainEnds_map (h : ph = .map) : s.trainEnds n late l b ph = s.trainMap n l late := by
  subst h
  rfl

theorem State.trainEnds_ident (h : ph = .ident) : s.trainEnds n late l b ph = s.trainIdent n b := by
  subst h
  rfl

theorem State.trainEnds_config (h : ph = .config) : s.trainEnds n late l b ph = s.trainConfig n b := by
  subst h
  rfl

theorem State.trainEnds_retrain (h : ph = .retrain) :
    s.trainEnds n late l b ph = (s.onPort n (fun x => { x with lm := [] })).trainTo n .lock := if_pos h

end Ends

/-- What a phase that waits for blocks does once its lanes are judged. -/
def State.trainGoes (n : Nat) (b : List TrainSeen) (late : BitVec 18) (ph : CulSt) (s : State) : State :=
  let y := s.cport n
  let l := y.shown b ph
  if (ph = .lock || ph = .map) && y.few then s.trainFew n
  else if y.sent < 16 || !y.allShown l then s
  else match l with
    | [] => s
    | e :: _ => s.trainEnds n late l e.2 ph

section Phase
variable {n k : Nat} {s : State} {ph : CulSt} (b : List TrainSeen) (late : BitVec 18) (is : ((s.trainSend n k).cport n).phase = ph)
include is

theorem State.trainAdvance_other (lock : ph ≠ .lock) (map : ph ≠ .map) (ident : ph ≠ .ident) (config : ph ≠ .config)
    (retrain : ph ≠ .retrain) : s.trainAdvance n b late k = s.trainSend n k := by
  subst is
  exact if_pos (by simp [lock, map, ident, config, retrain])

theorem State.trainAdvance_goes (trains : ph = .lock ∨ ph = .map ∨ ph = .ident ∨ ph = .config ∨ ph = .retrain) :
    s.trainAdvance n b late k = ((s.trainSend n k).trainJudged n b).trainGoes n b late ph := by
  subst is
  exact if_neg (by rcases trains with e | e | e | e | e <;> simp [e])

end Phase

section Goes
variable {n : Nat} {s : State} {ph : CulSt} {b : List TrainSeen} {late : BitVec 18}

theorem State.trainGoes_few (early : ph = .lock ∨ ph = .map) (few : (s.cport n).few = true) : s.trainGoes n b late ph = s.trainFew n :=
  if_pos (by simp [early, few])

variable (enough : (ph ≠ .lock ∧ ph ≠ .map) ∨ (s.cport n).few = false)
include enough

theorem State.trainGoes_waits (h : (s.cport n).sent < 16 ∨ (s.cport n).allShown ((s.cport n).shown b ph) = false) :
    s.trainGoes n b late ph = s :=
  (if_neg (by rcases enough with ⟨lock, map⟩ | full <;> simp [*])).trans (if_pos (by rcases h with sent | unseen <;> simp [*]))

theorem State.trainGoes_ends {e : Nat × TBlock} {r : List (Nat × TBlock)} (sent : 16 ≤ (s.cport n).sent)
    (all : (s.cport n).allShown ((s.cport n).shown b ph) = true) (l : (s.cport n).shown b ph = e :: r) :
    s.trainGoes n b late ph = s.trainEnds n late ((s.cport n).shown b ph) e.2 ph := by
  refine (if_neg (by rcases enough with ⟨lock, map⟩ | full <;> simp [*])).trans ((if_neg ?_).trans ?_)
  · simp [all, Nat.not_lt.mpr sent]
  · rw [l]

end Goes

/-! The end of a phase, of a budget, of the TEST window and of a retrain's time (R304, R305, R307). -/

theorem State.trainFew_eq (n : Nat) (s : State) : s.trainFew n = if (s.cport n).st = .retrain then s else
    (s.culLeave n .down 3).raise famCulTrain (unitCul n) := rfl

theorem State.trainLock_port {n : Nat} {s : State} (l : List (Nat × TBlock)) (h : (s.cport n).st = .lock) :
    (s.trainLock n l).cport n = { s.cport n with
      st := .map, sent := 0
      rxInv := laneMask ((l.filter (fun e => e.2.inv)).map (fun e => e.1))
      rxBad := (s.cport n).rxBad ||| ~~~(laneMask (l.map (fun e => e.1))) } := by
  unfold State.trainLock
  rw [State.onPort_trainTo .map (by simp [h]) (by simp [h]), State.cport_onPort_live (by simp)]

theorem State.trainIdent_loops {n : Nat} {s : State} {b : TBlock} (st : (s.cport n).st = .ident) (loop : b.inst = s.self)
    (barred : bit (s.reg (0x80000 + n * 0x10000)) 4 = false) : s.trainIdent n b = s.culLeave n .down 4 :=
  (if_pos (by simpa [loop, State.culCtl] using barred)).trans (if_neg (by simp [st]))

section Budget
variable {n : Nat} {s : State}

theorem State.trainBudget_noPeer (st : (s.cport n).st = .detect) (dark : (s.cport n).signal = 0) : s.trainBudget n = s.culLeave n .down 2 := by
  unfold State.trainBudget
  simp only [st, dark]
  rfl

theorem State.trainBudget_lanes (h : ((s.cport n).st = .detect ∧ (s.cport n).signal ≠ 0) ∨ (s.cport n).st = .lock ∨ (s.cport n).st = .map) :
    s.trainBudget n = (s.culLeave n .down 3).raise famCulTrain (unitCul n) := by
  unfold State.trainBudget
  rcases h with ⟨st, lit⟩ | st | st
  · simp only [st, if_neg lit]
    rfl
  · simp only [st]
    rfl
  · simp only [st]
    rfl

theorem State.trainBudget_timeout (h : (s.cport n).st = .ident ∨ (s.cport n).st = .test ∨ (s.cport n).st = .config) :
    s.trainBudget n = (s.culLeave n .down 5).raise famCulTrain (unitCul n) := by
  unfold State.trainBudget
  rcases h with st | st | st <;> simp only [st] <;> rfl

theorem State.trainBudget_passes (h : (s.cport n).st = .off ∨ (s.cport n).st = .reset ∨ (s.cport n).st = .down ∨ (s.cport n).st = .active ∨
    (s.cport n).st = .retrain) : s.trainBudget n = s := by
  unfold State.trainBudget
  rcases h with st | st | st | st | st <;> simp only [st]

end Budget

theorem State.testEnd_test {n : Nat} {s : State} (errs : List (Fin 18 × Nat)) (k : Nat) (st : (s.cport n).st = .test) :
    let bad := laneMask ((errs.filter (fun e => decide (k < e.2 * 16384))).map (fun e => e.1.val))
    s.testEnd n errs k = s.onPort n (fun x => { x with st := .config, sent := 0, rxBad := x.rxBad ||| bad }) :=
  (if_pos st).trans (State.onPort_trainTo .config (by simp [st]) (by simp [st]))

/-! A port that goes DOWN (R304, R315). -/

theorem State.culAbandon_alone {n : Nat} {s : State} (h : (s.cport n).rxSwitch = none) :
    s.culAbandon n = s.onPort n (fun x => { x with rxSwitch := none, txSwitch := none, faults := [], lm := [] }) := by
  unfold State.culAbandon
  simp only [h]

theorem State.requeue_empty {n : Nat} {s : State} (h : (s.cport n).queue = []) : s.requeue n = s.onPort n (fun x => { x with queue := [] }) := by
  unfold State.requeue
  rw [h]
  rfl

/-- A port that carried no traffic, with no switch, no command and an empty queue, only changes its own state. -/
theorem State.culLeave_alone {n r : Nat} {s : State} (queue : (s.cport n).queue = []) (alone : (s.cport n).rxSwitch = none)
    (cmd : (s.cport n).cmd = none) (active : (s.cport n).st ≠ .active) (retrain : (s.cport n).st ≠ .retrain) (off : (s.cport n).st ≠ .off) :
    (s.culLeave n .down r).cport n = { s.cport n with
      rxSwitch := none, txSwitch := none, faults := [], lm := [], st := .down, reason := r, cmd := none, wait := false, ready := false,
      nak := false, stalled := false, resend := [], queue := [] } := by
  have abandoned : (s.culAbandon n).cport n = { s.cport n with rxSwitch := none, txSwitch := none, faults := [], lm := [] } := by
    rw [State.culAbandon_alone alone, State.cport_onPort_live off]
  unfold State.culLeave
  simp only [abandoned, cmd, State.completeOpt, active, retrain, decide_false, Bool.or_self, Bool.false_eq_true, if_false]
  rw [State.requeue_empty, State.onPort_onPort, State.cport_onPort_live, abandoned]
  · simp
  · simp
  · rw [State.cport_onPort_live, abandoned] <;> simp [queue]

/-- Settles O54: each event by the port's state, TRAINING_ADVANCE by what its lanes show of the phase. -/
theorem culvertTraining : Obligations.CulvertTraining := by
  refine ⟨fun n s able form => ?events, fun n s l st => State.trainLock_port l st,
    fun n s b st loop barred => State.trainIdent_loops st loop barred, fun n s r queue alone cmd active retrain off => ?down⟩
  case down =>
    rw [State.culLeave_alone queue alone cmd active retrain off]
    exact ⟨rfl, rfl, rfl, rfl, rfl, rfl⟩
  refine ⟨fun sig lock => ⟨fun st => ?readyPasses, fun st => ?ready⟩,
    fun j sig lock => ⟨fun st => ?lanePasses, fun up locks st => ?laneUp, fun st => ?laneDetect, fun st => ?laneTraining, fun lost st => ?laneLater,
      fun lost st => ?laneFault⟩,
    fun b late k => ⟨fun l m i c r => ?advanceOther, fun trains => ⟨fun early few => ?advanceFew,
      fun enough => ⟨fun waits => ?advanceWaits, fun sent all e r l => ?advanceEnds⟩⟩⟩,
    ⟨fun st dark => ?noPeer, fun st => ?lanes, fun st => ?timeout, fun st => ?budgetPasses⟩,
    fun errs k => ⟨fun st => ?test, fun st => ?testPasses⟩, fun st => ?retrain, fun st => ?retrainPasses⟩
  case readyPasses => exact State.doesOn_next_to able (State.serdesReady_passes sig lock st)
  case ready => exact ⟨_, State.doesOn_next _ able, State.serdesReady_detect sig lock st⟩
  case lanePasses => exact State.doesOn_next_to able (State.laneSignal_passes form st)
  case laneUp =>
    rcases st with st | st | st | st | active
    case inr.inr.inr.inr => exact State.doesOn_next_to able ((State.laneSignal_active form active).trans (if_pos (by simp [up, locks])))
    all_goals exact State.doesOn_next_to able ((State.laneSignal_later form (by simp [st])).trans (if_pos (by simp [up, locks])))
  case laneDetect => exact State.doesOn_next_to able (State.laneSignal_detect form st)
  case laneTraining => exact State.doesOn_next_to able (State.laneSignal_training form st)
  case laneLater => exact State.doesOn_next_to able ((State.laneSignal_later form st).trans (if_neg (by rcases lost with e | e <;> simp [e])))
  case laneFault => exact State.doesOn_next_to able ((State.laneSignal_active form st).trans (if_neg (by rcases lost with e | e <;> simp [e])))
  case advanceOther => exact State.doesOn_next_to able (State.trainAdvance_other b late rfl l m i c r)
  case advanceFew =>
    exact State.doesOn_next_to able ((State.trainAdvance_goes b late rfl trains).trans (State.trainGoes_few early (decide_eq_true few)))
  case advanceWaits =>
    exact State.doesOn_next_to able ((State.trainAdvance_goes b late rfl trains).trans
      (State.trainGoes_waits (enough.imp_right decide_eq_false) waits))
  case advanceEnds =>
    have ends := (State.trainAdvance_goes b late rfl trains).trans (State.trainGoes_ends (enough.imp_right decide_eq_false) sent all l)
    exact ⟨fun ph => State.doesOn_next_to able (ends.trans (State.trainEnds_lock ph)),
      fun ph => State.doesOn_next_to able (ends.trans (State.trainEnds_map ph)),
      fun ph => State.doesOn_next_to able (ends.trans (State.trainEnds_ident ph)),
      fun ph => State.doesOn_next_to able (ends.trans (State.trainEnds_config ph)),
      fun ph => State.doesOn_next_to able (ends.trans (State.trainEnds_retrain ph))⟩
  case noPeer => exact State.doesOn_next_to able (State.trainBudget_noPeer st dark)
  case lanes => exact State.doesOn_next_to able (State.trainBudget_lanes st)
  case timeout => exact State.doesOn_next_to able (State.trainBudget_timeout st)
  case budgetPasses => exact State.doesOn_next_to able (State.trainBudget_passes st)
  case test => exact State.doesOn_next_to able (State.testEnd_test errs k st)
  case testPasses => exact State.doesOn_next_to able (if_neg st)
  case retrain => exact State.doesOn_next_to able (if_pos st)
  case retrainPasses => exact State.doesOn_next_to able (if_neg st)

end Sys2Proof.Machine
end

section
/-!
SUPPORT. The statement on flits, timers, markers, lane switches, fences and sending on a Culvert port.
-/
namespace Sys2Proof.Machine

/-! A port that is not ACTIVE (R304, R311). -/

section Inactive
variable {n : Nat} {s : State} (h : (s.cport n).st ≠ .active)
include h

theorem State.ackTo_inactive (rx : Bool) : s.ackTo n rx = s := if_pos (by simpa using h)
theorem State.alignment_inactive (w : List (List (BitVec 64))) : s.alignment n w = s := if_pos (by simpa using h)
theorem State.switchCodeword_inactive (rx : Bool) : s.switchCodeword n rx = s := if_pos (by simpa using h)
theorem State.culSend_inactive : s.culSend n = s := if_pos (by simpa using h)

theorem State.culIdle_inactive : s.culIdle n =
    if ((s.cport n).st = .retrain || (s.cport n).st = .down) && !(s.cport n).lm.isEmpty then s.sendIdle n else s := if_pos (by simpa using h)

/-- A flit is only taken for an answer, and only where one is awaited. -/
theorem State.flitIn_unheard {w : List (List (BitVec 64))}
    (no : ((s.cport n).st ≠ .retrain ∧ (s.cport n).st ≠ .down) ∨ (s.cport n).lm = []) : s.flitIn n w = s :=
  (if_neg h).trans (if_neg (by rcases no with ⟨a, b⟩ | e <;> simp [*]))

section Repeats
variable {w : List (List (BitVec 64))} {t : State} (st : (s.cport n).st = .retrain ∨ (s.cport n).st = .down) (lm : (s.cport n).lm ≠ [])
include st lm

theorem State.flitIn_answer {f : BitVec 2048} {b : Bool} (r : s.rxFlit n w = (some (f, b), t)) : s.flitIn n w = t.takeAnswer n f b := by
  refine (if_neg h).trans ((if_pos (by simp [st, lm])).trans ?_)
  rw [r]

theorem State.flitIn_answer_part (r : s.rxFlit n w = (none, t)) : s.flitIn n w = t := by
  refine (if_neg h).trans ((if_pos (by simp [st, lm])).trans ?_)
  rw [r]

end Repeats
end Inactive

theorem State.transitIn_inactive {n : Fin 6} {s : State} (h : (s.cport n.val).st ≠ .active) (hops : Fin 4) (dl : Bool) (op : BitVec 8) (k : Hdr)
    (d : Option Beats) : s.transitIn n hops dl op k d = s := if_pos (by simpa using h)

/-! Flits on an ACTIVE port (R285, R287, R311). -/

section Flit
variable {n : Nat} {s : State} {w : List (List (BitVec 64))} (active : (s.cport n).st = .active)
include active

theorem State.flitIn_part (r : (s.rxFlit n w).1 = none) : s.flitIn n w = (s.rxFlit n w).2 := by
  refine (if_pos active).trans ?_
  rw [show s.rxFlit n w = (none, (s.rxFlit n w).2) from Prod.ext r rfl]

theorem State.flitIn_whole {f : BitVec 2048} {b : Bool} (r : (s.rxFlit n w).1 = some (f, b)) :
    s.flitIn n w = (s.rxFlit n w).2.takeFlit n f b := by
  refine (if_pos active).trans ?_
  rw [show s.rxFlit n w = (some (f, b), (s.rxFlit n w).2) from Prod.ext r rfl]

end Flit

section TakeFlit
variable {n : Nat} {f : BitVec 2048} {b : Bool} {s : State}

/-- A flit that overlaps a lost codeword, or whose TYPE is reserved, sets NAK. -/
theorem State.takeFlit_unread (h : b = true ∨ (flitCrc f = f.extractLsb' 2016 32 ∧ 2 ≤ (flitHdr f).type.toNat)) :
    s.takeFlit n f b = s.onPort n CPort.naks := by
  have unread : s.culFlit n f b = (false, s.onPort n CPort.naks) := by
    unfold State.culFlit
    dsimp only
    rcases h with h | ⟨crc, type⟩ <;> simp [*] <;> rfl
  unfold State.takeFlit
  rw [unread]
  rfl

theorem State.takeFlit_damaged (whole : b = false) (crc : flitCrc f ≠ f.extractLsb' 2016 32) :
    s.takeFlit n f b = s.onPort n (fun x => { x.naks with crc := Nat.min 0xFFFF (x.crc + 1) }) := by
  have damaged : s.culFlit n f b = (false, s.onPort n (fun x => { x.naks with crc := Nat.min 0xFFFF (x.crc + 1) })) := by
    unfold State.culFlit
    simp [whole, crc, sat16]
  unfold State.takeFlit
  rw [damaged]
  rfl

/-- The state that the ACK, the credits and the NAK of a sound flit's header leave. -/
def State.flitHeard (n : Nat) (h : FlitHdr) (s : State) : State :=
  let a := s.onPort n (fun x => x.header h)
  let y := a.cport n
  if h.nak && (y.resend.isEmpty || y.nakAck ≠ some h.ack) then a.culReplay n (some h.ack) else a

/-- The state that a sound flit leaves but for its link management code. -/
def State.flitTaken (n : Nat) (f : BitVec 2048) (s : State) : State :=
  let h := flitHdr f
  let a := s.flitHeard n h
  if h.type = 0 then a
  else if h.seq = (a.cport n).rxSeq + 1 then
    ((a.onPort n (fun x => { x with stalled := false, nak := false })).onCore (Core.bump (unitCul n) 0x102 1)).culAccept
      n h.seq h.first (f.extractLsb' 80 1936)
  else a.onPort n CPort.naks

/-- A switch of the transmit side that has moved ends with the peer's NAK. -/
def State.switchDone (n : Nat) (nak : Bool) (s : State) : State :=
  if nak && ((s.cport n).txSwitch.map (fun w => w.moved)).getD false then
    s.onPort n (fun x => { x with txSwitch := none, lm := x.lm.filter (fun e => e.1 != 2) }) else s

theorem State.takeFlit_sound (whole : b = false) (crc : flitCrc f = f.extractLsb' 2016 32) (type : (flitHdr f).type.toNat < 2) :
    s.takeFlit n f b = ((s.flitTaken n f).switchDone n (flitHdr f).nak).takeLm n (flitHdr f).lm.toNat (flitHdr f).lmArg.toNat := by
  have sound : s.culFlit n f b = (true, s.flitTaken n f) := by
    unfold State.flitTaken
    dsimp only
    rw [apply_ite (Prod.mk true), apply_ite (Prod.mk true)]
    exact if_neg (by simpa [whole, crc] using type)
  unfold State.takeFlit State.switchDone
  rw [sound]
  generalize s.flitTaken n f = t
  cases e : (t.cport n).txSwitch <;> simp [e, lmDrop]

end TakeFlit

/-! ACK_TO (R285). -/

theorem State.ackTo_receiver {n : Nat} {s : State} (active : (s.cport n).st = .active) :
    s.ackTo n true = s.onPort n (fun y => { y with nak := y.nak || y.stalled }) := if_neg (by simp [active])

theorem State.ackTo_transmitter {n : Nat} {s : State} (active : (s.cport n).st = .active) : s.ackTo n false = s.culReplay n none :=
  if_neg (by simp [active])

theorem State.culReplay_empty {n : Nat} {s : State} (ack : Option (BitVec 12)) (h : (s.cport n).replay = []) : s.culReplay n ack = s :=
  if_pos (by simp [h])

theorem State.culReplay_unacked {n : Nat} {s : State} (ack : Option (BitVec 12)) (h : (s.cport n).replay ≠ []) : s.culReplay n ack =
    ((s.onPort n (fun x => { x with resend := x.replay.map seqOf, nakAck := ack, replays := Nat.min 0xFFFF (x.replays + 1) })).onCore
      (Core.bump (unitCul n) 0x104 1)).raise famCulReplay (unitCul n) := if_neg (by simp [h])

/-! Alignment periods (R305, R310). -/

/-- Whether a lane shows a fault at the end of a period. -/
def State.periodFault (n : Nat) (e : Nat × BitVec 340 × BitVec 8) (s : State) : Bool :=
  !(s.cport n).markerOk e.1 e.2.1 || decide (2 ≤ mget 0 (s.cport n).hot e.1) || decide (4 ≤ mget 0 (s.cport n).hotBip e.1)
/-- One lane of an ACTIVE port dealt with where it shows one. -/
def State.periodStep (n : Nat) (e : Nat × BitVec 340 × BitVec 8) (s : State) : State :=
  if (s.cport n).st = .active && s.periodFault n e then s.laneFault n e.1 else s
/-- The markers of the slot that lane words have completed, and the receive side behind it. -/
def State.slotMarkers (n : Nat) (s : State) : List (Nat × BitVec 340 × BitVec 8) × RxPcs :=
  (s.cport n).rx.markers (s.cport n).rxMap (s.cport n).rxInv
/-- The port once a period's lanes are counted. -/
def State.periodCounted (n : Nat) (s : State) : State :=
  s.onPort n (fun x => { ((s.slotMarkers n).1.foldl (CPort.periodLane (bits (s.culTimer n) 47 32)) x) with rx := (s.slotMarkers n).2 })

section Period
variable {n : Nat} {s : State} {w : List (List (BitVec 64))} (active : (s.cport n).st = .active)
include active

theorem State.alignment_part (part : ((s.rxWords n w).cport n).rx.fill < 340) : s.alignment n w = s.rxWords n w :=
  (if_neg (by simp [active])).trans (if_pos part)

theorem State.alignment_ends (whole : 340 ≤ ((s.rxWords n w).cport n).rx.fill) :
    s.alignment n w = foldS (State.periodStep n) ((s.rxWords n w).slotMarkers n).1 ((s.rxWords n w).periodCounted n) :=
  (if_neg (by simp [active])).trans (if_neg (Nat.not_lt.mpr whole))

end Period

theorem foldS_stays {σ α : Type} {f : α → σ → σ} {x : σ} {l : List α} (h : ∀ a ∈ l, f a x = x) : foldS f l x = x := by
  induction l with
  | nil => rfl
  | cons a l ih =>
    have step : foldS f (a :: l) x = foldS f l (f a x) := rfl
    rw [step, h a (List.mem_cons_self ..), ih fun b mem => h b (List.mem_cons_of_mem _ mem)]

theorem State.laneFault_unused {n j : Nat} {s : State} (h : logicalLane (s.cport n).rxMap j = none) : s.laneFault n j = s := by
  unfold State.laneFault
  simp only [h]

/-- A lane in use without a fault, and a lane that is not in use, are left. -/
theorem State.periodStep_sound {n : Nat} {e : Nat × BitVec 340 × BitVec 8} {s : State}
    (sound : (logicalLane (s.cport n).rxMap e.1).isSome = true → s.periodFault n e = false) : s.periodStep n e = s := by
  cases used : logicalLane (s.cport n).rxMap e.1 with
  | some k => exact if_neg (by simp [sound (by simp [used])])
  | none =>
    unfold State.periodStep
    rw [State.laneFault_unused used, ite_self]

/-! Lane switches (R312, R313). -/

section Codeword
variable {n : Nat} {s : State} {w : Switch} (active : (s.cport n).st = .active) (waits : w.moved = false)
include active waits

theorem State.switchCodeword_moves (rx : (s.cport n).rxSwitch = some w) (acked : w.acked = true) :
    s.switchCodeword n true = s.onPort n (fun y => { y with
      rxBad := setBit y.rxBad (laneOf y.rxMap w.lane)
      rxMap := laneDrop (mset 0x1F y.rxMap w.lane (laneOf y.rxMap (16 + w.spare))) (16 + w.spare)
      rxSwitch := some { w with moved := true } }) := by
  unfold State.switchCodeword
  simp [active, rx, waits, acked]

theorem State.switchCodeword_asks (rx : (s.cport n).rxSwitch = some w) (unacked : w.acked = false) :
    let v : Switch := { w with x := ((s.cport n).rx.cw + 256) % 2048 }
    s.switchCodeword n true = s.onPort n (fun y =>
      { y with rxSwitch := some v, lm := y.lm.filter (fun e => e.1 != 1) ++ [(1, v.lane + v.spare * 16 + v.x * 32)] }) := by
  unfold State.switchCodeword
  simp [active, rx, waits, unacked, CPort.switchAt, lmPut, lmDrop, Switch.arg]

theorem State.switchCodeword_transmits (tx : (s.cport n).txSwitch = some w) :
    s.switchCodeword n false = s.onPort n (fun y => { y with
      txBad := setBit y.txBad (laneOf y.txMap w.lane)
      txMap := laneDrop (mset 0x1F y.txMap w.lane (laneOf y.txMap (16 + w.spare))) (16 + w.spare)
      lm := y.lm.filter (fun e => e.1 != 2)
      txSwitch := some { w with moved := true } }) := by
  unfold State.switchCodeword
  simp [active, tx, waits, lmDrop]

end Codeword

/-- A switch of the receive side that no command awaits ends with NAK; the port is listed then, so that it has no fault left either. -/
theorem State.switchEnd_naks {n : Nat} {s : State} {w : Switch} (rx : (s.cport n).rxSwitch = some w) (moved : w.moved = true) (cmd : w.cmd = none)
    (faults : (s.cport n).faults = []) : s.switchEnd n = s.onPort n (fun y => { y with rxSwitch := none, nak := true }) := by
  have listed : ({ s.cport n with rxSwitch := none, nak := true } : CPort) ≠ CPort.reset := fun e => by
    simpa [CPort.reset] using congrArg CPort.nak e
  have ended : ((s.onPort n (fun y => { y with rxSwitch := none, nak := true })).cport n).faults = [] := by
    rw [State.cport_onPort_listed listed]
    exact faults
  unfold State.switchEnd
  simp only [rx, moved, cmd, State.completeOpt, ended, State.nextFault]
  rfl

/-! LOSS_US (R304, R313, R316). -/

theorem State.lossTimer_suspended {n : Nat} {s : State} (h : (s.cport n).rxSwitch.isSome = true) : s.lossTimer n = s := if_pos h

section Loss
variable {n : Nat} {s : State} (active : (s.cport n).st = .active) (alone : (s.cport n).rxSwitch = none)
include active alone

theorem State.lossTimer_retrains (own : bit (s.reg (0x80000 + n * 0x10000)) 1 = true) (peer : (s.cport n).peerFlags.getLsbD 1 = true) :
    s.lossTimer n = s.culRetrain n none :=
  (if_neg (by simp [alone])).trans ((if_neg (by simp [active])).trans (if_pos (by simp [State.culCtl, own, peer])))

theorem State.lossTimer_loses (h : bit (s.reg (0x80000 + n * 0x10000)) 1 = false ∨ (s.cport n).peerFlags.getLsbD 1 = false) :
    s.lossTimer n = (s.culLost n 6).sayLm n 4 :=
  (if_neg (by simp [alone])).trans ((if_neg (by simp [active])).trans (if_neg (by
    rcases h with e | e <;> simp [-BitVec.getLsbD_eq_getElem, State.culCtl, e])))

end Loss

/-! FENCE_US (R319). -/

theorem updateWhere_none {α : Type} {p : α → Bool} (f : α → α) {l : List α} (h : l.filter p = []) : updateWhere p f l = l := by
  refine (List.map_congr_left fun x mem => ?_).trans l.map_id
  exact if_neg (List.filter_eq_nil_iff.mp h x mem)

theorem State.fenceLimit_none {n : Nat} {s : State} (h : s.cul.fences.filter (fun f => f.port = n) = []) : s.fenceLimit n = s := by
  unfold State.fenceLimit State.onCul
  dsimp only
  rw [h, updateWhere_none _ h]
  rfl

/-- A port's only fence releases what it still holds, as though the peer had acknowledged it. -/
theorem State.fenceLimit_one {n : Nat} {s : State} {f : Fence} (h : s.cul.fences = [f]) (port : f.port = n) :
    let g : Fence := { f with acked := true }
    ∃ u : Nat, (f.port ≠ 7 → u = unitCul f.port) ∧ s.fenceLimit n =
      (((({ s with cul := { s.cul with fences := [g] } } : State)).fenceRelease g f.dests).raise famCulFence u) := by
  intro g
  have alone : s.cul.fences.filter (fun f => f.port = n) = [f] := by simp [h, port]
  have marked : updateWhere (fun f : Fence => f.port = n) (fun f => { f with acked := true }) s.cul.fences = [g] := by
    rw [h]
    simp [updateWhere, port, g]
  unfold State.fenceLimit State.onCul
  dsimp only
  rw [alone, marked]
  exact ⟨_, fun lost => congrArg unitCul (if_neg lost), rfl⟩

/-! Messages that pass on (R286, R296). -/

theorem State.transitIn_crosses {n : Fin 6} {s : State} {op : BitVec 8} {h : Hdr} {d : Option Beats} {dl : Bool} (hops : Fin 4)
    (active : (s.cport n.val).st = .active) (away : h.dsti ≠ s.self) (hello : op ≠ 0xC1) :
    let vc := if dl then 9 else 8
    let size := msgSize ⟨op, h, d⟩
    let split := cellSplit (s.cport n.val).rxUsed vc size
    let p := s.routePort h.dsti.toNat
    cellsFit (s.cport n).rxUsed vc size = true → s.transitIn n hops dl op h d =
      (s.onPort n (fun x => { x with rxUsed := cellsAdd x.rxUsed vc split.1 split.2 })).onCore (fun k =>
        k.present (8 + n.val) (8 + if p ≤ 5 then p else n.val) k.arrival (.culvert { culOwn ⟨op, h, d⟩ with
          vc := vc, hops := hops, dl := dl, came := true, fixed := op = 0xC4 && h.hint.getLsbD 0, cells := some ⟨n, vc, split.1, split.2⟩ } [])) := by
  intro vc size split p fits
  refine (if_neg (by simp [active])).trans ((if_neg ?_).trans (if_neg ?_))
  · simpa [culOwn] using fits
  · exact ne_true_of_eq_false (show (decide (h.dsti = s.self) || decide (op = 0xC1)) = false from
      Bool.or_eq_false_iff.mpr ⟨decide_eq_false away, decide_eq_false hello⟩)

/-! Sending (R282, R285, R288, R290). -/

theorem vcHead_one (v : Nat) (c : CulMsg) : vcHead v [c] = if c.vc = v then some (c, []) else none := rfl

section Turn
variable {n : Nat} {s : State} {c : CulMsg} (queue : (s.cport n).queue = [c])
include queue

/-- A VC with no message passes its turn on. -/
theorem culTurn_passes {v : Nat} (k : Nat) (d : Map Nat) (fed : Bool) (empty : c.vc ≠ v) :
    culTurn s n (k + 1) d v fed = culTurn s n k (mset 0 d v 0) ((v + 1) % 10) false := by
  rw [culTurn, queue, vcHead_one, if_neg empty]

variable (may : s.maySend n c [] = true)
include may

/-- The VC of the only message sends it, or passes its turn on with what it has. -/
theorem culTurn_head (k : Nat) (d : Map Nat) (fed : Bool) :
    culTurn s n (k + 1) d c.vc fed =
      let have_ := mget 0 d c.vc + (if fed then 0 else 864)
      if msgSize c.m ≤ have_ then (some c.vc, mset 0 d c.vc (have_ - msgSize c.m), c.vc, true)
      else culTurn s n k (mset 0 d c.vc have_) ((c.vc + 1) % 10) false := by
  rw [culTurn, queue, vcHead_one, if_pos rfl]
  simp [may]

variable (small : msgSize c.m ≤ 864)
include small

/-- The turn comes to the only message, j VCs on, with a new quantum. -/
theorem culTurn_reaches : ∀ (j k v : Nat) (d : Map Nat), j < k → v < 10 → (v + j) % 10 = c.vc →
    ∃ e : Map Nat, culTurn s n k d v false = (some c.vc, e, c.vc, true)
  | j, 0, v, d, low, _, _ => absurd low (Nat.not_lt_zero j)
  | 0, k + 1, v, d, _, bound, here => by
    have here : v = c.vc := by omega
    rw [here, culTurn_head queue may]
    exact ⟨_, if_pos (Nat.le_add_left_of_le small)⟩
  | j + 1, k + 1, v, d, low, bound, far => by
    by_cases here : c.vc = v
    · rw [← here, culTurn_head queue may]
      exact ⟨_, if_pos (Nat.le_add_left_of_le small)⟩
    · rw [culTurn_passes queue k d false here]
      exact culTurn_reaches j k _ _ (by omega) (Nat.mod_lt _ (by decide)) (by omega)

/-- Within 21 turns the only message goes, whatever its VC has left of its quantum. -/
theorem culTurn_sends {v : Nat} (d : Map Nat) (fed : Bool) (vc : c.vc < 10) (turn : v < 10) :
    ∃ e : Map Nat, culTurn s n 21 d v fed = (some c.vc, e, c.vc, true) := by
  by_cases here : c.vc = v
  · subst here
    rw [culTurn_head queue may]
    by_cases enough : msgSize c.m ≤ mget 0 d c.vc + (if fed then 0 else 864)
    · exact ⟨_, if_pos enough⟩
    · exact (if_neg enough : _ = culTurn s n 20 _ _ false) ▸ culTurn_reaches queue may small 9 20 ((c.vc + 1) % 10) _ (by decide)
        (Nat.mod_lt _ (by decide)) (by omega)
  · rw [culTurn_passes queue 20 d fed here]
    exact culTurn_reaches queue may small ((c.vc + 9 - v) % 10) 20 ((v + 1) % 10) _ (by omega) (Nat.mod_lt _ (by decide)) (by omega)

end Turn

theorem msgSize_bodyless {m : Msg} (h : m.beats = none) : msgSize m = 18 := by
  simp [msgSize, msgHalves, h]

theorem msgBytes_bodyless_length {m : Msg} (h : m.beats = none) (vc hops : Nat) (dl : Bool) : (msgBytes m vc hops dl).length = 18 := by
  unfold msgBytes
  rw [h]
  simp

/-- Bytes that one flit holds go in one piece. -/
theorem flitPieces_one {l : List (BitVec 8)} (nonempty : l ≠ []) (fits : l.length ≤ 242) : flitPieces 2 l = [l] := by
  simp [flitPieces, nonempty, List.take_of_length_le fits, List.drop_of_length_le fits]

theorem State.cport_lanesOut (n : Nat) (l : List (List (Nat × BitVec 64))) (m : Nat) (s : State) : (s.lanesOut n l).cport m = s.cport m := rfl

/-- A flit of a port that is not off reports what was due and takes its place in the stream; the rest of the port stays. -/
theorem State.emitFlit_port {n : Nat} {s : State} (live : (s.cport n).st ≠ .off) (h : FlitHdr) (payload : BitVec 1936) :
    (s.emitFlit n h payload).cport n = { s.cport n with
      lm := (s.cport n).lm.drop 1 ++ (s.cport n).lm.take 1, report := ((s.cport n).report + 2) % 11, nak := false
      tx := ((s.cport n).tx.push n s.self (s.cport n).txMap (flitOf h payload)).2 } := by
  have due : (s.onPort n (fun x => { x with lm := x.lm.drop 1 ++ x.lm.take 1, report := (x.report + 2) % 11, nak := false })).cport n =
      { s.cport n with lm := (s.cport n).lm.drop 1 ++ (s.cport n).lm.take 1, report := ((s.cport n).report + 2) % 11, nak := false } :=
    State.cport_onPort_live live
  unfold State.emitFlit
  dsimp only
  rw [State.cport_lanesOut, State.cport_onPort_live]
  · simp only [State.cport_onCore, due]
    rfl
  · simpa only [State.cport_onCore, due] using live

/-- The bytes of one flit, sent from a port that is not off: the port's next SEQ, and the flit in the replay buffer. -/
theorem State.sendPieces_one {n : Nat} {s : State} (live : (s.cport n).st ≠ .off) (first : BitVec 8) (p : List (BitVec 8)) :
    let q := (s.cport n).txSeq
    let v : BitVec 1936 := BitVec.ofNat 1936 (numOf p)
    let y := (s.sendPieces n first [p]).cport n
    y.queue = (s.cport n).queue ∧ y.txSeq = q + 1 ∧ y.replay = (s.cport n).replay ++ [flitBody (s.nextHdr n q 1 first) v] := by
  intro q v y
  have sent : s.sendPieces n first [p] = (s.emitFlit n (s.nextHdr n q 1 first) v).onPort n (fun x =>
      { x with txSeq := q + 1, replay := x.replay ++ [flitBody (s.nextHdr n q 1 first) v] }) := by
    simp only [State.sendPieces, q, v]
  have port : y = { (s.emitFlit n (s.nextHdr n q 1 first) v).cport n with
      txSeq := q + 1, replay := ((s.emitFlit n (s.nextHdr n q 1 first) v).cport n).replay ++ [flitBody (s.nextHdr n q 1 first) v] } :=
    (congrArg (State.cport · n) sent).trans (State.cport_onPort_live (by simpa only [State.emitFlit_port live] using live))
  rw [port, State.emitFlit_port live]
  exact ⟨rfl, rfl, rfl⟩

/-- A port whose only message is about to go: its turn is taken, its cells are counted, and the queue is empty. -/
def CPort.turned (c : CulMsg) (d : Map Nat) (x : CPort) : CPort :=
  let split := cellSplit x.txUsed c.vc (msgSize c.m)
  { x with deficit := d, turn := c.vc, fed := true, queue := vcPop c.vc x.queue, txUsed := cellsAdd x.txUsed c.vc split.1 split.2 }

/-- The only message waiting, without a body, goes out in one flit, which the replay buffer keeps. -/
theorem State.culSend_one {n : Nat} {s : State} {c : CulMsg} (active : (s.cport n).st = .active) (queue : (s.cport n).queue = [c])
    (resend : (s.cport n).resend = []) (bodyless : c.m.beats = none) (vc : c.vc < 10) (cells : c.cells = none) (turn : (s.cport n).turn < 10)
    (may : s.maySend n c [] = true) :
    let last : Bool := (s.cport n).peerInst = c.m.h.dsti || c.m.op = 0xC1
    let v := BitVec.ofNat 1936 (numOf (msgBytes c.m c.vc (if c.came then c.hops + 1 else c.hops)
      (c.dl || (!last && bit (s.reg (0x80000 + n * 0x10000)) 3))))
    let y := (s.culSend n).cport n
    ∃ h : FlitHdr, y.queue = [] ∧ h.seq = (s.cport n).txSeq ∧ h.type = 1 ∧ h.first = 0 ∧ y.replay = (s.cport n).replay ++ [flitBody h v] ∧
      y.txSeq = (s.cport n).txSeq + 1 := by
  intro last v y
  obtain ⟨d, turns⟩ := culTurn_sends queue may (by rw [msgSize_bodyless bodyless]; decide) (s.cport n).deficit (s.cport n).fed vc turn
  have piece (hops : Nat) (dl : Bool) : flitPieces 2 (msgBytes c.m c.vc hops dl) = [msgBytes c.m c.vc hops dl] :=
    flitPieces_one (List.ne_nil_of_length_pos (by rw [msgBytes_bodyless_length bodyless]; decide))
      (by rw [msgBytes_bodyless_length bodyless]; decide)
  have live : ((s.cport n).turned c d).st ≠ .off := show (s.cport n).st ≠ .off by simp [active]
  have port := State.cport_onPort_live (f := CPort.turned c d) live
  have sent : s.culSend n = ((s.onPort n (CPort.turned c d)).sendPieces n 0 [msgBytes c.m c.vc (if c.came then c.hops + 1 else c.hops)
      (c.dl || (!last && bit (s.reg (0x80000 + n * 0x10000)) 3))]).onCore (Core.bump (unitCul n) 0x103 (msgSize c.m)) := by
    have head : vcHead c.vc (s.cport n).queue = some (c, []) := by rw [queue, vcHead_one, if_pos rfl]
    rw [← piece]
    refine (if_neg (by simp [active])).trans ((if_neg (by simp [resend])).trans ?_)
    rw [turns]
    dsimp only
    rw [head]
    dsimp only
    rw [cells]
    rfl
  obtain ⟨left, seq, replay⟩ := State.sendPieces_one (s := s.onPort n (CPort.turned c d)) (by rwa [port]) 0 (msgBytes c.m c.vc
    (if c.came then c.hops + 1 else c.hops) (c.dl || (!last && bit (s.reg (0x80000 + n * 0x10000)) 3)))
  have popped : vcPop c.vc (s.cport n).queue = [] := by
    rw [queue]
    exact if_pos rfl
  simp only [port] at left seq replay
  simp only [y, sent, State.cport_onCore]
  exact ⟨_, left.trans popped, rfl, rfl, rfl, replay, seq⟩

theorem State.culIdle_empty {n : Nat} {s : State} (active : (s.cport n).st = .active) (queue : (s.cport n).queue = [])
    (resend : (s.cport n).resend = []) : s.culIdle n = (s.sendIdle n).onCore (Core.bump (unitCul n) 0x106 0) := by
  unfold State.culIdle
  simp [active, resend, queue, vcHead]

/-- Settles O53: each event by the port's state, then by the branch of its own operation. -/
theorem culvertTraffic : Obligations.CulvertTraffic := by
  refine fun n s able => ⟨fun inactive rx w hp dl op h d => ⟨?still, fun st lm => ⟨?repeats, ?answers⟩, fun no =>
      ⟨?idleStill, ?flitStill⟩⟩,
    fun active => ?active, fun switching => ?suspended, fun w rx moved cmd faults => ?switchEnd, fun p free => ?noFence, fun p f one port => ?fence⟩
  case still =>
    simp only [List.forall_mem_cons, List.not_mem_nil, false_imp_iff, implies_true, and_true]
    exact ⟨State.doesOn_next_to able (State.ackTo_inactive inactive rx), State.doesOn_next_to able (State.alignment_inactive inactive w),
      State.doesOn_next_to able (State.switchCodeword_inactive inactive rx),
      State.doesOn_next_to able (State.transitIn_inactive inactive hp dl op h d), State.doesOn_next_to able (State.culSend_inactive inactive)⟩
  case repeats =>
    exact State.doesOn_next_to able ((State.culIdle_inactive inactive).trans (if_pos (by simp [st, lm])))
  case answers =>
    rcases r : s.rxFlit n w with ⟨_ | ⟨f, b⟩, t⟩
    · exact State.doesOn_next_to able (State.flitIn_answer_part inactive st lm r)
    · exact State.doesOn_next_to able (State.flitIn_answer inactive st lm r)
  case idleStill =>
    exact State.doesOn_next_to able ((State.culIdle_inactive inactive).trans (if_neg (by rcases no with ⟨a, b⟩ | e <;> simp [*])))
  case flitStill => exact State.doesOn_next_to able (State.flitIn_unheard inactive no)
  case suspended => exact State.doesOn_next_to able (State.lossTimer_suspended switching)
  case switchEnd => exact State.doesOn_next_to able (State.switchEnd_naks rx moved cmd faults)
  case noFence => exact State.doesOn_next_to able (State.fenceLimit_none free)
  case fence =>
    obtain ⟨u, named, limit⟩ := State.fenceLimit_one one port
    exact ⟨u, named, State.doesOn_next_to able limit⟩
  refine ⟨fun w => ⟨fun part => ?part, fun f b whole => ⟨fun unread => ?unread, fun good crc => ?damaged, fun good crc type => ?sound⟩⟩,
    ⟨?ackReceiver, fun empty => ?ackEmpty, fun kept => ?ackReplays⟩,
    fun w => ⟨fun part => ?slotPart, fun whole => ⟨?period, fun sound => ?periodSound⟩⟩,
    fun w rx waits => ⟨fun acked => ?moves, fun unacked => ?asks⟩, fun w tx waits => ?transmits,
    fun alone => ⟨fun own peer => ?retrains, fun slow => ?loses⟩, fun hp dl op h d away hello fits => ?transit,
    fun c queue resend bodyless vc cells turn may => ?send, fun queue resend => ?idle⟩
  case part => exact State.doesOn_next_to able (State.flitIn_part active part)
  case unread => exact State.doesOn_next_to able ((State.flitIn_whole active whole).trans (State.takeFlit_unread unread))
  case damaged => exact State.doesOn_next_to able ((State.flitIn_whole active whole).trans (State.takeFlit_damaged good crc))
  case sound => exact State.doesOn_next_to able ((State.flitIn_whole active whole).trans (State.takeFlit_sound good crc type))
  case ackReceiver => exact State.doesOn_next_to able (State.ackTo_receiver active)
  case ackEmpty => exact State.doesOn_next_to able ((State.ackTo_transmitter active).trans (State.culReplay_empty none empty))
  case ackReplays => exact State.doesOn_next_to able ((State.ackTo_transmitter active).trans (State.culReplay_unacked none kept))
  case slotPart => exact State.doesOn_next_to able (State.alignment_part active part)
  case period => exact State.doesOn_next_to able (State.alignment_ends active whole)
  case periodSound =>
    exact State.doesOn_next_to able ((State.alignment_ends active whole).trans
      (foldS_stays fun e mem => State.periodStep_sound fun used => sound e mem used))
  case moves => exact State.doesOn_next_to able (State.switchCodeword_moves active waits rx acked)
  case asks => exact State.doesOn_next_to able (State.switchCodeword_asks active waits rx unacked)
  case transmits => exact State.doesOn_next_to able (State.switchCodeword_transmits active waits tx)
  case retrains => exact State.doesOn_next_to able (State.lossTimer_retrains active alone own peer)
  case loses => exact State.doesOn_next_to able (State.lossTimer_loses active alone slow)
  case transit => exact State.doesOn_next_to able (State.transitIn_crosses hp active away hello fits)
  case send =>
    obtain ⟨h, sent⟩ := State.culSend_one active queue resend bodyless vc cells turn may
    exact ⟨_, h, State.doesOn_next _ able, sent⟩
  case idle => exact State.doesOn_next_to able (State.culIdle_empty active queue resend)

end Sys2Proof.Machine
end

section
/-!
SUPPORT. The statement on the end of a step that leaves no work.
-/
namespace Sys2Proof.Machine

/-- A slice whose pair has nothing to commit, and holds nothing, keeps its window open as it was (R335). -/
theorem State.galCommit_nothing {s0 s : State} {p : Nat}
    (h : s.galRuns p = true → State.committed s0 s p = [] ∧ (s.gal p).items = []) : State.galCommit s0 p s = s := by
  unfold State.galCommit
  cases runs : s.galRuns p with
  | false => exact if_pos (by simp)
  | true =>
    obtain ⟨commits, items⟩ := h runs
    simp only [commits, items, List.isEmpty_nil, Bool.and_self, if_true, ite_self]

/-- With power and no work, a step's end is its commits and the interrupt controller's cycle (R335, R457). -/
theorem State.finish_calm {s t : State} (lit : t.powered = true) (calm : t.calm = true) (quiet : (State.commitAll s t).quiet = true)
    (still : (State.commitAll s t).powered = true) : State.finish s t = State.irqCycle s (State.commitAll s t) := by
  unfold State.finish
  simp only [lit, calm, quiet, still, Bool.not_true, Bool.false_eq_true, if_false, if_true]

theorem State.finish_dark {t : State} (s : State) (dark : t.powered = false) : State.finish s t = t :=
  if_pos (by simp [dark])

/-- Settles O9: the end of a calm step, the commits of pairs that have none, and the end of a step without power. -/
theorem quietStepEnd : Obligations.QuietStepEnd :=
  ⟨fun _ _ => State.finish_calm, fun _ _ h => foldS_stays fun p mem => State.galCommit_nothing (h p (List.mem_range.mp mem)),
    fun s _ => State.finish_dark s⟩

end Sys2Proof.Machine
end

section
/-!
SUPPORT. The statement on the commands that load images into the standby stores.
-/
namespace Sys2Proof.Machine

/-! A load's close and the end of a slice's checks (R347, R437). -/

theorem State.mcLoadClose_open {c : TowCmd} {s : State} {l : Load} (id : Nat) (h : s.openLoad c = some l) :
    s.mcLoadClose id c = s.loadClose l id := by
  unfold State.mcLoadClose
  rw [h]

theorem State.imageDone_found {p : Nat} {s : State} {l : Load} (sig : Bool)
    (h : s.start.loads.find? (fun l => l.cmd.isSome && l.left.head? = some p) = some l) :
    let st := s.loadCheck (s.slice p).standby sig
    let m : Load := { l with left := l.left.tail, bad := if st = 0 then l.bad else l.bad ++ [(p, st.toNat)] }
    let t := s.onCore (Core.onSlice p (fun x => { x with
      standby := if st = 0 then { x.standby with st := .verified, valid := true } else Store.none }))
    s.imageDone p sig = ((if st = 0x41 then t.raise famMcSig p else t).putLoad m).loadEnd m := by
  unfold State.imageDone
  rw [h]
  rfl

/-! The checks in their order (R347). -/

theorem State.loadCheck_length {x : Store} (s : State) (sig : Bool) (h : x.next ≠ x.expect ∨ x.expect ≠ 896 + 16 * x.count) :
    s.loadCheck x sig = 0x12 := if_pos (by simpa using h)

theorem State.loadCheck_header {x : Store} (s : State) (sig : Bool) (whole : x.next = x.expect) (length : x.expect = 896 + 16 * x.count)
    (h : x.word 0 ≠ 0x303259454C4C4147 ∨ x.count = 0 ∨ 4096 < x.count) : s.loadCheck x sig = 0x11 := by
  refine (if_neg (by simp [whole, length])).trans (if_pos ?_)
  rcases h with magic | none | many
  · simp [magic]
  · simp [none]
  · simp [many]

/-- Each check that fails has a status of its own, and the last one fails. -/
theorem State.loadCheck_unsigned (s : State) (x : Store) : s.loadCheck x false ≠ 0 := by
  unfold State.loadCheck
  dsimp only
  split
  · decide
  · split
    · decide
    · split
      · decide
      · rw [if_pos (by rfl)]
        decide

/-- Settles O34: each row's own run in the state in which it begins, a slice's check by the load that waits for it, and the order of the checks. -/
theorem imageLoads : Obligations.ImageLoads := by
  refine ⟨fun s c h => ?loadOpen, fun s c h => ?loadData, fun s c l h isOpen => ?loadClose, fun s c h => ?discard,
    fun s p sig l able found => ?verified, fun s x sig => ⟨?length, ?header, ?unsigned⟩⟩
  case loadOpen => exact State.does_towRow h
  case loadData => exact State.does_towRow h
  case loadClose => exact State.does_towRow_to h (State.mcLoadClose_open _ isOpen)
  case discard => exact State.does_towRow h
  case verified => exact State.doesOn_next_to able (State.imageDone_found sig found)
  case length => exact s.loadCheck_length sig
  case header => exact s.loadCheck_header sig
  case unsigned => exact s.loadCheck_unsigned x

end Sys2Proof.Machine
end

section
/-!
SUPPORT. The statement on cut-over, PROOF and overlays.
-/
namespace Sys2Proof.Machine

/-! MC_ACTIVATE and MC_PROOF_START (R350, R351). -/

theorem State.galActivate_serving {p : Nat} {s : State} (cmd : Nat) (h : (s.slice p).st = .serving) :
    s.galActivate p cmd = s.onGal p (fun g => { g with wants := g.wants ++ [.cut cmd] }) := if_pos h

theorem State.galActivate_elsewhere {p : Nat} {s : State} (cmd : Nat) (h : (s.slice p).st ≠ .serving) :
    let t := if (s.slice p).control.st = .empty then (s.galExchange p).galMode p 1 else s.galExchange p
    s.galActivate p cmd = t.complete cmd 0 (t.slice p).control.describe [] := if_neg h

/-- The slice of a pair that begins PROOF from SERVING, or else from SPARE. -/
def State.provesFrom (p : Nat) (on : Bool) (s : State) : State := s.onCore (Core.onSlice p (fun x => { x with
  st := .proof, proofServing := on, mode := if on then x.mode else .test, standby := { x.standby with st := .inProof } }))

theorem State.galProof_eq (p : Nat) (s : State) :
    let on := decide ((s.slice p).st = .serving)
    let t := s.provesFrom p on
    let u := (t.galClose p (.struck [] [])).onGal p (fun g => { g with
      split := true, diverged := false, stopped := false, log := [], checkMode := (t.slice p).mode, checkRegs := g.regs })
    s.galProof p = if on then u else (u.galEnter p 0xF1 0 0).2 := by
  unfold State.galProof State.provesFrom
  by_cases serving : (s.slice p).st = .serving
  · simp only [serving]; rfl
  · simp only [serving]; rfl

/-! LK_OVERLAY and the end of its overlay (R438). -/

theorem State.overlayStart_permitted {pa : Nat} {s : State} (cmd : Nat) (h : s.core.gatePermits gateOverlay gExec pa = true) :
    s.overlayStart cmd pa = { s with start := { s.start with overlay := some ⟨cmd, pa, false, false⟩ } } := if_pos h

theorem State.overlayStart_refused {pa : Nat} {s : State} (cmd : Nat) (h : s.core.gatePermits gateOverlay gExec pa = false) :
    s.overlayStart cmd pa = (s.onCore (Core.gateRefuse gateOverlay gExec pa)).completeFree cmd 0x40 := if_neg (Bool.eq_false_iff.mp h)

theorem State.overlayEnd_running {s : State} {o : Overlay} (sig ok : Bool) (res : Word) (h : s.start.overlay = some o) (runs : o.running = true) :
    let t : State := { s with start := { s.start with overlay := none } }
    s.overlayEnd sig ok res = if !sig then t.completeFree o.cmd 0x41 else t.complete o.cmd (if ok then 0 else 0x40) res [] := by
  unfold State.overlayEnd
  rw [h]
  exact if_neg (by simp [runs])

/-! The proof log as it is read (R353). -/

theorem State.proofEntry_listed {p i : Nat} {s : State} {e : BitVec 256} (h : (s.gal p).log[i]? = some e) :
    s.proofEntry p i = ([recPart e 0, recPart e 1, recPart e 2, recPart e 3], s) := by
  unfold State.proofEntry
  rw [h]

theorem State.proofEntry_length (p i : Nat) (s : State) : (s.proofEntry p i).1.length = 4 := by
  unfold State.proofEntry
  split <;> rfl

theorem State.freeWord_state (s : State) : s.freeWord.2 = s.freeFrom (s.core.freeCtr + 1) := rfl

theorem State.freeFrom_freeFrom (m n : Nat) (s : State) : (s.freeFrom m).freeFrom n = s.freeFrom n := rfl

theorem State.proofEntry_state (p i : Nat) (s : State) : ∃ k, (s.proofEntry p i).2 = s.freeFrom k := by
  unfold State.proofEntry
  split
  · exact ⟨s.core.freeCtr, rfl⟩
  · refine ⟨s.core.freeCtr + 1 + 1 + 1 + 1, ?_⟩
    show s.freeWord.2.freeWord.2.freeWord.2.freeWord.2 = _
    simp only [State.freeWord_state, State.freeFrom_freeFrom]
    rfl

theorem State.proofEntries_succ (p n i : Nat) (s : State) : let t := (s.proofEntry p i).2.proofEntries p n (i + 1)
    s.proofEntries p (n + 1) i = ((s.proofEntry p i).1 ++ t.1, t.2) := rfl

theorem State.proofEntries_length (p n i : Nat) (s : State) : (s.proofEntries p n i).1.length = 4 * n := by
  induction n generalizing i s with
  | zero => rfl
  | succ n ih =>
    rw [State.proofEntries_succ, List.length_append, State.proofEntry_length, ih]
    omega

theorem State.proofEntries_state (p n i : Nat) (s : State) :
    ∃ k, (s.proofEntries p n i).2 = s.freeFrom k := by
  induction n generalizing i s with
  | zero => exact ⟨s.core.freeCtr, rfl⟩
  | succ n ih =>
    obtain ⟨k, first⟩ := s.proofEntry_state p i
    obtain ⟨m, rest⟩ := ih (i + 1) (s.proofEntry p i).2
    rw [State.proofEntries_succ, rest, first]
    exact ⟨m, rfl⟩

theorem recPart_of_four (e : BitVec 256) {w : Nat} (h : w < 4) :
    [recPart e 0, recPart e 1, recPart e 2, recPart e 3][w]? = some (recPart e w) := by
  match w, h with
  | 0, _ | 1, _ | 2, _ | 3, _ => rfl

/-- Word w of the j-th entry read is word w of the log's entry: each entry read before it takes four words. -/
theorem State.proofEntries_word {p w : Nat} {e : BitVec 256} (h : w < 4) {n i j : Nat} {s : State} (low : j < n)
    (listed : (s.gal p).log[i + j]? = some e) : (s.proofEntries p n i).1[4 * j + w]? = some (recPart e w) := by
  induction j generalizing n i s with
  | zero =>
    obtain ⟨n, rfl⟩ := Nat.exists_eq_succ_of_ne_zero (Nat.ne_of_gt low)
    rw [State.proofEntries_succ, State.proofEntry_listed (i := i) listed, Nat.mul_zero, Nat.zero_add, List.getElem?_append_left h]
    exact recPart_of_four e h
  | succ j ih =>
    obtain ⟨n, rfl⟩ := Nat.exists_eq_succ_of_ne_zero (Nat.ne_zero_of_lt low)
    obtain ⟨k, first⟩ := s.proofEntry_state p i
    have later : ((s.proofEntry p i).2.gal p).log[i + 1 + j]? = some e := by
      rw [first, Nat.add_right_comm]
      exact listed
    rw [State.proofEntries_succ, List.getElem?_append_right (by rw [State.proofEntry_length]; omega), State.proofEntry_length,
      show 4 * (j + 1) + w - 4 = 4 * j + w by omega]
    exact ih (Nat.lt_of_succ_lt_succ low) later

/-- Settles O35: each row's own run in the state in which it begins, and the proof log's entries four words each. -/
theorem cutOverAndProof : Obligations.CutOverAndProof := by
  refine ⟨⟨fun s c h => ⟨fun serving => ?waits, fun elsewhere => ?activates⟩, fun s c h => ?proves, fun s c h => ?proofEnds,
    fun s c h => ?logRead, fun s c h => ⟨fun permitted => ?fetches, fun refused => ?refused⟩,
    fun s o ok res able held runs => ⟨?signed, ?unsigned⟩⟩,
    fun p n i s => ⟨s.proofEntries_length p n i, s.proofEntries_state p n i, fun j w e low word listed => ?words⟩⟩
  case waits => exact State.does_towRow_to h (State.galActivate_serving _ serving)
  case activates => exact State.does_towRow_to h (State.galActivate_elsewhere _ elsewhere)
  case proves => exact State.does_towRow_to h (congrArg (State.complete _ 0 0 []) (State.galProof_eq _ _))
  case proofEnds => exact State.does_towRow h
  case logRead => exact State.does_towRow h
  case fetches => exact State.does_towRow_to h (State.overlayStart_permitted _ permitted)
  case refused => exact State.does_towRow_to h (State.overlayStart_refused _ refused)
  case signed => exact State.doesOn_next_to able (State.overlayEnd_running true ok res held runs)
  case unsigned => exact State.doesOn_next_to able (State.overlayEnd_running false ok res held runs)
  case words => exact State.proofEntries_word word low listed

end Sys2Proof.Machine
end

section
/-!
SUPPORT. The rules of a pair's and a slice's state, and what a pair's windows, sweeps, limits and quiesce points do.
-/
namespace Sys2Proof.Machine

/-! A pair after an update of it, and a slice after one. -/

theorem State.gal_onGal {p : Nat} {s : State} (form : mrising 0 s.gals = true) (f : Gal → Gal) : (s.onGal p f).gal p = f (s.gal p) :=
  mget_mset_same form

/-- A pair that differs from reset is listed: its update is read back whatever the form of the array of pairs. -/
theorem State.gal_onGal_listed {p : Nat} {f : Gal → Gal} {s : State} (listed : f (s.gal p) ≠ Gal.reset) : (s.onGal p f).gal p = f (s.gal p) :=
  (congrArg (mget _ · p) (if_neg listed)).trans mget_mput_same

theorem Gal.listed_of_split {g : Gal} (h : g.split = true) : g ≠ Gal.reset :=
  fun e => Bool.noConfusion (h.symm.trans (congrArg Gal.split e))

theorem Gal.listed_of_wants {g : Gal} (h : g.wants ≠ []) : g ≠ Gal.reset := fun e => h (congrArg Gal.wants e)

theorem State.onGal_congr {p : Nat} {f g : Gal → Gal} {s : State} (h : f (s.gal p) = g (s.gal p)) : s.onGal p f = s.onGal p g :=
  congrArg (fun x => { s with gals := mset Gal.reset s.gals p x }) h

/-- Of two updates of a pair that the first does not make as at reset, the second stands. -/
theorem State.onGal_onGal {p : Nat} {f : Gal → Gal} {s : State} (listed : f (s.gal p) ≠ Gal.reset) (g : Gal → Gal) :
    (s.onGal p f).onGal p g = s.onGal p (fun x => g (f x)) := by
  have second : (s.onGal p f).onGal p g = { s with gals := mset Gal.reset (s.onGal p f).gals p (g (f (s.gal p))) } := by
    rw [← State.gal_onGal_listed listed]
    rfl
  exact second.trans (congrArg (fun m => { s with gals := m }) (mset_mset listed p _ _))

theorem State.slice_onSlice {p : Nat} {s : State} (form : mrising 0 s.core.slices = true) (f : Slice → Slice) :
    (s.onSlice p f).slice p = f (s.slice p) := mget_mset_same form

/-- A slice that is not DARK is listed: its update is read back whatever the form of the array of slices. -/
theorem Core.slice_onSlice_lit {p : Nat} {f : Slice → Slice} {s : Core} (lit : (f (s.slice p)).st ≠ .dark) :
    (s.onSlice p f).slice p = f (s.slice p) :=
  (congrArg (mget _ · p) (if_neg fun e => lit (congrArg Slice.st e))).trans mget_mput_same

theorem State.slice_onSlice_lit {p : Nat} {f : Slice → Slice} {s : State} (lit : (f (s.slice p)).st ≠ .dark) :
    (s.onSlice p f).slice p = f (s.slice p) := Core.slice_onSlice_lit lit

/-! Windows (R335 to R340, R342, R352). -/

theorem State.gal_galRelease {p : Nat} {s : State} (form : mrising 0 s.gals = true) : (s.galRelease p).gal p = { s.gal p with
    items := [], under := none, opened := (s.slice p).clock, limit := winLimit (s.reg (0x100A00 + p * 0x10000))
    ckpt := ⟨(s.slice p).mode, if (s.gal p).split then (s.gal p).checkMode else (s.slice p).mode, (s.gal p).regs, (s.gal p).checkRegs⟩ } :=
  State.gal_onGal form _

/-- The slice with the arrays that it had under the window, where the window holds writes. -/
def State.undone (p : Nat) (s : State) : State := match (s.gal p).under with
  | none => s
  | some u => s.onSlice p (fun x => x.arrays u)

theorem State.galDiscard_eq (p : Nat) (s : State) : let c := (s.gal p).ckpt
    s.galDiscard p = ((s.undone p).onSlice p (fun x => { x with mode := c.mode })).onGal p (fun g => { g with
      items := [], under := none, regs := c.regs, checkRegs := c.checkRegs, checkMode := c.checkMode }) := by
  unfold State.galDiscard State.undone
  dsimp only
  cases (s.gal p).under <;> rfl

theorem State.undone_gals (p : Nat) (s : State) : (s.undone p).gals = s.gals := by
  unfold State.undone
  split <;> rfl

theorem State.undone_form {p : Nat} {s : State} (form : mrising 0 s.core.slices = true) : mrising 0 (s.undone p).core.slices = true := by
  unfold State.undone
  split
  · exact form
  · exact Core.setSlice_form p _ form

theorem State.slice_undone {p : Nat} {s : State} {u : Slice} (form : mrising 0 s.core.slices = true) (h : (s.gal p).under = some u) :
    (s.undone p).slice p = (s.slice p).arrays u := by
  unfold State.undone
  rw [h]
  exact State.slice_onSlice form _

theorem State.gal_galDiscard {p : Nat} {s : State} (form : mrising 0 s.gals = true) : (s.galDiscard p).gal p = { s.gal p with
    items := [], under := none, regs := (s.gal p).ckpt.regs, checkRegs := (s.gal p).ckpt.checkRegs, checkMode := (s.gal p).ckpt.checkMode } := by
  have kept : (s.undone p).gals = s.gals := State.undone_gals p s
  have same : ((s.undone p).onSlice p (fun x => { x with mode := (s.gal p).ckpt.mode })).gal p = s.gal p := congrArg (mget Gal.reset · p) kept
  rw [State.galDiscard_eq, State.gal_onGal (by simpa [State.onSlice, kept] using form), same]

/-- A discarded window gives the slice its checkpoint's mode. -/
theorem State.slice_galDiscard {p : Nat} {s : State} (form : mrising 0 s.core.slices = true) :
    (s.galDiscard p).slice p = { (s.undone p).slice p with mode := (s.gal p).ckpt.mode } :=
  State.slice_onSlice (State.undone_form form) _

/-- A release takes a checkpoint of the pair as it is, and a discard puts it back, with the arrays that the slice had under the window. -/
theorem State.windowEffects {p : Nat} {s : State} (gals : mrising 0 s.gals = true) (slices : mrising 0 s.core.slices = true) :
    let g := s.gal p
    let r := s.galRelease p
    let d := s.galDiscard p
    r.core = s.core ∧ (r.gal p).items = [] ∧ (r.gal p).under = none ∧ (r.gal p).ckpt.mode = (s.slice p).mode ∧ (r.gal p).ckpt.regs = g.regs ∧
      (d.gal p).items = [] ∧ (d.gal p).under = none ∧ (d.gal p).regs = g.ckpt.regs ∧ (d.slice p).mode = g.ckpt.mode ∧
      ∀ u : Slice, g.under = some u → (d.slice p).hs = u.hs ∧ (d.slice p).ls = u.ls ∧ (d.slice p).barges = u.barges ∧
        (d.slice p).chambers = u.chambers ∧ (d.slice p).skl = u.skl := by
  intro g r d
  have released : r.gal p = _ := State.gal_galRelease gals
  have discarded : d.gal p = _ := State.gal_galDiscard gals
  have slice : d.slice p = _ := State.slice_galDiscard slices
  rw [released, discarded, slice]
  refine ⟨rfl, rfl, rfl, rfl, rfl, rfl, rfl, rfl, rfl, fun u under => ?_⟩
  rw [State.slice_undone slices under]
  exact ⟨rfl, rfl, rfl, rfl, rfl⟩

theorem State.galWindow_off {p : Nat} {s : State} (v : WinSeen) (off : s.galRuns p = false) : s.galWindow p v = s :=
  if_neg (Bool.eq_false_iff.mp off)

theorem State.galWindow_runs {p : Nat} {s : State} (v : WinSeen) (runs : s.galRuns p = true) : s.galWindow p v = s.galClose p v := if_pos runs

section Whole
variable {p : Nat} {s : State} (whole : (s.gal p).split = false)
include whole

theorem State.galClose_whole_diverge (d : Divergence) : s.galClose p (.diverge d) = s.galRelease p := by
  unfold State.galClose
  simp only [whole, Bool.false_eq_true, if_false]

theorem State.galClose_agrees {first : List Nat} (second : List Nat) (hit : s.galInjected p = false) (same : (s.gal p).differs first = false) :
    s.galClose p (.struck first second) = s.galRelease p := by
  unfold State.galClose
  simp [whole, hit, same]

theorem State.galClose_differs {first : List Nat} (second : List Nat) (h : s.galInjected p = true ∨ (s.gal p).differs first = true) :
    let rewound := (s.onGal p (fun g => { g with inject := g.inject && !s.galInjected p })).galRewind p
    s.galClose p (.struck first second) =
      if (s.gal p).differs second then (rewound.galDiscard p).raise famGalleyHard p else rewound.galRelease p := by
  unfold State.galClose
  dsimp only
  rw [if_neg (by simp [whole]), if_neg (by rcases h with e | e <;> simp [e])]

end Whole

section Split
variable {p : Nat} {s : State} (split : (s.gal p).split = true)
include split

theorem State.galClose_split_struck (first second : List Nat) : s.galClose p (.struck first second) = s.galRelease p := if_pos split

theorem State.galClose_split_stopped (d : Divergence) (h : (s.gal p).stopped = true) : s.galClose p (.diverge d) = s.galRelease p :=
  (if_pos split).trans (congrArg (State.galRelease p) (if_pos h))

theorem State.galClose_split_diverge (d : Divergence) (h : (s.gal p).stopped = false) :
    s.galClose p (.diverge d) = (s.galDiverge p d).galRelease p :=
  (if_pos split).trans (congrArg (State.galRelease p) (if_neg (Bool.eq_false_iff.mp h)))

end Split

/-- The first divergence of a proof is logged and raised (R352, R353). -/
theorem galDiverge_first {p : Nat} {s : State} (d : Divergence) (first : (s.gal p).diverged = false) (room : (s.gal p).log.length < 256) :
    s.galDiverge p d = (s.onGal p (fun g => { g with
      divergences := Nat.min 0xFFFF (g.divergences + 1)
      diverged := true
      stopped := g.stopped || d.kind = 4
      log := g.log ++ [proofEntry s.core.host.tick d] })).raise famProofDiverge p := by
  unfold State.galDiverge
  simp only [first, Bool.not_false, Bool.true_and, if_true]
  exact congrArg (State.raise famProofDiverge p) (State.onGal_congr (by simp only [room, decide_true, if_true]; rfl))

/-! Sweeps, stalls and the limits of a proof (R334, R341, R352, R354). -/

/-- What every sweep of a pair counts and reports beside the registers. -/
def State.sweepEnd (p : Nat) (ce : Nat) (csUe : Bool) (s : State) : State :=
  let t := s.onGal p (fun g => { g with csCorr := Nat.min 0xFFFF (g.csCorr + ce) })
  if csUe then t.raise famGalleyCsUe p else t

theorem State.galSweep_off {p : Nat} {s : State} (r : SweepSeen) (off : s.galRuns p = false) : s.galSweep p r = s := if_pos (by simp [off])

theorem State.galSweep_split {p : Nat} {s : State} (l : List RegFlip) (ce : Nat) (csUe : Bool) (runs : s.galRuns p = true)
    (split : (s.gal p).split = true) : s.galSweep p ⟨l, ce, csUe, false⟩ = s.sweepEnd p ce csUe := by
  refine (if_neg (by simp [runs])).trans ?_
  dsimp only
  rw [if_pos split]
  rfl

theorem State.galSweep_whole {p : Nat} {s : State} (l : List RegFlip) (ce : Nat) (csUe : Bool) (runs : s.galRuns p = true)
    (whole : (s.gal p).split = false) (calm : (s.gal p).inject = false) :
    let bad := l.filter RegFlip.differs
    let fixed := foldS (fun (_ : RegFlip) t => State.galFix p t) (bad.filter RegFlip.fixable) s
    s.galSweep p ⟨l, ce, csUe, false⟩ = (if bad.all RegFlip.fixable then fixed else fixed.raise famGalleyLatent p).sweepEnd p ce csUe := by
  refine (if_neg (by simp [runs])).trans ?_
  dsimp only
  rw [if_neg (Bool.eq_false_iff.mp whole), calm]
  rfl

theorem State.galStall_off {p : Nat} {s : State} (off : s.galRuns p = false) : s.galStall p = s := if_neg (by simp [off])

theorem State.galStall_runs {p : Nat} {s : State} (runs : s.galRuns p = true) :
    s.galStall p = if (s.slice p).mode = .service then s else s.raise famGalleyStall p := by
  unfold State.galStall
  rw [runs]
  by_cases serving : (s.slice p).mode = .service <;> simp [serving]

theorem State.galLimit_split {p : Nat} {s : State} (runs : s.galRuns p = true) (split : (s.gal p).split = true) :
    s.galLimit p = s.onGal p (fun g => { g with expired := true, wants := if g.wants = [] then [.proofEnd false none] else g.wants }) := by
  refine (if_neg (by simp [runs, split])).trans (State.onGal_congr ?_)
  simp only [List.isEmpty_iff]

theorem State.galLimit_whole {p : Nat} {s : State} (h : (s.gal p).split = false ∨ s.galRuns p = false) : s.galLimit p = s :=
  if_pos (by rcases h with e | e <;> simp [e])

theorem State.galForce_passes {p : Nat} {s : State} (h : (s.gal p).split = false ∨ s.galRuns p = false) : s.galForce p = s :=
  if_neg (by rcases h with e | e <;> simp [e])

theorem State.galForce_quiesces {p : Nat} {s : State} (runs : s.galRuns p = true) (split : (s.gal p).split = true)
    (diverged : (s.gal p).diverged = true) (force : bit (s.reg (0x100A30 + p * 0x10000)) 16 = true)
    (time : bits (s.reg (0x100A30 + p * 0x10000)) 31 20 ≠ 0) : s.galForce p = s.quiesce p :=
  if_pos (by simp [runs, split, diverged, force, time])

/-! Quiesce points (R349, R350, R352, R354). -/

/-- A pair that runs closes its window in agreement: one in PROOF, or one that no injection struck. -/
theorem State.galClose_quiet {p : Nat} {s : State} (h : (s.gal p).split = true ∨ (s.gal p).inject = false) :
    s.galClose p (.struck [] []) = s.galRelease p := by
  by_cases split : (s.gal p).split = true
  · exact State.galClose_split_struck split [] []
  · exact State.galClose_agrees (Bool.eq_false_iff.mpr split) [] (by simp [State.galInjected, h.resolve_left split]) rfl

/-- The state in which a quiesce point makes what waited for it: the window is released, and nothing waits. -/
def State.quiesced (p : Nat) (s : State) : State := (s.galRelease p).onGal p (fun g => { g with wants := [] })

/-- What a quiesce point does behind what waited for it: the resync that the register asks for, and a divider change that may take effect. -/
def State.quiesceEnd (p : Nat) (s : State) : State :=
  let t := if (s.gal p).diverged && bit (s.reg (0x100A30 + p * 0x10000)) 16 then s.galResync p else s
  if t.divReady p then t.divNow p else t

theorem State.quiesce_off {p : Nat} {s : State} (off : s.galRuns p = false) : s.quiesce p = s := if_pos (by simp [off])

/-- The release of a window leaves what waits: of a pair that is listed. -/
theorem State.quiesce_eq {p : Nat} {s : State} (runs : s.galRuns p = true) (quiet : (s.gal p).split = true ∨ (s.gal p).inject = false)
    (listed : (s.gal p).split = true ∨ (s.gal p).wants ≠ []) :
    s.quiesce p = (foldS (State.galWant p) (s.gal p).wants (s.quiesced p)).quiesceEnd p := by
  have left : ((s.galRelease p).gal p).wants = (s.gal p).wants := by
    have released : (s.galRelease p).gal p = _ :=
      State.gal_onGal_listed (listed.elim (fun h => Gal.listed_of_split h) (fun h => Gal.listed_of_wants h))
    rw [released]
  refine (if_neg (by simp [runs])).trans ?_
  rw [State.galClose_quiet quiet]
  dsimp only
  rw [left]
  rfl

theorem State.quiesceEnd_stays {p : Nat} {s : State} (same : (s.gal p).diverged = false) (still : s.divReady p = false) : s.quiesceEnd p = s := by
  unfold State.quiesceEnd
  simp [same, still]

theorem State.quiesceEnd_resyncs {p : Nat} {s : State} (diverged : (s.gal p).diverged = true)
    (force : bit (s.reg (0x100A30 + p * 0x10000)) 16 = true) (still : (s.galResync p).divReady p = false) :
    s.quiesceEnd p = s.galResync p := by
  unfold State.quiesceEnd
  simp [diverged, force, still]

theorem State.quiesce_one {p : Nat} {s : State} {w : GalWant} (runs : s.galRuns p = true)
    (quiet : (s.gal p).split = true ∨ (s.gal p).inject = false) (waits : (s.gal p).wants = [w]) :
    let t := (s.quiesced p).galWant p w
    (t.gal p).diverged = false → t.divReady p = false → s.quiesce p = t := by
  intro t same still
  rw [State.quiesce_eq runs quiet (.inr (by simp [waits])), waits]
  exact State.quiesceEnd_stays same still

/-- A diverged pair for which nothing waits is resynced when the register asks for it. -/
theorem State.quiesce_resync {p : Nat} {s : State} (runs : s.galRuns p = true) (split : (s.gal p).split = true)
    (diverged : (s.gal p).diverged = true) (force : bit (s.reg (0x100A30 + p * 0x10000)) 16 = true) (idle : (s.gal p).wants = [])
    (still : s.divReady p = false) :
    s.quiesce p = (s.galRelease p).onGal p (fun g => { g with
      wants := [], diverged := false, stopped := false, checkMode := (s.slice p).mode, checkRegs := g.regs }) := by
  have released : ((s.galRelease p).gal p) = _ := State.gal_onGal_listed (Gal.listed_of_split split)
  have splitStill : ((s.galRelease p).gal p).split = true := (congrArg Gal.split released).trans split
  have quiesced : ((s.quiesced p).gal p) = _ := State.gal_onGal_listed (Gal.listed_of_split splitStill)
  have differs : ((s.quiesced p).gal p).diverged = true := by
    rw [quiesced, released]
    exact diverged
  have synced : (s.quiesced p).galResync p = (s.galRelease p).onGal p (fun g => { g with
      wants := [], diverged := false, stopped := false, checkMode := (s.slice p).mode, checkRegs := g.regs }) :=
    State.onGal_onGal (Gal.listed_of_split splitStill) _
  have after : ((s.quiesced p).galResync p).gal p = _ :=
    State.gal_onGal_listed (Gal.listed_of_split ((congrArg Gal.split quiesced).trans splitStill))
  have stillSo : ((s.quiesced p).galResync p).divReady p = s.divReady p := by
    unfold State.divReady
    rw [after, quiesced, released]
    rfl
  rw [State.quiesce_eq runs (.inl split) (.inl split), idle, ← synced]
  exact State.quiesceEnd_resyncs differs force (stillSo.trans still)

end Sys2Proof.Machine
end

section
/-!
SUPPORT. What leaves the slices as they were, the ends of a slice's waking, of a drain and of a failover's steps, and the statement on pairs and
failovers.
-/
namespace Sys2Proof.Machine

/-! What leaves the slices as they were (R407, R484, R184, R380). -/

section View
variable {β : Type} {view : Core → β} (h : ∀ (x : Out) (k : Core), view (k.emit x) = view k)
include h

/-- A reply leaves what no output changes. -/
theorem State.sendReply_view (v : Via) (r : Reply) (s : State) : view (s.sendReply v r).core = view s.core := by
  have emits {α : Type} (x : α → Out) (l : List α) (k : Core) : view (foldS (fun a => Core.emit (x a)) l k) = view k :=
    foldS_view (fun a k => h (x a) k) l k
  cases v with
  | stream => exact emits _ _ s.core
  | window w => rfl
  | wire =>
    unfold State.sendReply State.wireReady
    dsimp only
    split
    · exact emits _ _ s.core
    · rfl

/-- The end of a command leaves what no output changes. -/
theorem State.complete_view (id : Nat) (status : BitVec 8) (result : Word) (payload : List Word) (s : State) :
    view (s.complete id status result payload).core = view s.core := by
  have noted {c : Prop} [Decidable c] (t : State) (v : Via) (q : Prev) : (if c then t.setPrev v q else t).core = t.core := by
    split <;> rfl
  unfold State.complete
  split
  · rfl
  · next r found =>
    dsimp only
    split
    · exact (State.sendReply_view h _ _ _).trans (congrArg view (noted _ _ _))
    · split
      · exact congrArg view (noted _ _ _)
      · cases r.via with
        | stream => exact (State.sendReply_view h _ _ _).trans (congrArg view (noted _ _ _))
        | window w => exact congrArg view (noted _ _ _)
        | wire => exact congrArg view (noted _ _ _)

end View

theorem State.completeOpt_slices (c : Option Nat) (status : BitVec 8) (result : Word) (s : State) :
    (s.completeOpt c status result).core.slices = s.core.slices := by
  cases c with
  | none => rfl
  | some id => exact State.complete_view (view := Core.slices) (fun _ _ => rfl) id status result [] s

@[simp] theorem State.workAsk_core (w : Switching) (s : State) : (s.workAsk w).core = s.core := by
  unfold State.workAsk
  split
  · rfl
  · dsimp only
    split
    · rfl
    · exact congrArg Prod.fst (State.wakeView_leaveAsk _ _)

@[simp] theorem State.workPump_core (s : State) : s.workPump.core = s.core := foldS_view State.workAsk_core _ s

/-- A reply and what is asked for next leave every slice. -/
theorem State.slice_replied (c : Option Nat) (status : BitVec 8) (result : Word) (p : Nat) (s : State) :
    ((s.completeOpt c status result).workPump).slice p = s.slice p := by
  unfold State.slice
  rw [State.workPump_core]
  exact congrArg (mget Slice.reset · p) (State.completeOpt_slices _ _ _ _)

@[simp] theorem State.divPump_core (p : Nat) (s : State) : (s.divPump p).core = s.core := by
  unfold State.divPump
  dsimp only
  split <;> rfl

theorem Core.foldS_setReg_slices {α : Type} (o : α → Nat) (w : α → Word) (l : List α) (s : Core) :
    (foldS (fun a => Core.setReg (o a) (w a)) l s).slices = s.slices := 
  foldS_view (view := Core.slices) (f := fun a => Core.setReg (o a) (w a)) (fun _ _ => rfl) l s

theorem State.bistRemap_slices (p : Nat) (l : List WayFault) (s : State) : (s.bistRemap p l).core.slices = s.core.slices := by
  have filled (w : Nat × WayFault → Word) : ((s.remapClear p).onCore (foldS (fun (e : Nat × WayFault) => Core.setReg (offRemap p e.1) (w e))
      ((List.range 16).zip l))).core.slices = s.core.slices :=
    (Core.foldS_setReg_slices _ w _ _).trans (Core.foldS_setReg_slices _ (fun _ => 0) _ s.core)
  unfold State.bistRemap
  dsimp only
  split
  · exact (State.raise_slices _ _ _).trans (filled _)
  · exact filled _

/-- The start of a failover chooses a spare, and moves no slice (R384). -/
theorem Core.failoverStart_slices (l p : Nat) (cmd : Option Nat) (s : Core) : (s.failoverStart l p cmd).slices = s.slices := by
  unfold Core.failoverStart Core.foBegin
  dsimp only
  split
  · split <;> exact Core.raiseEv_slices _ _
  · rfl
  · rfl

/-- A slice that is not DARK or SEALED is SEALED by its seal, whether or not what it serves fails over (R380). -/
theorem Core.sealSlice_sealed {p : Nat} {s : Core} (cmd : Option Nat) (lit : (s.slice p).st ≠ .dark) :
    ((s.sealSlice p cmd).slice p).st = .sealed_ := by
  by_cases before : (s.slice p).st = .sealed_
  · rw [show s.sealSlice p cmd = s from if_pos (by simp [before]), before]
  · have put : ((s.onSlice p (fun x => { x with st := .sealed_, proofServing := false, forFailover := false, tested := false })).slice p).st =
        .sealed_ := congrArg Slice.st (Core.slice_onSlice_lit (by simp))
    unfold Core.sealSlice
    dsimp only
    rw [if_neg (by simp [lit, before])]
    split
    · exact (congrArg (fun m => (mget Slice.reset m p).st) (Core.failoverStart_slices _ _ _ _)).trans put
    · exact put

/-! The end of a slice's waking (R419). -/

theorem State.wakeEnd_awake {p : Nat} {s : State} (l : List WayFault) (same : Bool) (h : (s.slice p).st ≠ .waking) : s.wakeEnd p l same = s :=
  if_pos (by simp [h])

/-- A waking slice with its way remaps filled, and without the command that woke it: its tests decide what it becomes. -/
def State.woken (p : Nat) (l : List WayFault) (s : State) : State := (s.bistRemap p l).onSlice p (fun x => { x with wakeTag := none })

/-- A slice as its tests leave it (R419). -/
def Slice.cleared (x : Slice) : Slice := { x.noSieves with skl := [], warm := [], drip := [], miss := none, pred := [], last := 0, run := 1 }

/-- A slice whose tests passed, SPARE or READY. -/
def State.passes (p : Nat) (spare : Bool) (s : State) : State :=
  (s.onSlice p Slice.cleared).onSlice p (fun x => { x with st := if spare then .spare else .ready, fromSpare := false })

theorem State.slice_passes (p : Nat) (spare : Bool) (s : State) : ((s.passes p spare).slice p).st = if spare then .spare else .ready := by
  have passed : (s.passes p spare).slice p = _ := State.slice_onSlice_lit (s := s.onSlice p Slice.cleared)
    (show (if spare then SliceSt.spare else SliceSt.ready) ≠ SliceSt.dark by cases spare <;> simp)
  exact congrArg Slice.st passed

section Waking
variable {p : Nat} {s : State} (l : List WayFault) (waking : (s.slice p).st = .waking)
include waking

theorem State.slice_woken : (s.woken p l).slice p = { s.slice p with wakeTag := none } := by
  have kept : (s.bistRemap p l).slice p = s.slice p := congrArg (mget Slice.reset · p) (State.bistRemap_slices p l s)
  refine (State.slice_onSlice_lit ?_).trans (by rw [kept])
  rw [kept]
  simp [waking]

variable (own : (s.slice p).forFailover = false)
include own

/-- The slice passes its tests: SPARE when it was one, else READY. -/
theorem State.wakeEnd_passes : ((s.wakeEnd p l true).slice p).st = if (s.slice p).fromSpare then .spare else .ready := by
  let passed := (s.woken p l).passes p (s.slice p).fromSpare
  have effect : s.wakeEnd p l true = ((passed.divPump p).completeOpt (s.slice p).wakeTag tsOk (passed.sliceStat p)).workPump := by
    unfold State.wakeEnd
    dsimp only
    rw [if_neg (by simp [waking, own]), own]
    rfl
  rw [effect, State.slice_replied, State.slice, State.divPump_core]
  exact State.slice_passes p _ _

/-- Comparators that fail seal the slice (R380). -/
theorem State.wakeEnd_fails : ((s.wakeEnd p l false).slice p).st = .sealed_ := by
  have lit : ((s.woken p l).slice p).st ≠ .dark := by
    rw [State.slice_woken l waking]
    simp [waking]
  let fails : State := ((s.woken p l).onCore (Core.sealSlice p none)).raise famGalleySelftest p
  have effect : s.wakeEnd p l false = (fails.completeOpt (s.slice p).wakeTag tsFailed (fails.sliceStat p)).workPump := by
    unfold State.wakeEnd
    dsimp only
    rw [if_neg (by simp [waking, own]), own]
    rfl
  rw [effect, State.slice_replied]
  exact (congrArg (fun m => (mget Slice.reset m p).st) (State.raise_slices _ _ _)).trans (Core.sealSlice_sealed none lit)

end Waking

/-! A drain's end (R516). -/

theorem State.drainComplete_none {p : Nat} {s : State} (h : s.start.drains.find? (fun j => j.parts.contains p) = none) : s.drainComplete p = s := by
  unfold State.drainComplete
  rw [h]

theorem State.drainComplete_found {p : Nat} {s : State} {j : DrainJob} (h : s.start.drains.find? (fun j => j.parts.contains p) = some j) :
    s.drainComplete p = if !s.core.stopped && j.parts.all s.core.drained? then s.drainFinish j else s := by
  unfold State.drainComplete
  rw [h]

/-! The steps of a failover (R383). -/

/-- A command of the engine alone, by an equation for what it does. -/
theorem State.doesOn_onCore_to {s : State} {f : Core → Core} {k : Core} (h : s.Able) (e : f s.core = k) :
    s.doesOn (State.onCore f) = .next (State.finish s { s with core := k }) := State.doesOn_next_to h (e ▸ rfl)

theorem Core.settleDone_none {l : Nat} {s : Core} (bad : List LineAddr) (h : s.failovers.find? (fun f => f.logical = l && f.step = 1) = none) :
    s.settleDone l bad = s := by
  unfold Core.settleDone
  rw [h]

theorem Core.settleDone_open {l : Nat} {s : Core} {f : Failover} (bad : List LineAddr)
    (h : s.failovers.find? (fun f => f.logical = l && f.step = 1) = some f) (waits : s.settled f.failed = false) : s.settleDone l bad = s := by
  unfold Core.settleDone
  rw [h]
  exact if_pos (by simp [waits])

theorem Core.onSlice_congr {p : Nat} {f g : Slice → Slice} {s : Core} (h : f (s.slice p) = g (s.slice p)) : s.onSlice p f = s.onSlice p g :=
  congrArg (fun x => s.setSlice p x) h

/-- A failed slice that holds nothing to salvage. -/
theorem Core.settleDone_empty {l : Nat} {s : Core} {f : Failover} (bad : List LineAddr)
    (h : s.failovers.find? (fun f => f.logical = l && f.step = 1) = some f) (settled : s.settled f.failed = true) (goes : s.stopped = false)
    (skl : (s.slice f.failed).skl = []) (drip : (s.slice f.failed).drip = []) (barges : (s.slice f.failed).barges = []) :
    s.settleDone l bad = ({ s with failovers := updateWhere (fun f => f.logical = l) (fun f => { f with step := 3 }) s.failovers } : Core).onSlice
      f.failed (fun x => { x with warm := [], drip := [], skl := [] }) := by
  unfold Core.settleDone
  rw [h]
  dsimp only
  rw [if_neg (by simp [settled, goes]), skl, drip, barges]
  have dropped : s.onSlice f.failed (fun x => { x with warm := [], drip := [], skl := x.skl.map (fun e => (e.1, { e.2 with dirty := false })) }) =
      s.onSlice f.failed (fun x => { x with warm := [], drip := [], skl := [] }) := Core.onSlice_congr (by simp only [skl, List.map_nil])
  exact congrArg (fun (k : Core) => { k with failovers := updateWhere (fun f => f.logical = l) (fun f => { f with step := 3 }) k.failovers }) dropped

theorem Core.takeover_none {l : Nat} {s : Core} (h : s.failovers.find? (fun f => f.logical = l && f.step = 3) = none) : s.takeover l = s := by
  unfold Core.takeover
  rw [h]

/-- What the later parts of a take-over leave: the map of logical slices, the slices, and what the engine hands to other units. -/
def Core.servedView (s : Core) : Map Nat × Map Slice × List Up := (s.host.remap, s.slices, s.up)

theorem Core.servedView_tasks {α : Type} (t : α → Task) (l : List α) (s : Core) :
    (foldS (fun a => Core.task (t a)) l s).servedView = s.servedView :=
  foldS_view (view := Core.servedView) (f := fun a => Core.task (t a)) (fun _ _ => rfl) l s

theorem Core.servedView_sendInst (i : BitVec 6) (m : Msg) (s : Core) : (s.sendInst i m).servedView = s.servedView := by
  unfold Core.sendInst
  dsimp only
  split <;> rfl

/-- Open mode and its census touch the directory engines, and send (R171, R383). -/
theorem Core.servedView_openStart (m : BitVec 16) (s : Core) : (s.openStart m).servedView = s.servedView :=
  foldS_view (view := Core.servedView) (fun _ _ => Core.servedView_sendInst _ _ _) _ _

theorem mfind_mput_same {α : Type} {k : Nat} {v : α} : ∀ {m : Map α}, mfind (mput m k v) k = some v
  | [] => by simp [mput, mfind]
  | (i, u) :: m => by
    unfold mput
    split
    · simp [mfind]
    · split
      · simp [mfind]
      · simp only [mfind]
        rw [if_neg ‹_›]
        exact mfind_mput_same

/-- The slices at a take-over: the failed one gives up its work, and the spare takes the logical slice with what was kept for it. -/
def Core.exchanged (l q : Nat) (f : Failover) (s : Core) : Core :=
  (s.onSlice f.failed Slice.abandoned).onSlice q (fun x => { x.takenOver l with internals := f.kept })

theorem Core.slice_exchanged (l q : Nat) (f : Failover) (s : Core) :
    ((s.exchanged l q f).slice q).st = .serving ∧ ((s.exchanged l q f).slice q).logical = some l ∧
      ((s.exchanged l q f).slice q).spillAll = true := by
  have taken : (s.exchanged l q f).slice q = _ := Core.slice_onSlice_lit (s := s.onSlice f.failed Slice.abandoned) SliceSt.noConfusion
  rw [taken]
  exact ⟨rfl, rfl, rfl⟩

section Takeover
variable {l q : Nat} {hot : Bool} {s : Core} {f : Failover} (h : s.failovers.find? (fun f => f.logical = l && f.step = 3) = some f)
  (spare : s.spareOf f = some (q, hot))
include h spare

theorem Core.takeover_waits (unready : s.spareReady q = false) : s.takeover l = s := by
  unfold Core.takeover
  rw [h]
  dsimp only
  rw [spare]
  exact if_pos (by simp [unready])

/-- A ready spare takes over, where no line of the failed slice was lost: what follows the exchange leaves it as it is. -/
theorem Core.takeover_view (ready : s.spareReady q = true) (goes : s.stopped = false) (whole : f.lost = []) :
    (s.takeover l).servedView = (mput s.host.remap l q, (s.exchanged l q f).slices, s.up ++ [Up.mode q 3]) := by
  have tasked {c : Prop} [Decidable c] (t : Task) (k : Core) : (if c then k.task t else k).servedView = k.servedView := by
    split <;> rfl
  unfold Core.takeover
  rw [h]
  dsimp only
  rw [spare]
  dsimp only
  rw [if_neg (by simp [ready, goes]), whole]
  refine (tasked _ _).trans ?_
  refine (Core.servedView_tasks (fun (b : Berth) => .wbArrive q b.id) _ _).trans ?_
  exact Core.servedView_openStart _ _

theorem Core.takeover_serves (ready : s.spareReady q = true) (goes : s.stopped = false) (whole : f.lost = []) :
    let t := s.takeover l
    mfind t.host.remap l = some q ∧ (t.slice q).st = .serving ∧ (t.slice q).logical = some l ∧ (t.slice q).spillAll = true ∧
      Up.mode q 3 ∈ t.up := by
  intro t
  obtain ⟨remap, slices, up⟩ : t.host.remap = _ ∧ t.slices = _ ∧ t.up = _ := by
    simpa only [Core.servedView, Prod.mk.injEq] using Core.takeover_view h spare ready goes whole
  obtain ⟨serving, logical, spills⟩ := s.slice_exchanged l q f
  have slice : t.slice q = (s.exchanged l q f).slice q := congrArg (mget Slice.reset · q) slices
  rw [remap, slice, up]
  exact ⟨mfind_mput_same, serving, logical, spills, by simp⟩

end Takeover

/-- Settles O58: each event by whether its pair runs and is split, each slice's by its state, and each step of a failover by what it finds. -/
theorem pairsAndFailover : Obligations.PairsAndFailover := by
  refine ⟨fun s p able => ⟨fun off => ⟨fun r => ?sweepOff, ?off⟩, fun gals slices => ?effects,
      fun runs => ⟨fun whole => ⟨fun d => ?whole, fun first second hit same => ?agrees, fun first second struck => ?differs,
          fun calm l ce csUe => ?sweep⟩,
        fun split => ⟨fun first second => ?proofStruck, fun l ce => ?proofSweep, fun d stopped => ?proofStopped,
          fun d goes same room => ?diverges, ?limit, fun diverged force time => ?force, fun diverged force idle still => ?resync⟩,
        fun whole => ⟨?noLimit, ?noForce⟩, ?stall,
        fun quiet => ⟨fun c waits same still => ?cut, fun cut c waits same still => ?proofEnd⟩⟩,
      fun l same awake => ?awake, fun l waking own => ⟨⟨s.wakeEnd p l true, ?passes, ?passed⟩, ⟨s.wakeEnd p l false, ?fails, ?failed⟩⟩,
      fun absent => ?noDrain, fun j found => ?drain⟩,
    fun s l bad able => ⟨fun absent => ?noSettle, fun absent => ?noTakeover, fun f found => ⟨fun waits => ?settleWaits,
      fun settled goes skl drip barges => ?settles⟩,
      fun f q hot found spare => ⟨fun unready => ?unready, fun ready goes whole => ⟨s.onCore (Core.takeover l), ?takes, ?taken⟩⟩⟩⟩
  case sweepOff => exact State.doesOn_next_to able (State.galSweep_off (s := s.ungate p) r off)
  case off =>
    intro v
    simp only [List.forall_mem_cons, List.not_mem_nil, false_imp_iff, implies_true, and_true]
    exact ⟨State.doesOn_next_to able (State.galWindow_off v off), State.doesOn_next_to able (State.galStall_off off),
      State.doesOn_next_to able (State.quiesce_off off), State.doesOn_next_to able (State.galLimit_whole (.inr off)),
      State.doesOn_next_to able (State.galForce_passes (.inr off))⟩
  case effects => exact State.windowEffects (Map.rising_of_wf gals) (Map.rising_of_wf slices)
  case whole => exact State.doesOn_next_to able ((State.galWindow_runs _ runs).trans (State.galClose_whole_diverge whole d))
  case agrees => exact State.doesOn_next_to able ((State.galWindow_runs _ runs).trans (State.galClose_agrees whole second hit same))
  case differs => exact State.doesOn_next_to able ((State.galWindow_runs _ runs).trans (State.galClose_differs whole second struck))
  case sweep => exact State.doesOn_next_to able (State.galSweep_whole (s := s.ungate p) l ce csUe runs whole calm)
  case proofStruck => exact State.doesOn_next_to able ((State.galWindow_runs _ runs).trans (State.galClose_split_struck split _ _))
  case proofSweep => exact State.doesOn_next_to able (State.galSweep_split (s := s.ungate p) l ce false runs split)
  case proofStopped => exact State.doesOn_next_to able ((State.galWindow_runs _ runs).trans (State.galClose_split_stopped split d stopped))
  case diverges =>
    refine State.doesOn_next_to able ((State.galWindow_runs _ runs).trans ((State.galClose_split_diverge split d goes).trans ?_))
    rw [galDiverge_first d same room]
  case limit => exact State.doesOn_next_to able (State.galLimit_split runs split)
  case force =>
    exact (State.doesOn_next_to able (State.galForce_quiesces runs split diverged force time)).trans (State.doesOn_next _ able).symm
  case resync => exact State.doesOn_next_to able (State.quiesce_resync runs split diverged force idle still)
  case noLimit => exact State.doesOn_next_to able (State.galLimit_whole (.inl whole))
  case noForce => exact State.doesOn_next_to able (State.galForce_passes (.inl whole))
  case stall => exact State.doesOn_next_to able (State.galStall_runs runs)
  case cut => exact State.doesOn_next_to able (State.quiesce_one runs quiet waits same still)
  case proofEnd => exact State.doesOn_next_to able (State.quiesce_one runs quiet waits same still)
  case awake => exact State.doesOn_next_to able (State.wakeEnd_awake l same awake)
  case passes => exact State.doesOn_next _ able
  case passed => exact State.wakeEnd_passes l waking own
  case fails => exact State.doesOn_next _ able
  case failed => exact State.wakeEnd_fails l waking own
  case noDrain => exact State.doesOn_next_to able (State.drainComplete_none absent)
  case drain => exact State.doesOn_next_to able (State.drainComplete_found found)
  case noSettle => exact State.doesOn_onCore_to able (Core.settleDone_none bad absent)
  case noTakeover => exact State.doesOn_onCore_to able (Core.takeover_none absent)
  case settleWaits => exact State.doesOn_onCore_to able (Core.settleDone_open bad found waits)
  case settles => exact State.doesOn_onCore_to able (Core.settleDone_empty bad found settled goes skl drip barges)
  case unready => exact State.doesOn_onCore_to able (Core.takeover_waits found spare unready)
  case takes => exact State.doesOn_next _ able
  case taken => exact Core.takeover_serves found spare ready goes whole

end Sys2Proof.Machine
end

section
/-!
SUPPORT. The statement on writes of the fault registers: its clauses where the stored registers are in their form, and the state that refutes
it.
-/
namespace Sys2Proof.Machine

/-! FLT_ACK, FLT_PTR.RD and RELEASE (R366, R370, R373). -/

/-- A register below 0x03_0000 with no behaviour of its own and no RWL field: its writable bits are set, and what follows from them happens. -/
theorem State.writeAt_low {s : State} {o : Nat} (v : Word) (h : s.pilotOnly = false) (low : o < 0x30000) (own : s.writeOwnLow o v = none)
    (free : rwlMask o = 0) (writable : rwMask o ≠ 0) :
    s.writeAt o v = (s.onCore (Core.setReg o ((s.reg o &&& ~~~(rwMask o)) ||| (v &&& rwMask o)))).afterLow o (s.reg o) v := by
  have fields := State.storeFields_rw (s := s) v free
  have holdup : o ≠ 0x30100 := by omega
  simp only [State.writeAt, State.regWrite, State.reached h, holdup, low, own, writable, fields, Bool.false_eq_true, if_false, if_true]

/-- A register write after which the stored registers are as one other than INST_ID was set, where they were in their form. -/
theorem State.writes_setReg {s t : State} {f : State → State} {o : Nat} {w : Word} (idle : s.tow.waiting = [])
    (form : mrising 0 s.core.regs = true) (other : offInstId ≠ o) (e : f s = t) (r : t.core.regs = (s.core.setReg o w).regs) :
    s.writes f = .next (State.finish s t) := by
  have kept : t.core.self = s.core.self := by
    have same : t.core.reg offInstId = (s.core.setReg o w).reg offInstId := by unfold Core.reg; rw [r]
    exact congrArg (BitVec.extractLsb' 0 6) (same.trans (Core.reg_setReg_other w form other))
  rw [State.writes_to idle e, State.idMoved_same kept]
  rfl

theorem State.writeAt_fltAck {s : State} {v : Word} (h : s.pilotOnly = false) (ack : bit v 16 = true) :
    s.writeAt 0x20408 v =
      (s.onCore (Core.setReg 0x20408 ((s.reg 0x20408 &&& ~~~0x7FF) ||| (v &&& 0x7FF)))).onCore (Core.fltAck (bits v 10 0)) := by
  rw [State.writeAt_low v h (by decide) rfl rfl (by decide)]
  exact if_pos ack

theorem State.writeAt_fltPtrRd {s : State} (v : Word) (h : s.pilotOnly = false) :
    s.writeAt 0x20410 v = s.onCore (Core.fltRd (BitVec.ofNat 11 (bits v 26 16))) := by
  have own : s.writeOwnLow 0x20410 v = some (s.onCore (Core.fltRd (BitVec.ofNat 11 (bits v 26 16)))) := rfl
  have low : 0x20410 < 0x30000 := by decide
  have holdup : 0x20410 ≠ 0x30100 := by decide
  simp only [State.writeAt, State.regWrite, State.reached h, holdup, low, own, Bool.false_eq_true, if_false, if_true]

theorem State.writeAt_errOut {s : State} (v : Word) (h : s.pilotOnly = false) :
    s.writeAt 0x20440 v =
      (s.onCore (Core.setReg 0x20440 ((s.reg 0x20440 &&& ~~~0x303FF) ||| (v &&& 0x303FF)))).afterLow 0x20440 (s.reg 0x20440) v :=
  State.writeAt_low v h (by decide) rfl rfl (by decide)

/-- The first clause of `FaultRegisterWrites`, of states whose registers are in their form. -/
theorem exec_fltAckWrite_acks {s : State} {v : Word} (a : s.Able) (h : s.pilotOnly = false) (form : mrising 0 s.core.regs = true)
    (ack : bit v 16 = true) : exec (.fltAckWrite v) s = .next (State.finish s
      ((s.onCore (Core.setReg 0x20408 ((s.reg 0x20408 &&& ~~~0x7FF) ||| (v &&& 0x7FF)))).onCore (Core.fltAck (bits v 10 0)))) :=
  State.writes_setReg (o := 0x20408) a.2 form (by decide) (State.writeAt_fltAck h ack) rfl

theorem Core.fltRd_regs (rd : BitVec 11) (k : Core) : (k.fltRd rd).regs = k.regs := by
  unfold Core.fltRd
  split <;> rfl

/-- Its second clause, of every state: the write stores no register. -/
theorem exec_fltPtrRdWrite_moves {s : State} (v : Word) (a : s.Able) (h : s.pilotOnly = false) :
    exec (.fltPtrRdWrite v) s = .next (State.finish s (s.onCore (Core.fltRd (BitVec.ofNat 11 (bits v 26 16))))) :=
  State.writes_to_of_regs a.2 (State.writeAt_fltPtrRd v h) (Core.fltRd_regs _ _)

/-- Its clauses on RELEASE, of states whose registers are in their form: each bit written as 1 releases its pin, both bits both. -/
theorem exec_errOutRelease_releases {s : State} (v : Word) (a : s.Able) (h : s.pilotOnly = false) (form : mrising 0 s.core.regs = true) :
    let t := s.onCore (Core.setReg 0x20440 ((s.reg 0x20440 &&& ~~~0x303FF) ||| (v &&& 0x303FF)))
    let u := if bit v 24 then t.onCore (Core.pinRelease 0) else t
    exec (.errOutRelease v) s = .next (State.finish s (if bit v 25 then u.onCore (Core.pinRelease 1) else u)) :=
  State.writes_setReg (o := 0x20440) a.2 form (by decide) (State.writeAt_errOut v h) (by cases bit v 24 <;> cases bit v 25 <;> rfl)

/-! A state whose stored registers are not in their form: FLT_ACK is listed before INST_ID, which reads its reset value behind it. -/

def ackBehind : State := resting ((0x20408, 1) :: (0x10, 5) :: ignoring) .standby [] [] 0

/-- ACK of source 0 takes FLT_ACK's entry out, and INST_ID reads 5 behind it. -/
theorem ackBehind_write : ackBehind.writeAt 0x20408 0x10000 = onceListed .standby [] [] 0 := by rfl

/-- R4's effect there shows at the end of a step that began with no pair running and no command waiting. -/
theorem State.finish_onceListed_upset {s0 : State} (dark : ∀ p, s0.galRuns p = false) (idle : s0.tow.waiting = []) (b : BlockSt)
    (m : Map Slice) (n : Nat) : State.finish s0 (onceListed b m [] n).upset ≠ State.finish s0 (onceListed b m [] n) := by
  have ends (b : BlockSt) (m : Map Slice) {r : List FltEvent} (n : Nat) (h : r = [] ∨ ∃ e, r = [e] ∧ e.src < 2048) :
      (State.finish s0 (onceListed b m r n)).core.freeCtr = n :=
    (State.finish_freeCtr dark (fun p => by simp [State.galRuns, twiceListed, resting]) idle rfl _).trans (onceListed_finish b m n h)
  obtain ⟨b', m', r, k, upset, taken, events⟩ := onceListed_upset b m n
  intro same
  have count := congrArg (fun s : State => s.core.freeCtr) same
  rw [upset, ends b' m' k events, ends b m n (.inl rfl)] at count
  omega

/-- Refutes O21: it speaks of every list of stored registers, and in `ackBehind`, where FLT_ACK is listed before INST_ID, an ACK of source 0
takes FLT_ACK's entry out and uncovers INST_ID's, so that INST_ID has moved and R4's effect, which takes free values, follows. -/
theorem not_faultRegisterWrites : ¬ Obligations.FaultRegisterWrites := by
  rintro ⟨acks, -⟩
  have idle : ackBehind.tow.waiting = [] := rfl
  have claimed : exec (.fltAckWrite 0x10000) ackBehind = .next (State.finish ackBehind (onceListed .standby [] [] 0)) :=
    acks ackBehind 0x10000 ⟨rfl, idle⟩ rfl (by decide)
  have moved : ackBehind.idMoved (onceListed .standby [] [] 0) = true := by decide
  have actual : exec (.fltAckWrite 0x10000) ackBehind = .next (State.finish ackBehind (onceListed .standby [] [] 0).upset) :=
    (State.writes_to (f := State.writeAt 0x20408 0x10000) idle ackBehind_write).trans (by rw [if_pos moved])
  have dark (p : Nat) : ackBehind.galRuns p = false := by simp [State.galRuns, ackBehind, resting]
  exact State.finish_onceListed_upset dark idle _ _ _ (Host.Outcome.next.inj (actual.symm.trans claimed))

end Sys2Proof.Machine
end

section
/-!
SUPPORT. The statements on agents: admission and retirement, and the bits that they set and clear.
-/
namespace Sys2Proof.Machine

/-! The bits of an agent (R74, R391, R425). -/

/-- A bit of a word after a write of one of its fields. -/
theorem bit_withBits (w : Word) {hi lo i : Nat} (v : Nat) (short : i < 64) (field : lo ≤ hi) :
    bit (withBits w hi lo v) i = if lo ≤ i ∧ i ≤ hi then v.testBit (i - lo) else bit w i := by
  have mask : (BitVec.ofNat 64 ((2 ^ (hi - lo + 1) - 1) <<< lo)).getLsbD i = decide (lo ≤ i ∧ i ≤ hi) := by
    rw [BitVec.getLsbD_ofNat, Nat.testBit_shiftLeft, Nat.testBit_two_pow_sub_one]
    simp only [short, decide_true, Bool.true_and, ← Bool.decide_and, decide_eq_decide]
    omega
  simp only [bit, withBits, BitVec.getLsbD_or, BitVec.getLsbD_and, BitVec.getLsbD_not, mask, BitVec.getLsbD_ofNat, Nat.testBit_shiftLeft,
    short, decide_true, Bool.true_and]
  split
  · next inside => simp [inside]
  · next outside => simp [outside]

/-- ADMITTED as a bit of its register. -/
theorem Core.admitted_eq (s : Core) (a : AgentId) : s.admitted a = bit (s.reg (0x4000 + a.toNat / 16 * 8)) (4 * (a.toNat % 16) + 2) := by
  unfold Core.admitted Core.agentLane bits bit
  dsimp only
  rw [Nat.testBit_mod_two_pow, BitVec.testBit_toNat, BitVec.getLsbD_ushiftRight]
  simp only [Bool.and_eq_right_iff_imp, decide_eq_true_eq]
  omega

theorem Core.setAdmitted_same (a : AgentId) (v : Bool) {s : Core} (form : mrising 0 s.regs = true) :
    (s.setAdmitted a v).admitted a = v := by
  rw [Core.admitted_eq, Core.setAdmitted, Core.reg_setReg_same _ _ form, bit_withBits _ _ (by omega) (Nat.le_refl _)]
  cases v <;> simp

theorem Core.setAdmitted_other {a b : AgentId} (v : Bool) {s : Core} (form : mrising 0 s.regs = true) (other : b ≠ a) :
    (s.setAdmitted a v).admitted b = s.admitted b := by
  have apart : a.toNat ≠ b.toNat := fun e => other (BitVec.eq_of_toNat_eq e).symm
  rw [Core.admitted_eq, Core.admitted_eq, Core.setAdmitted]
  by_cases register : b.toNat / 16 = a.toNat / 16
  · rw [register, Core.reg_setReg_same _ _ form, bit_withBits _ _ (by omega) (Nat.le_refl _), if_neg (by omega)]
  · rw [Core.reg_setReg_other _ form (by omega)]

theorem getLsbD_clearBit {w : Nat} (v : BitVec w) {i k : Nat} (short : k < w) :
    (clearBit v i).getLsbD k = (v.getLsbD k && decide (k ≠ i)) := by
  simp only [clearBit, oneHot, BitVec.getLsbD_and, BitVec.getLsbD_not, BitVec.getLsbD_ofNat, short, decide_true, Bool.true_and,
    Nat.testBit_two_pow, decide_not, eq_comm]

/-- An agent ID is its instance and its local number (R7). -/
theorem agentId_split (a : AgentId) : agentId (agentInst a) (agentLocal a) = a :=
  BitVec.extractLsb'_append_extractLsb' (w := 6) (len := 6)

/-- The tombstones of an instance after one of an agent is cleared. -/
theorem Core.untomb_tombs (a : AgentId) {s : Core} (form : Map.wf 0 s.host.tomb = true) (j : Nat) :
    mget 0 (s.untomb a).host.tomb j = if j = (agentInst a).toNat
      then clearBit (mget 0 s.host.tomb j) (agentLocal a).toNat else mget 0 s.host.tomb j := by
  split
  · next e => subst e; exact mget_mset_same (Map.rising_of_wf form)
  · next e => exact mget_mset_other (Map.rising_of_wf form) e

theorem Core.untomb_same (a : AgentId) {s : Core} (form : Map.wf 0 s.host.tomb = true) : (s.untomb a).tombed a = false := by
  rw [Core.tombed, Core.untomb_tombs a form, if_pos rfl, getLsbD_clearBit _ (agentLocal a).isLt]
  simp

theorem Core.untomb_other {a b : AgentId} {s : Core} (form : Map.wf 0 s.host.tomb = true) (other : b ≠ a) :
    (s.untomb a).tombed b = s.tombed b := by
  rw [Core.tombed, Core.untomb_tombs a form, Core.tombed]
  split
  · next inst =>
    have loc : (agentLocal b).toNat ≠ (agentLocal a).toNat := fun e => other (by
      rw [← agentId_split b, ← agentId_split a, BitVec.eq_of_toNat_eq inst, BitVec.eq_of_toNat_eq e])
    rw [getLsbD_clearBit _ (agentLocal b).isLt]
    simp [loc]
  · rfl

/-- Settles O32: a bit of a register or of an instance's tombstones after a write of one of its bits, by whether two agents share it. -/
theorem admittedBit : Obligations.AdmittedBit :=
  ⟨fun a v _ form => ⟨Core.setAdmitted_same a v form, fun _ other => Core.setAdmitted_other v form other⟩,
    fun a _ form => ⟨Core.untomb_same a form, fun _ other => Core.untomb_other form other⟩⟩

/-! The commands (R429, R525). -/

section Agent
variable {s : State} {cmd : Nat} {a : AgentId}

theorem State.agentAdmit_sets (free : s.core.tombed a = false ∨ agentInst a ≠ s.self) :
    s.agentAdmit cmd a = (s.onCore (fun k => (k.untomb a).setAdmitted a true)).complete cmd tsOk 0 [] := by
  have clear : ¬(s.core.tombed a && agentInst a = s.self) = true := by
    rcases free with e | e <;> simp [e]
  exact if_neg clear

theorem State.agentAdmit_sweeps (tomb : s.core.tombed a = true) (own : agentInst a = s.self) :
    s.agentAdmit cmd a =
      (s.onCore (Core.sweepHere (agentLocal a))).onStart (fun x => { x with admits := x.admits ++ [⟨cmd, a, 0⟩] }) :=
  if_pos (by simp [tomb, own])

theorem State.agentRetire_other (other : agentInst a ≠ s.self) :
    s.agentRetire cmd a = (s.onCore (Core.setAdmitted a false)).complete cmd tsOk 0 [] := if_neg other

theorem State.agentRetire_own (own : agentInst a = s.self) :
    s.agentRetire cmd a = s.onStart (fun x => { x with retires := x.retires ++ [⟨cmd, a, false, false⟩] }) := if_pos own

theorem State.retireLimit_declares (waits : s.start.retires.any (fun r => r.agent = a && !r.dead) = true) :
    s.retireLimit a = (s.onStart (fun x => { x with
      retires := updateWhere (fun r => r.agent = a) (fun r => { r with dead := true, late := true }) x.retires })).onCore
        (Core.declare 7 (agentInst a) (oneHot 64 (agentLocal a).toNat)) := if_pos waits

theorem State.admitDone_ends {d : Admit} (found : s.start.admits.find? (fun e => e.agent = a) = some d) (read : s.core.buckets ≤ d.next)
    (clean : s.core.sweeping (agentLocal a) = false) :
    s.admitDone a = ((s.onStart (fun x => { x with admits := x.admits.filter (fun e => e.cmd != d.cmd) })).onCore
      (fun k => (k.untomb a).setAdmitted a true)).complete d.cmd tsOk 0 [] := by
  unfold State.admitDone
  rw [found]
  exact if_neg (by simp [clean, read])

end Agent

/-- Settles O31: each row's own run in the state in which it begins, by the agent's tombstone and instance, and the two ends of what waits. -/
theorem agentCommands : Obligations.AgentCommands := by
  refine ⟨fun s c takes => ⟨fun free => ?admits, fun tomb own => ?sweeps⟩, fun s c takes => ⟨fun other => ?clears, fun own => ?waits⟩,
    fun s a able waits => ?limit, fun s a d able found read clean => ?done⟩
  case admits => exact State.does_towRow_to takes (State.agentAdmit_sets free)
  case sweeps => exact State.does_towRow_to takes (State.agentAdmit_sweeps tomb own)
  case clears => exact State.does_towRow_to takes (State.agentRetire_other other)
  case waits => exact State.does_towRow_to takes (State.agentRetire_own own)
  case limit => exact State.doesOn_next_to able (State.retireLimit_declares waits)
  case done => exact State.doesOn_next_to able (State.admitDone_ends found read clean)

end Sys2Proof.Machine
end

section
/-!
SUPPORT. The statement on fault collection: escalation, coalescing, the log ring, the error pins, the Lockkeeper's vote and the effects of a
severity.
-/
namespace Sys2Proof.Machine

/-! Escalation (R367). -/

/-- In a list that rises the first element with a property is the least. -/
theorem find?_least {p : Nat → Bool} {v : Nat} : ∀ {l : List Nat}, l.Pairwise (· < ·) → v ∈ l → p v = true → (∀ w ∈ l, p w = true → v ≤ w) →
    l.find? p = some v
  | [], _, mem, _, _ => nomatch mem
  | w :: l, rising, mem, holds, least => by
    obtain ⟨below, rest⟩ := List.pairwise_cons.mp rising
    rcases List.mem_cons.mp mem with rfl | mem
    · exact List.find?_cons_of_pos holds
    · have past : ¬p w = true := fun e => by
        have := least w List.mem_cons_self e
        have := below v mem
        omega
      rw [List.find?_cons_of_neg past]
      exact find?_least rest mem holds fun u m => least u (List.mem_cons_of_mem _ m)

theorem escPath_rising (u : UnitKind) : (escPath u).Pairwise (· < ·) := by cases u <;> decide

/-- The next step of a unit's path above a severity, if there is one. -/
def escStep (u : UnitKind) (sev : Nat) : Option Nat := (escPath u).find? (fun v => decide (sev < v))

theorem escStep_least {u : UnitKind} {sev v : Nat} (mem : v ∈ escPath u) (above : sev < v) (least : ∀ w ∈ escPath u, sev < w → v ≤ w) :
    escStep u sev = some v :=
  find?_least (escPath_rising u) mem (decide_eq_true above) fun w m e => least w m (of_decide_eq_true e)

theorem escStep_above {u : UnitKind} {sev v : Nat} (next : escStep u sev = some v) : v ∈ escPath u ∧ sev < v :=
  ⟨List.mem_of_find?_eq_some next, of_decide_eq_true (List.find?_some (p := fun v => decide (sev < v)) next)⟩

/-- Write a slot. -/
def Core.putEscSlot (j : Nat) (x : EscSlot) (k : Core) : Core :=
  { k with flt := { k.flt with slots := mset none k.flt.slots j (some x) } }

section Slot
variable {k : Core} {j : Nat}

theorem Core.escExpiry_empty (empty : mget none k.flt.slots j = none) : k.escExpiry j = k := by
  unfold Core.escExpiry
  rw [empty]

variable {x : EscSlot} (held : mget none k.flt.slots j = some x)
include held

theorem Core.escExpiry_stopped (stopped : x.stopped = true) : k.escExpiry j = k := by
  unfold Core.escExpiry
  rw [held]
  exact if_pos stopped

/-- The timer stops where its unit's path has no step left below the ceiling. -/
theorem Core.escExpiry_stops (runs : x.stopped = false)
    (top : ∀ v, escStep (unitOf (x.src / 32) (x.src % 32)) x.sev = some v → bits (k.reg 0x20400) 19 17 < v) :
    k.escExpiry j = k.putEscSlot j { x with stopped := true } := by
  unfold Core.escExpiry
  rw [held]
  simp only [runs, Bool.false_eq_true, if_false]
  split
  · rfl
  · next v found => exact if_pos (top v found)

/-- A slot whose unit is no agent takes its next step: one escalation entry, its pins and its action. -/
theorem Core.escExpiry_steps {v : Nat} (runs : x.stopped = false) (unit : unitOf (x.src / 32) (x.src % 32) ≠ .agent)
    (next : escStep (unitOf (x.src / 32) (x.src % 32)) x.sev = some v) (low : v ≤ bits (k.reg 0x20400) 19 17) :
    k.escExpiry j = ((((k.putEscSlot j { x with sev := v, expiry := k.tb + k.escTb }).makeEntry x.src v kindEscalation 0
      (BitVec.ofNat 24 x.sev) 0).firePins v).act v x.src x.cause x.agents) := by
  unfold escStep at next
  unfold Core.escExpiry
  rw [held]
  simp only [runs, Bool.false_eq_true, if_false, next, if_neg (Nat.not_lt.mpr low), unit, decide_false, Bool.false_and]
  rfl

end Slot

/-! Coalescing windows (R371). -/

section Window
variable {k : Core} {src : Nat}

theorem Core.coalClose_none (absent : k.flt.windows.find? (fun w => w.src = src) = none) : k.coalClose src = k := by
  unfold Core.coalClose
  rw [absent]

variable {w : CoalWin} (found : k.flt.windows.find? (fun w => w.src = src) = some w)
include found

theorem Core.coalClose_idle (idle : w.count = 0) :
    k.coalClose src = { k with flt := { k.flt with windows := k.flt.windows.filter (fun v => v.src != src) } } := by
  unfold Core.coalClose
  rw [found]
  exact if_pos idle

/-- A window that counted events ends in a repeat summary, whose DATA is a free value. -/
theorem Core.coalClose_counted (counted : w.count ≠ 0) :
    k.coalClose src = ({ k with
      freeCtr := k.freeCtr + 1
      flt := { k.flt with windows := k.flt.windows.filter (fun v => v.src != src) } } : Core).makeEntry src w.sev kindRepeat
        (Nat.min 255 w.count) 0 (Config.freeWord k.freeCtr) := by
  unfold Core.coalClose
  rw [found]
  exact if_neg counted

end Window

/-! The log ring (R370, R372). -/

/-- An entry reaches the ring, or is counted as lost where that is full. -/
def Core.ringTake (e : BitVec 256) (k : Core) : Core := if k.flt.ringFull then k.ringLost e else k.ringWrite e

section Log
variable {k : Core}

theorem State.logWrite_takes {s : State} {e : BitVec 256} (h : s.core.logWrite = k.ringTake e) :
    s.onCore Core.logWrite = if k.flt.ringFull then { s with core := k.ringLost e } else { s with core := k.ringWrite e } := by
  have takes : s.onCore Core.logWrite = { s with core := k.ringTake e } := by rw [← h]; rfl
  rw [takes, Core.ringTake]
  split <;> rfl

theorem Core.logWrite_idle (made : k.flt.made = []) (queue : k.flt.queue = []) : k.logWrite = k := by
  simp [Core.logWrite, made, queue]

/-- No loss summary goes first where no loss is due or the ring is still full. -/
theorem Faults.lossWaits {f : Faults} (h : f.lossDue = 0 ∨ f.ringFull = true) : (f.lossDue != 0 && !f.ringFull) = false := by
  rcases h with h | h <;> simp [h]

theorem Core.logWrite_made {e : BitVec 256} {l : List (BitVec 256)} (waits : k.flt.lossDue = 0 ∨ k.flt.ringFull = true)
    (made : k.flt.made = e :: l) : k.logWrite = ({ k with flt := { k.flt with made := l } } : Core).ringTake e := by
  unfold Core.logWrite
  rw [Faults.lossWaits waits, made]
  rfl

theorem Core.logWrite_queue {e : BitVec 256} {l : List (BitVec 256)} (waits : k.flt.lossDue = 0 ∨ k.flt.ringFull = true)
    (made : k.flt.made = []) (queue : k.flt.queue = e :: l) :
    k.logWrite = ({ k with flt := { k.flt with queue := l } } : Core).ringTake e := by
  unfold Core.logWrite
  rw [Faults.lossWaits waits, made, queue]
  rfl

/-- A loss summary goes first once the ring has space again. -/
theorem Core.logWrite_loss (due : k.flt.lossDue ≠ 0) (space : k.flt.ringFull = false) (waits : k.flt.made ≠ [] ∨ k.flt.queue ≠ []) :
    k.logWrite = ({ k with flt := { k.flt with seq := k.flt.seq + 1, lossDue := 0, lossSev := 0 } } : Core).ringWrite
      (mkEntry k.flt.seq k.tb 0 k.flt.lossSev kindLoss 0 0 0 0
        (BitVec.ofNat 64 (Nat.min 0xFFFFFFFF k.flt.lossDue + k.flt.lossSev * 2 ^ 32))) := by
  have pending : (k.flt.made.isEmpty && k.flt.queue.isEmpty) = false := by
    rcases waits with h | h <;> simp [h]
  have first : (k.flt.lossDue != 0 && !k.flt.ringFull) = true := by simp [due, space]
  simp only [Core.logWrite, pending, first, Bool.false_eq_true, if_false, if_true]

end Log

/-! The error pins (R373). -/

/-- A pin after its pulse. -/
def Core.pinRests (k : Core) (p : ErrPin) (b : Nat) : ErrPin := ⟨k.block = .sealed_ || (bit (k.reg 0x20440) b && !p.release), false, false⟩

theorem Core.pulseEnd_idle {k : Core} {i : Fin 2} (idle : (if i = 0 then k.flt.pin0 else k.flt.pin1).pulse = false) : k.pulseEnd i = k := by
  simp only [Core.pulseEnd, idle, Bool.not_false, if_true]

theorem Core.pulseEnd_zero {k : Core} (pulse : k.flt.pin0.pulse = true) :
    k.pulseEnd 0 = { k with flt := { k.flt with pin0 := k.pinRests k.flt.pin0 16 } } := by
  unfold Core.pulseEnd
  exact if_neg (by simp [pulse])

theorem Core.pulseEnd_one {k : Core} (pulse : k.flt.pin1.pulse = true) :
    k.pulseEnd 1 = { k with flt := { k.flt with pin1 := k.pinRests k.flt.pin1 17 } } := by
  unfold Core.pulseEnd
  exact if_neg (by simp [pulse])

/-! The Lockkeeper's vote (R358). -/

section Vote
variable {k : Core} {i : Fin 3}

theorem Core.lkMismatch_first (first : k.flt.masked = 0) :
    k.lkMismatch i = ({ k with flt := { k.flt with masked := setBit k.flt.masked i.val } } : Core).raise famLkVote i.val := by
  simp [Core.lkMismatch, first]

theorem Core.lkMismatch_masked (masked : k.flt.masked.getLsbD i.val = true) : k.lkMismatch i = k := if_pos masked

theorem Core.lkMismatch_second (second : k.flt.masked ≠ 0) (unmasked : k.flt.masked.getLsbD i.val = false) :
    k.lkMismatch i = k.sealBlock :=
  (if_neg (Bool.eq_false_iff.mp unmasked)).trans (if_neg second)

end Vote

/-! What an event's severity does (R363, R365). -/

section Handle
variable {k : Core} {e : FltEvent}

theorem Core.handle_log (v : k.severityOf e.src ≤ 1) : k.handle e = k := by
  have low : k.severityOf e.src ≤ 2 := by omega
  simp only [Core.handle, v, low, if_true]

theorem Core.handle_notify (v : k.severityOf e.src = 2) : k.handle e = k.setReg offIrqFlt (k.reg offIrqFlt ||| 1) := by
  simp [Core.handle, v]

/-- URGENT has no action of its own. -/
theorem Core.handle_urgent (v : k.severityOf e.src = 3) :
    k.handle e = ((k.setReg offIrqFlt (k.reg offIrqFlt ||| 3)).firePins 3).escalate e 3 := by
  simp [Core.handle, v, Core.act]

end Handle

/-- Settles O57: a timer by what its slot holds and the next step of its path, a window by its count, the collector by what waits and the
ring's space, a pin by its pulse, a vote by the copies masked, and an event by its severity. -/
theorem faultCollection : Obligations.FaultCollection := by
  refine ⟨fun s j able => ⟨fun empty => ?empty, fun x held => ⟨fun stopped => ?stopped, fun runs top => ?stops,
      fun v runs mem above least low unit => ?steps⟩⟩,
    ⟨rfl, rfl, rfl, rfl, rfl, rfl⟩,
    fun s src able => ⟨fun absent => ?noWindow, fun w found => ⟨fun idle => ?idle, fun counted => ⟨Config.freeWord s.core.freeCtr, ?counted⟩⟩⟩,
    fun s able => ⟨fun made queue => ?noEntry,
      fun waits => ⟨fun e l made => ?made, fun e l made queue => ?queue⟩, fun due space waits => ?loss,
      ⟨fun idle => ?idle0, fun idle => ?idle1, fun pulse => ?pulse0, fun pulse => ?pulse1⟩,
      fun i => ⟨fun first => ?first, fun masked => ?masked, fun second unmasked => ?second⟩⟩,
    fun k e => ⟨Core.handle_log, Core.handle_notify, Core.handle_urgent⟩⟩
  case empty => exact State.doesOn_onCore_to able (Core.escExpiry_empty empty)
  case stopped => exact State.doesOn_onCore_to able (Core.escExpiry_stopped held stopped)
  case stops =>
    refine State.doesOn_onCore_to able (Core.escExpiry_stops held runs fun v next => ?_)
    obtain ⟨mem, above⟩ := escStep_above next
    exact (top v mem).resolve_left (Nat.not_le.mpr above)
  case steps => exact State.doesOn_onCore_to able (Core.escExpiry_steps held runs unit (escStep_least mem above least) low)
  case noWindow => exact State.doesOn_onCore_to able (Core.coalClose_none absent)
  case idle => exact State.doesOn_onCore_to able (Core.coalClose_idle found idle)
  case counted => exact State.doesOn_onCore_to able (Core.coalClose_counted found counted)
  case noEntry => exact State.doesOn_onCore_to able (Core.logWrite_idle made queue)
  case made => exact State.doesOn_next_to able (State.logWrite_takes (Core.logWrite_made waits made))
  case queue => exact State.doesOn_next_to able (State.logWrite_takes (Core.logWrite_queue waits made queue))
  case loss => exact State.doesOn_onCore_to able (Core.logWrite_loss due space waits)
  case idle0 => exact State.doesOn_onCore_to able (Core.pulseEnd_idle idle)
  case idle1 => exact State.doesOn_onCore_to able (Core.pulseEnd_idle idle)
  case pulse0 => exact State.doesOn_onCore_to able (Core.pulseEnd_zero pulse)
  case pulse1 => exact State.doesOn_onCore_to able (Core.pulseEnd_one pulse)
  case first => exact State.doesOn_onCore_to able (Core.lkMismatch_first first)
  case masked => exact State.doesOn_onCore_to able (Core.lkMismatch_masked masked)
  case second => exact State.doesOn_onCore_to able (Core.lkMismatch_second second unmasked)

end Sys2Proof.Machine
end

section
/-!
SUPPORT. The statements on a step and its queue, and on what every command keeps: the queue, and the soundness of the interrupt controller.
-/
namespace Sys2Proof.Machine

/-- A command of a listed row keeps what every command keeps. -/
theorem State.does_towRow_kept {r : TowRow} {c : TowCmd} {s t : State} (listed : rowOf r.op = some r)
    (h : s.does (State.towRow r c) = .next t) : Kept s t :=
  State.does_kept (fun _ => State.towRow_kept r (rowOf_kept listed) c) h

theorem State.writes_towRow_kept {r : TowRow} {c : TowCmd} {s t : State} (listed : rowOf r.op = some r)
    (h : s.writes (State.towRow r c) = .next t) : Kept s t :=
  State.writes_kept (fun _ => State.towRow_kept r (rowOf_kept listed) c) h

/-- A command whose effect is the engine's alone. -/
theorem State.doesOn_onCore_kept {f : Core → Core} {s t : State} (h : s.doesOn (State.onCore f) = .next t) : Kept s t :=
  State.doesOn_kept (fun _ => State.onCore_kept f) h

theorem execSievePatrol_kept {p : Fin 18} {errs : List PatrolErr} {s t : State} (h : execSievePatrol p errs s = .next t) : Kept s t := by
  unfold execSievePatrol at h
  split at h
  · cases h
    exact Kept.refl s
  · exact State.doesOn_onCore_kept h

theorem execDatE_kept {src : Src} {hd : Hdr} {d : Beats} {s t : State} (h : execDatE src hd d s = .next t) : Kept s t := by
  cases src with
  | fabric f => exact State.fabricArrive_kept h
  | culvert n => exact State.chipArrive_kept h

/-- One case for each operation that a command's effect is. -/
theorem exec_kept {i : Instr} {s t : State} (h : exec i s = .next t) : Kept s t := by
  cases i with
  | nop | identify | tagQuery | transportReset | regRead | regReadBlock | charterCheck | charterCommit | charterRelease | discover | genAdvance |
  serviceEnter | agentAdmit | agentRetire | slicePower | sliceSpare | sliceServe | sliceDrain | sliceSwap | sliceFailover | lsRebuild |
  mcLoadOpen | mcLoadData | mcLoadClose | mcActivate | mcProofStart | mcProofEnd | mcProofLogRead | mcDiscard | lkOverlay | dirDump | dirRebuild
  | larderRead | maintAddr | maintEntry | culRetrain | culSpare | culRouteReturn | culStatus | pwrTrim | pwrIdle | pwrDeep | pwrHalf | pfRelease
  | portPower | cntRead | logbookRead | dumpNow | logRead | fltInject | sealBlock =>
    exact State.does_towRow_kept rfl h
  | regWrite | regWriteMasked | charterLoad => exact State.writes_towRow_kept rfl h
  | streamPacket words => exact State.writes_kept (fun _ => State.streamPacket_kept words) h
  | dbRing w => exact State.writes_kept (fun _ => State.ring_kept w) h
  | twoWireWrite bytes => exact State.writes_kept (fun _ => State.wireWrite_kept bytes) h
  | twoWireRead n => exact State.does_kept (fun _ => State.wireRead_kept n) h
  | twoWireStretchTimeout => exact State.does_kept (fun _ => State.wireTimeout_kept) h
  | towRplCrd => exact State.doesOn_kept (fun _ => State.rplCredit_kept) h
  | mmioAccess f w size off v id => exact State.writes_kept (fun _ => State.mmio_kept f w size off v id) h
  | genericRegisterWrite off v => exact State.writes_kept (fun _ => State.writeGeneric_kept off.toNat v) h
  | irqClaim | irqCountRead | fltStatRead | frzStatRead | foStatRead | pwrLeaveStatRead | dumpStatRead | logStatRead | gateStatRead | culCntRead |
  culLerrRead | galCntRead =>
    exact State.doesOn_kept (fun _ => State.readOut_kept _) h
  | irqEoi | irqRaisePush | irqPendWrite | fltAckWrite | fltPtrRdWrite | errOutRelease | galInjectGo | sieveRemapWrite | cntValWrite |
  logPtrRdWrite | logMemRdWrite | gatePauseWrite | gateUpdateWrite | clkSliceDivWrite | plCtlWake | culEnableWrite | culDisableWrite =>
    exact State.writes_kept (fun _ => State.writeAt_kept _ _) h
  | rdS | rdF | rdO | upg | rdNa | wrFull | wrPart | atom | wbD | settle => exact State.requestIn_kept h
  | undefinedMessage => exact State.fabricArrive_kept h
  | snpS | snpFs | snpFo | snpI | snpNa | snpQ | rspQ | cmp | cmpNear | cmpAtom | cmpSettle | cmpTrap | cmpHalt | cmpPoison | censusReq | credit
  | salvage | fenceAck | frzPing | frzPong | frzStart | frzDead | frzReady | frzThaw | commitReport | commitGo | commitAck | commitAll =>
    exact State.chipArrive_kept h
  | fence | hello => exact State.doesOn_kept (fun _ => State.culArrive_kept _ _) h
  | rspI | rspS | rspFwd | rspD | rspAbsent | rspWbx => exact State.responseIn_kept h
  | datS | datF | datM | datNa => exact State.dataIn_kept h
  | datE => exact execDatE_kept h
  | sievePatrol => exact execSievePatrol_kept h
  | chamberHead | simmerExpiry | wharfGrant | stampSweep | memReadData | memWack | memPack | overflowInsert | skilletBackgroundWrite |
  homeSieveBackgroundWb | censusWalkPage | fabricCreditReturn | snoopTimeout | pingTimeout | heartbeatTimeout | quietPeriodEnd | thawWaitTimeout |
  freezeLate | pingAnswer | escalationExpiry | coalesceWindowClose | logEntryWrite | errPulseEnd | lkVoteMismatch | failoverSettleDone |
  failoverTakeover | drainLateTimer | heartbeatToggle =>
    exact State.doesOn_onCore_kept h
  | admission p sel r err => exact State.doesOn_kept (fun _ => State.admission_kept p.val sel r err) h
  | scrubBurst => exact State.doesOn_kept (fun _ => State.scrubAsk_kept) h
  | flit n words => exact State.doesOn_kept (fun _ => State.flitIn_kept n.val words) h
  | ackToExpiry n rx => exact State.doesOn_kept (fun _ => State.ackTo_kept n.val rx) h
  | alignmentMarker n words => exact State.doesOn_kept (fun _ => State.alignment_kept n.val words) h
  | spareSwitchCodeword n rx => exact State.doesOn_kept (fun _ => State.switchCodeword_kept n.val rx) h
  | spareSwitchEnd n => exact State.doesOn_kept (fun _ => State.switchEnd_kept n.val) h
  | lossTimerExpiry n => exact State.doesOn_kept (fun _ => State.lossTimer_kept n.val) h
  | fenceLimitExpiry port => exact State.doesOn_kept (fun _ => State.fenceLimit_kept port.val) h
  | transitMessage n hops dl op hd d => exact State.doesOn_kept (fun _ => State.transitIn_kept n hops dl op hd d) h
  | culvertSend n => exact State.doesOn_kept (fun _ => State.culSend_kept n.val) h
  | serdesReady n signal lock => exact State.doesOn_kept (fun _ => State.serdesReady_kept n.val signal lock) h
  | laneSignalChange n lane signal lock => exact State.doesOn_kept (fun _ => State.laneSignal_kept n.val lane.val signal lock) h
  | trainingAdvance n blocks late sent => exact State.doesOn_kept (fun _ => State.trainAdvance_kept n.val blocks late sent) h
  | trainingBudgetExpiry n => exact State.doesOn_kept (fun _ => State.trainBudget_kept n.val) h
  | testWindowEnd n errs bits => exact State.doesOn_kept (fun _ => State.testEnd_kept n.val errs bits) h
  | retrainTimeout n => exact State.doesOn_kept (fun _ => State.retrainTimeout_kept n.val) h
  | idleFlitSend n => exact State.doesOn_kept (fun _ => State.culIdle_kept n.val) h
  | presenceChange l up =>
    exact State.doesOn_kept (fun _ s k => kept_ite (State.upset_kept _ (State.presence_kept l up s k)) (State.presence_kept l up s k)) h
  | commitReportTimeout => exact State.doesOn_kept (fun _ => State.commitReportLimit_kept) h
  | commitGoTimeout => exact State.doesOn_kept (fun _ => State.commitGoLimit_kept) h
  | helloResend => exact State.doesOn_kept (fun _ => State.helloResend_kept) h
  | discoverQuietEnd => exact State.doesOn_kept (fun _ => State.discQuiet_kept) h
  | discoverLimit => exact State.doesOn_kept (fun _ => State.discLimit_kept) h
  | galleyWindowClose p v => exact State.doesOn_kept (fun _ => State.galWindow_kept p.val v) h
  | registerSweep p r => exact State.doesOn_kept (fun _ s k => State.galSweep_kept p.val r _ (State.ungate_kept p.val s k)) h
  | galleyStall p => exact State.doesOn_kept (fun _ => State.galStall_kept p.val) h
  | quiescePoint p => exact State.doesOn_kept (fun _ => State.quiesce_kept p.val) h
  | proofLimitExpiry p => exact State.doesOn_kept (fun _ => State.galLimit_kept p.val) h
  | proofForceResync p => exact State.doesOn_kept (fun _ => State.galForce_kept p.val) h
  | imageVerifyDone p sig => exact State.doesOn_kept (fun _ => State.imageDone_kept p.val sig) h
  | wakingComplete p faults same => exact State.doesOn_kept (fun _ => State.wakeEnd_kept p.val faults same) h
  | drainComplete p => exact State.doesOn_kept (fun _ => State.drainComplete_kept p.val) h
  | agentRetireLimit a => exact State.doesOn_kept (fun _ => State.retireLimit_kept a) h
  | agentAdmitSweepDone a => exact State.doesOn_kept (fun _ => State.admitDone_kept a) h
  | overlayEnd sig ok result => exact State.doesOn_kept (fun _ => State.overlayEnd_kept sig ok result) h
  | pwrFailRecognise => exact State.does_kept (fun _ => State.powerFail_kept) h
  | pwrGoodRise => exact State.does_kept (fun _ => State.goodRise_kept) h
  | pwrGoodFall => exact State.does_kept (fun _ => State.goodFall_kept) h
  | alwaysOnSupplyOn straps good => exact State.does_kept (fun _ => State.supplyOn_kept straps good) h
  | alwaysOnSupplyOff => exact State.does_kept (fun _ => State.supplyOff_kept) h
  | initSelftestDone r => exact State.doesOn_kept (fun _ => State.selftest_kept r) h
  | pwrLeaveGnt raced => exact State.doesOn_kept (fun _ => State.leaveGnt_kept raced) h
  | leaveWaitTimeout => exact State.doesOn_kept (fun _ => State.leaveLate_kept) h
  | gntStuckTimeout => exact State.doesOn_kept (fun _ => State.gntStuck_kept) h
  | domainRegulation d => exact State.does_kept (fun _ => State.domainOn_kept d.val) h
  | domainPowerRemoved d => exact State.does_kept (fun _ => State.domainOff_kept d.val) h
  | idleGateClose g => exact State.doesOn_kept (fun _ => State.gateClose_kept g) h
  | clockAbsent d => exact State.doesOn_kept (fun _ => State.clockAbsent_kept d.val) h
  | clockReturn d => exact State.doesOn_kept (fun _ => State.clockReturn_kept d.val) h
  | wakeSlotFire k => exact State.does_kept (fun _ => State.wakeFire_kept k.val) h
  | pwrFailNRise => exact State.does_kept (fun _ => State.onCore_kept _) h
  | pwrLeaveGntFall early => exact State.doesOn_kept (fun _ => State.gntFall_kept early) h
  | wrapperUpdate ir => exact State.doesOn_kept (fun _ => State.wrapper_kept ir) h
  | wrapperReset => exact State.doesOn_kept (fun _ => State.wrapperReset_kept) h
  | extInputChange n up => exact State.does_kept (fun _ => State.extChange_kept n.val up) h
  | holdoffExpiry g => exact State.doesOn_kept (fun _ => State.holdoffEnd_kept g.val) h
  | imsgResendExpiry t => exact State.doesOn_kept (fun _ => State.imsgResend_kept t.val) h
  | imsgReady f => exact State.doesOn_kept (fun _ => State.imsgTaken_kept f.val) h
  | dumpPeriodExpiry => exact State.doesOn_kept (fun _ => State.dumpPeriod_kept) h
  | logbookSpill => exact State.doesOn_kept (fun _ => State.logSpillRun_kept) h
  | ageTick => exact State.doesOn_kept (fun _ => State.ageTick_kept) h
  | counterMcUpdate => exact State.doesOn_kept (fun _ => State.cntUpdate_kept) h
  | traceRecordWrite => exact State.doesOn_kept (fun _ => State.traceWrite_kept) h

theorem step_idle {s : State} (h : s.pending = []) : step s = .next s := by simp only [step, h]

theorem step_front {s : State} {i : Instr} {rest : List Instr} (h : s.pending = i :: rest) : step s = exec i { s with pending := rest } := by
  simp only [step, h]

/-- Settles O1: the two forms of the queue. -/
theorem stepTakesFrontCommand : Obligations.StepTakesFrontCommand :=
  ⟨fun _ _ _ => step_front, fun _ => step_idle⟩

/-- Settles O4: the queue is part of what every command keeps. -/
theorem commandsLeaveTheQueue : Obligations.CommandsLeaveTheQueue := by
  intro i s t h
  obtain ⟨queue, -⟩ := exec_kept h
  exact queue

/-- Settles O5: an idle step changes nothing, and any other is a command's, which keeps the controller sound. -/
theorem interruptControllerStaysSound : Obligations.InterruptControllerStaysSound := by
  intro s t ok h
  cases q : s.pending with
  | nil =>
    rw [step_idle q] at h
    cases h
    exact ok
  | cons i rest =>
    rw [step_front q] at h
    obtain ⟨-, sound⟩ := exec_kept h
    exact sound ok

/-- Settles O6: at reset nothing pends, and nothing is listed that could pass a limit. -/
theorem interruptControllerSoundAtReset : Obligations.InterruptControllerSoundAtReset := by
  have none_pends (k : Nat) (_ : irqReserved k = true) : State.reset.irq.pend.getLsbD k = false := BitVec.getLsbD_zero
  exact ⟨none_pends, nofun, nofun⟩

end Sys2Proof.Machine
end

section
/-!
SUPPORT. The statements on the interrupt controller's cycle: its frame, its samples, its lines and the selection of a source.
-/
namespace Sys2Proof.Machine

/-! Bits of a vector after one is written. -/

theorem getLsbD_setBit {w : Nat} (v : BitVec w) {i k : Nat} (short : k < w) : (setBit v i).getLsbD k = (v.getLsbD k || decide (k = i)) := by
  simp only [setBit, oneHot, BitVec.getLsbD_or, BitVec.getLsbD_ofNat, short, decide_true, Bool.true_and, Nat.testBit_two_pow, eq_comm]

theorem getLsbD_putBit {w : Nat} (v : BitVec w) {i k : Nat} (b : Bool) (short : k < w) :
    (putBit v i b).getLsbD k = if k = i then b else v.getLsbD k := by
  cases b with
  | false => simp [putBit, getLsbD_clearBit v short, Bool.and_comm]
  | true => simp [putBit, getLsbD_setBit v short, Bool.or_comm]

/-- A vector built bit by bit. -/
theorem getLsbD_foldl_setBit {w : Nat} (p : Nat → Bool) (l : List Nat) (v : BitVec w) {k : Nat} (short : k < w) :
    (l.foldl (fun (v : BitVec w) t => if p t then setBit v t else v) v).getLsbD k = (v.getLsbD k || (p k && decide (k ∈ l))) := by
  induction l generalizing v with
  | nil => simp
  | cons t l ih =>
    rw [List.foldl_cons, ih]
    by_cases e : k = t
    · subst e
      cases h : p k <;> simp [getLsbD_setBit v short]
    · cases h : p t <;> simp [getLsbD_setBit v short, e]

/-! The messages that a cycle presents (R458). -/

/-- From s to t only interrupt messages have left, and of the controller's targets no stack and no OVER has changed. -/
def State.Presents (s t : State) : Prop :=
  ∃ (l : List Out) (m : Map IrqTarget),
    t = { s with core := { s.core with out := l ++ s.core.out }, irq := { s.irq with targets := m } } ∧
    (∀ o ∈ l, ∃ (n : Nat) (a : Word) (d : BitVec 32), o = .imsg n a d) ∧
    ∀ n : Nat, (mget IrqTarget.none m n).stack = (s.tgt n).stack ∧ (mget IrqTarget.none m n).overflow = (s.tgt n).overflow

theorem State.Presents.refl (s : State) : s.Presents s := ⟨[], s.irq.targets, rfl, fun _ h => absurd h List.not_mem_nil, fun _ => ⟨rfl, rfl⟩⟩

theorem State.Presents.trans {s t u : State} (h : s.Presents t) (k : t.Presents u) : s.Presents u := by
  obtain ⟨l, m, rfl, messages, kept⟩ := h
  obtain ⟨l', m', rfl, messages', kept'⟩ := k
  refine ⟨l' ++ l, m', by simp, fun o ho => ?_, fun n => ?_⟩
  · exact (List.mem_append.mp ho).elim (messages' o) (messages o)
  · exact ⟨(kept' n).1.trans (kept n).1, (kept' n).2.trans (kept n).2⟩

/-- The target presents: SENT and the message that waits are all that changes in it. -/
theorem State.irqPresent_presents (n : Nat) (s : State) : s.Presents (s.irqPresent n) := by
  refine ⟨[_], _, rfl, fun o ho => ⟨_, _, _, List.mem_singleton.mp ho⟩, fun k => ?_⟩
  unfold mset
  rw [if_neg (by simp [IrqTarget.none])]
  by_cases e : k = n
  · subst e
    rw [mget_mput_same]
    exact ⟨rfl, rfl⟩
  · rw [mget_mput_other e]
    exact ⟨rfl, rfl⟩

theorem State.irqSend_presents (s0 : State) (d : BitVec 8) (n : Nat) (s : State) : s.Presents (State.irqSend s0 d n s) := by
  unfold State.irqSend
  split
  · exact s.irqPresent_presents n
  · exact .refl s

theorem State.irqSends_presents (s0 : State) (d : BitVec 8) (l : List Nat) (s : State) : s.Presents (foldS (State.irqSend s0 d) l s) := by
  induction l generalizing s with
  | nil => exact .refl s
  | cons n l ih => exact (State.irqSend_presents s0 d n s).trans (ih _)

/-- A cycle samples, presents messages, and leaves the lines it drove and what the next one is to drive. -/
theorem State.irqCycle_presents (s t : State) : ∃ u : State, t.irqSampleAll.Presents u ∧
    State.irqCycle s t = { u with irq := { u.irq with deliv := s.delivNow, out := t.irqOut } } :=
  ⟨_, State.irqSends_presents s s.delivNow (List.range 8) t.irqSampleAll, rfl⟩

/-! The samples (R450 to R452, R467). -/

theorem State.irqSample_shape (s : State) (i : Irq) (k : Nat) : ∃ (a b : BitVec 256) (c : Map Nat),
    s.irqSample i k = { i with level := a, count := c, pend := b } := by
  unfold State.irqSample
  split
  · exact ⟨i.level, i.pend, i.count, rfl⟩
  · exact ⟨_, _, _, rfl⟩

/-- The samples of a list of sources change levels, counts and pending bits. -/
theorem State.irqSamples_shape (s : State) (l : List Nat) (i : Irq) : ∃ (a b : BitVec 256) (c : Map Nat),
    l.foldl s.irqSample i = { i with level := a, count := c, pend := b } := by
  induction l generalizing i with
  | nil => exact ⟨i.level, i.pend, i.count, rfl⟩
  | cons k l ih =>
    obtain ⟨a, b, c, h⟩ := s.irqSample_shape i k
    obtain ⟨a', b', c', h'⟩ := ih { i with level := a, count := c, pend := b }
    exact ⟨a', b', c', by rw [List.foldl_cons, h, h']⟩

theorem State.irqSampleAll_shape (t : State) : ∃ i : Irq, t.irqSampleAll = { t with irq := i } ∧ i.targets = t.irq.targets ∧
    i.hold = t.irq.hold ∧ i.ext = t.irq.ext := by
  obtain ⟨a, b, c, h⟩ := t.irqSamples_shape (List.range 128) (t.irq.toggle t)
  unfold State.irqSampleAll
  dsimp only
  rw [h]
  exact ⟨_, rfl, rfl, rfl, rfl⟩

/-- What the controller holds of one source: its level, its count and its pending bit. -/
def Irq.source (i : Irq) (k : Nat) : Bool × Nat × Bool := (i.level.getLsbD k, mget 0 i.count k, i.pend.getLsbD k)

/-- A sample leaves the other sources as they were, and a source that has no condition. -/
theorem State.irqSample_other (s : State) (i : Irq) {j k : Nat} (other : k ≠ j ∨ (irqSoft k || irqReserved k) = true) (short : k < 256) :
    (s.irqSample i j).source k = i.source k := by
  unfold State.irqSample
  split
  · rfl
  · next hard =>
    have other : k ≠ j := other.elim id (fun unsampled e => hard (e ▸ unsampled))
    have count (b : Bool) : mget 0 (if b then mset 0 i.count j (Nat.min 255 (mget 0 i.count j + 1)) else i.count) k = mget 0 i.count k := by
      split
      · unfold mset
        rw [if_neg (by simp [Nat.min_def]; split <;> omega), mget_mput_other other]
      · rfl
    simp only [Irq.source, getLsbD_putBit _ _ short, other, if_false, count]

theorem State.irqSamples_other (s : State) {k : Nat} (short : k < 256) {l : List Nat}
    (others : ∀ j ∈ l, k ≠ j ∨ (irqSoft k || irqReserved k) = true) (i : Irq) : (l.foldl s.irqSample i).source k = i.source k := by
  induction l generalizing i with
  | nil => rfl
  | cons j l ih =>
    obtain ⟨other, rest⟩ := List.forall_mem_cons.mp others
    exact (ih rest _).trans (s.irqSample_other i other short)

/-- The source that is sampled. -/
theorem State.irqSample_same (s : State) (i : Irq) {k : Nat} (hard : k < 128) (exists_ : irqReserved k = false) :
    let now := s.cond i k
    let sense := bits (s.irqCfg k) 1 0
    let ev := irqEvent sense (i.level.getLsbD k) now
    (s.irqSample i k).source k = (now, if ev then Nat.min 255 (mget 0 i.count k + 1) else mget 0 i.count k,
      if sense = 0 then (if now then i.pend.getLsbD k || !i.claimed.getLsbD k else i.pend.getLsbD k && i.wset.getLsbD k)
      else i.pend.getLsbD k || ev) := by
  intro now sense ev
  have soft : irqSoft k = false := by simp [irqSoft, hard]
  have count : mget 0 (if ev then mset 0 i.count k (Nat.min 255 (mget 0 i.count k + 1)) else i.count) k =
      if ev then Nat.min 255 (mget 0 i.count k + 1) else mget 0 i.count k := by
    split
    · unfold mset
      rw [if_neg (by simp [Nat.min_def]; split <;> omega), mget_mput_same]
    · rfl
  unfold State.irqSample
  simp only [soft, exists_, Bool.or_self, Bool.false_eq_true, if_false, Irq.source, getLsbD_putBit _ _ (show k < 256 by omega), if_true]
  rw [count]

/-- A sample looks at nothing that the samples before it have changed. -/
theorem State.irqSamples_same (s : State) {k : Nat} (hard : k < 128) (exists_ : irqReserved k = false) {l : List Nat} (once : l.Nodup)
    (listed : k ∈ l) (i : Irq) : (l.foldl s.irqSample i).source k = (s.irqSample i k).source k := by
  have short : k < 256 := by omega
  induction l generalizing i with
  | nil => exact nomatch listed
  | cons j l ih =>
    obtain ⟨absent, rest⟩ := List.nodup_cons.mp once
    rw [List.foldl_cons]
    by_cases e : k = j
    · subst e
      exact s.irqSamples_other short (fun j mem => .inl (ne_of_mem_of_not_mem mem absent).symm) _
    · rw [ih rest ((List.mem_cons.mp listed).resolve_left e)]
      have before := s.irqSample_other i (.inl e) short
      obtain ⟨a, b, c, h⟩ := s.irqSample_shape i j
      rw [h] at before ⊢
      obtain ⟨level, count, pend⟩ : a.getLsbD k = i.level.getLsbD k ∧ mget 0 c k = mget 0 i.count k ∧ b.getLsbD k = i.pend.getLsbD k := by
        simpa only [Irq.source, Prod.mk.injEq] using before
      have seen : s.cond { i with level := a, count := c, pend := b } k = s.cond i k := rfl
      rw [State.irqSample_same s _ hard exists_, State.irqSample_same s i hard exists_]
      simp only [seen, level, count, pend]

/-! The best of a list (R456). -/

/-- What an order by keys picks is in the list, and no element has a smaller key. -/
theorem pickBy_least {α β : Type} [LinearOrder β] {lt : α → α → Bool} {key : α → β}
    (order : ∀ x y, lt x y = true ↔ key x < key y) {l : List α} {m : α} (h : pickBy lt l = some m) : m ∈ l ∧ ∀ x ∈ l, key m ≤ key x := by
  have best (l : List α) (a : α) : let m := l.foldl (fun m b => if lt b m then b else m) a
      (m = a ∨ m ∈ l) ∧ key m ≤ key a ∧ ∀ x ∈ l, key m ≤ key x := by
    induction l generalizing a with
    | nil => exact ⟨.inl rfl, le_rfl, fun _ h => nomatch h⟩
    | cons b l ih =>
      simp only [List.foldl_cons, List.forall_mem_cons]
      by_cases less : lt b a = true
      · obtain ⟨mem, low, rest⟩ := ih b
        rw [if_pos less]
        exact ⟨.inr (List.mem_cons.mpr mem), low.trans ((order b a).mp less).le, low, rest⟩
      · obtain ⟨mem, low, rest⟩ := ih a
        rw [if_neg less]
        exact ⟨mem.imp_right (List.mem_cons_of_mem b), low, low.trans (not_lt.mp (mt (order b a).mpr less)), rest⟩
  cases l with
  | nil => exact nomatch h
  | cons a l =>
    obtain ⟨mem, low, rest⟩ := best l a
    cases h
    exact ⟨List.mem_cons.mpr mem, List.forall_mem_cons.mpr ⟨low, rest⟩⟩

theorem pickBy_isSome {α : Type} {lt : α → α → Bool} {l : List α} : (pickBy lt l).isSome = true ↔ ∃ x, x ∈ l := by
  cases l with
  | nil => simp [pickBy]
  | cons a l => exact ⟨fun _ => ⟨a, List.mem_cons_self⟩, fun _ => rfl⟩

theorem mem_setBits {w : Nat} {v : BitVec w} {n k : Nat} : k ∈ setBits v n ↔ k < n ∧ v.getLsbD k = true := by
  simp [setBits]

theorem State.deliverable_iff {s : State} {t k : Nat} : s.deliverable t k = true ↔
    (s.irq.pend.getLsbD k = true ∧ s.irqMasked k = false ∧ s.irqTarget k = t ∧ bit (s.tgtCfg t) 0 = true ∧
      mhas s.irq.hold (k / 16) = false ∧ s.irqPrio k < (s.tgt t).running) := by
  simp [State.deliverable, and_assoc]

/-- The sources that a selection is made of. -/
theorem State.mem_deliverables {s : State} {t k : Nat} :
    k ∈ (setBits s.irq.pend 256).filter (s.deliverable t) ↔ k < 256 ∧ s.deliverable t k = true := by
  rw [List.mem_filter, mem_setBits, and_assoc, and_congr_right_iff]
  exact fun _ => ⟨And.right, fun h => ⟨(State.deliverable_iff.mp h).1, h⟩⟩

theorem State.selected_least {s : State} {t k : Nat} (h : s.selected t = some k) : (k < 256 ∧ s.deliverable t k = true) ∧
    ∀ j : Nat, j < 256 → s.deliverable t j = true → s.irqPrio k < s.irqPrio j ∨ (s.irqPrio k = s.irqPrio j ∧ k ≤ j) := by
  have order (a b : Nat) : (decide (s.irqPrio a < s.irqPrio b) || (s.irqPrio a = s.irqPrio b && decide (a < b))) = true ↔
      toLex (s.irqPrio a, a) < toLex (s.irqPrio b, b) := by
    simp [Prod.Lex.toLex_lt_toLex]
  obtain ⟨mem, least⟩ := pickBy_least order h
  exact ⟨State.mem_deliverables.mp mem,
    fun j short d => Prod.Lex.toLex_le_toLex.mp (least j (State.mem_deliverables.mpr ⟨short, d⟩))⟩

theorem State.selected_isSome {s : State} {t : Nat} : (s.selected t).isSome = true ↔ ∃ k : Nat, k < 256 ∧ s.deliverable t k = true :=
  pickBy_isSome.trans (exists_congr fun _ => State.mem_deliverables)

/-- Settles O13: the selection is made of the deliverable sources by PRIO and then ID. -/
theorem interruptSelection : Obligations.InterruptSelection := by
  refine ⟨fun s t k => State.deliverable_iff, fun s t k h => ?least, fun s t => State.selected_isSome⟩
  obtain ⟨⟨-, deliverable⟩, least⟩ := State.selected_least h
  exact ⟨deliverable, least⟩

/-! The statements on the cycle. -/

/-- Settles O10: the samples change the controller alone, and what the cycle presents are messages. -/
theorem interruptCycleFrame : Obligations.InterruptCycleFrame := by
  intro s t
  obtain ⟨i, sampled, targets, hold, ext⟩ := t.irqSampleAll_shape
  obtain ⟨u, presents, cycle⟩ := State.irqCycle_presents s t
  rw [sampled] at presents
  obtain ⟨l, m, rfl, messages, kept⟩ := presents
  rw [cycle]
  have same (n : Nat) : mget IrqTarget.none i.targets n = t.tgt n := congrArg (fun m => mget IrqTarget.none m n) targets
  refine ⟨rfl, rfl, rfl, rfl, rfl, rfl, rfl, rfl, hold, ext, fun n => ?stack, l, rfl, messages⟩
  obtain ⟨stack, overflow⟩ := kept n
  exact ⟨stack.trans (congrArg IrqTarget.stack (same n)), overflow.trans (congrArg IrqTarget.overflow (same n))⟩

/-- What a cycle leaves of a source is what the samples leave of it. -/
theorem State.irqCycle_source (s t : State) (k : Nat) :
    (State.irqCycle s t).irq.source k = ((List.range 128).foldl t.irqSample (t.irq.toggle t)).source k := by
  obtain ⟨u, ⟨l, m, rfl, -, -⟩, cycle⟩ := State.irqCycle_presents s t
  rw [cycle]
  rfl

/-- Settles O11: the sample of the source itself, which no other source's touches. -/
theorem interruptSamples : Obligations.InterruptSamples := by
  intro s t k u now was sense ev
  have cycle := State.irqCycle_source s t k
  refine ⟨fun hard exists_ => ?sampled, fun unsampled => ?kept⟩
  case sampled =>
    rw [t.irqSamples_same hard exists_ List.nodup_range (List.mem_range.mpr hard), t.irqSample_same _ hard exists_] at cycle
    simp only [Irq.source, Prod.mk.injEq] at cycle
    obtain ⟨level, count, pend⟩ := cycle
    exact ⟨level, count, pend⟩
  case kept =>
    by_cases short : k < 256
    · have others (j : Nat) (listed : j ∈ List.range 128) : k ≠ j ∨ (irqSoft k || irqReserved k) = true := by
        rcases unsampled with soft | reserved
        · have := List.mem_range.mp listed
          exact .inl (by omega)
        · exact .inr (by simp [reserved])
      rw [t.irqSamples_other short others] at cycle
      exact congrArg (fun source => source.2.2) cycle
    · rw [BitVec.getLsbD_of_ge _ _ (not_lt.mp short), BitVec.getLsbD_of_ge _ _ (not_lt.mp short)]

/-- Settles O12: the lines are those of the targets that the cycle before left, and each cycle leaves those with a selected source. -/
theorem interruptLines : Obligations.InterruptLines := by
  intro s t n
  have short : n.val < 8 := n.isLt
  have listed : n.val ∈ List.range 8 := List.mem_range.mpr short
  obtain ⟨u, -, cycle⟩ := State.irqCycle_presents s t
  rw [cycle]
  constructor
  · exact (getLsbD_foldl_setBit _ _ _ short).trans (by simp [listed])
  · exact (getLsbD_foldl_setBit (fun t => (s.selected t).isSome) _ _ short).trans (by simp [listed])

end Sys2Proof.Machine
end

section
/-!
SUPPORT. A family of states at rest, in which what R4 allows shows at the end of a step.
-/
namespace Sys2Proof.Machine

/-! A block at rest in a power-fail hold, as `onceListed`, with an interrupt controller and work that waits for the hold's end. -/

def restingWith (i : Irq) (l : List Task) (b : BlockSt) (m : Map Slice) (r : List FltEvent) (n : Nat) : State :=
  { onceListed b m r n with
    core := { (onceListed b m r n).core with todo := l }
    irq := i }

section Rest
variable {i : Irq} {l : List Task} {b : BlockSt} {m : Map Slice}

/-- None of the work is done while the block's work has stopped. -/
theorem restingWith_nextTask (waits : l.find? Task.always = none) (n : Nat) : (restingWith i l b m [] n).core.nextTask = none := by
  have stopped : (restingWith i l b m [] n).core.stopped = true := rfl
  have todo : (restingWith i l b m [] n).core.todo = l := rfl
  simp only [Core.nextTask, stopped, todo, waits, if_true]

theorem restingWith_quiet (waits : l.find? Task.always = none) (n : Nat) : (restingWith i l b m [] n).quiet = true := by
  simp only [State.quiet, restingWith_nextTask waits]
  rfl

theorem restingWith_calm (waits : l.find? Task.always = none) (n : Nat) : (restingWith i l b m [] n).calm = true := by
  simp only [State.calm, restingWith_quiet waits]
  rfl

/-- No procedure is under way. -/
theorem restingWith_reconcile (n : Nat) : (restingWith i l b m [] n).reconcile = restingWith i l b m [] n := by
  generalize e : restingWith i l b m [] n = s
  have unpark : s.unpark = s := by subst e; rfl
  have dump : s.dumpReconcile = s := by subst e; rfl
  have fence : s.fenceReconcile = s := by subst e; rfl
  have pairs : foldS State.galReconcile (List.range 18) s = s := by subst e; exact foldS_fixed (fun _ => rfl) _
  have load : s.loadReconcile = s := by subst e; rfl
  have leave : s.leaveReconcile = s := by subst e; rfl
  have gate : s.gateReconcile = s := by subst e; rfl
  have interrog : s.interrogReconcile = s := by subst e; rfl
  have work : s.workPump = s := by subst e; rfl
  have drain : s.drainReconcile = s := by subst e; rfl
  have admission : s.admitReconcile = s := by subst e; rfl
  have retire : s.retireReconcile = s := by subst e; rfl
  have overlay : s.overlayReconcile = s := by subst e; rfl
  have maint : s.maintReconcile = s := by subst e; rfl
  have deep : s.deepReconcile = s := by subst e; rfl
  simp only [State.reconcile, unpark, dump, fence, pairs, load, leave, gate, interrog, work, drain, admission, retire, overlay, maint, deep]

/-- An event of a source at IGNORE has no effect. -/
theorem restingWith_settle (waits : l.find? Task.always = none) (n : Nat) {e : FltEvent} (h : e.src < 2048) :
    (restingWith i l b m [e] n).onCore Core.settle = restingWith i l b m [] n := by
  have ignored : (restingWith i l b m [] n).core.handle e = (restingWith i l b m [] n).core := by
    simp [Core.handle, Core.severityOf_ignoring (s := (restingWith i l b m [] n).core) rfl h]
  have drained : Core.settle (restingWith i l b m [e] n).core = (restingWith i l b m [] n).core := by
    refine (Core.drain_event 65535 (e := e) (l := []) rfl).trans ((congrArg (Core.drain 65535) ignored).trans ?_)
    exact Core.drain_done 65535 rfl (restingWith_nextTask waits n)
  unfold State.onCore
  rw [drained]
  rfl

theorem restingWith_goOn (waits : l.find? Task.always = none) (s0 : State) (idle : s0.tow.waiting = []) (n : Nat) {e : FltEvent}
    (h : e.src < 2048) : State.goOn s0 (restingWith i l b m [e] n) = restingWith i l b m [] n := by
  have rests (k : Nat) : (restingWith i l b m [] n).pump k = restingWith i l b m [] n := State.pump_quiet k (restingWith_quiet waits n)
  have noisy : (restingWith i l b m [e] n).quiet = false := rfl
  have moved : (restingWith i l b m [] n).moveOut.moveUp.moveIn = restingWith i l b m [] n := rfl
  have pumped (fuel : Nat) : (restingWith i l b m [e] n).pump (fuel + 1) = restingWith i l b m [] n := by
    simp only [State.pump, noisy, restingWith_settle waits n h, moved, rests, Bool.false_eq_true, if_false]
  have none : (restingWith i l b m [] n).resumeAll 0 = restingWith i l b m [] n := rfl
  have first : (restingWith i l b m [e] n).pump pumpFuel = restingWith i l b m [] n := pumped 4095
  simp only [State.goOn, idle, List.length_nil, first, restingWith_reconcile, rests, none]

/-- A step's end takes no free value there. -/
theorem restingWith_finish (waits : l.find? Task.always = none) {s0 : State} (dark : ∀ p, s0.galRuns p = false) (idle : s0.tow.waiting = [])
    (n : Nat) {r : List FltEvent} (h : r = [] ∨ ∃ e, r = [e] ∧ e.src < 2048) :
    (State.finish s0 (restingWith i l b m r n)).core.freeCtr = n := by
  have rests : (if (restingWith i l b m r n).calm then restingWith i l b m r n else State.goOn s0 (restingWith i l b m r n)) =
      restingWith i l b m [] n := by
    rcases h with rfl | ⟨e, rfl, h⟩
    · rw [if_pos (restingWith_calm waits n)]
    · have busy : (restingWith i l b m [e] n).calm = false := rfl
      rw [busy, restingWith_goOn waits s0 idle n h]
      rfl
  unfold State.finish
  split
  · rfl
  · simp only [rests, State.commitAll_dark dark, restingWith_quiet waits, if_true]
    split
    · exact State.irqCycle_freeCtr _ _
    · rfl

theorem restingWith_raise (n : Nat) {src : Nat} (h : src < 2048) (u : famUses (src / 32) (src % 32) = true) :
    (restingWith i l b m [] n).raise (src / 32) (src % 32) = restingWith i l b m [FltEvent.plain src] n := by
  have whole : 32 * (src / 32) + src % 32 = src := Nat.div_add_mod src 32
  have ignored : (restingWith i l b m [] n).core.logEvent (FltEvent.plain src) = (restingWith i l b m [] n).core := by
    simp [Core.logEvent, FltEvent.plain, Core.severityOf_ignoring (s := (restingWith i l b m [] n).core) rfl h]
  have used : famUses ((FltEvent.plain src).src / 32) ((FltEvent.plain src).src % 32) = true := u
  simp only [State.raise, State.onCore, Core.raise, whole, Core.raiseEv, used, if_true, ignored]
  rfl

theorem restingWith_coreUpset (r : List FltEvent) (n : Nat) : ∃ (b' : BlockSt) (m' : Map Slice),
    (restingWith i l b m r n).onCore Core.upset = restingWith i l b' m' r (n + 128) := by
  unfold State.onCore Core.upset
  dsimp only
  obtain ⟨m', h⟩ := Core.foldS_onSlice_eq _ _ _
  rw [h]
  exact ⟨_, m', rfl⟩

/-- R4's effect takes free values, and may report one event. -/
theorem restingWith_upset (n : Nat) : ∃ (b' : BlockSt) (m' : Map Slice) (r : List FltEvent) (k : Nat),
    (restingWith i l b m [] n).upset = restingWith i l b' m' r k ∧ n < k ∧ (r = [] ∨ ∃ e, r = [e] ∧ e.src < 2048) := by
  have raised (w : Word) : ∃ r : List FltEvent, (r = [] ∨ ∃ e, r = [e] ∧ e.src < 2048) ∧
      (if bit w 11 && famUses (bits w 10 0 / 32) (bits w 10 0 % 32) then (restingWith i l b m [] (n + 1)).raise (bits w 10 0 / 32) (bits w 10 0 % 32)
        else restingWith i l b m [] (n + 1)) = restingWith i l b m r (n + 1) := by
    split
    · next h =>
      have src : bits w 10 0 < 2048 := Nat.mod_lt _ (by decide)
      rw [Bool.and_eq_true] at h
      exact ⟨[FltEvent.plain (bits w 10 0)], .inr ⟨_, rfl, src⟩, restingWith_raise (n + 1) src h.2⟩
    · exact ⟨[], .inl rfl, rfl⟩
  obtain ⟨r, events, h⟩ := raised (Config.freeWord n)
  have first : (restingWith i l b m [] n).freeWord = (Config.freeWord n, restingWith i l b m [] (n + 1)) := rfl
  have second : (restingWith i l b m r (n + 1)).freeWord = (Config.freeWord (n + 1), restingWith i l b m r (n + 2)) := rfl
  unfold State.upset
  rw [first]
  dsimp only
  rw [h, second]
  dsimp only
  split
  · obtain ⟨b', m', k⟩ := restingWith_coreUpset (i := i) (l := l) (b := b) (m := m) r (n + 2)
    exact ⟨b', m', r, n + 2 + 128, k, by omega, events⟩
  · exact ⟨b, m, r, n + 2, rfl, by omega, events⟩

/-- R4's effect there shows at the end of a step that began with no pair running and no command waiting. -/
theorem restingWith_upset_shows (waits : l.find? Task.always = none) {s0 : State} (dark : ∀ p, s0.galRuns p = false)
    (idle : s0.tow.waiting = []) (n : Nat) : State.finish s0 (restingWith i l b m [] n).upset ≠ State.finish s0 (restingWith i l b m [] n) := by
  obtain ⟨b', m', r, k, upset, taken, events⟩ := restingWith_upset (i := i) (l := l) (b := b) (m := m) n
  intro same
  have count := congrArg (fun s : State => s.core.freeCtr) same
  rw [upset, restingWith_finish waits dark idle k events, restingWith_finish waits dark idle n (.inl rfl)] at count
  omega

end Rest
end Sys2Proof.Machine
end

section
/-!
SUPPORT. The statement on interrupt inputs and messages; and the one on claims, which fails where a target is listed twice, with the part of it that
fails, of states whose targets are in their form.
-/
namespace Sys2Proof.Machine

/-! Interrupt inputs, hold-off timers and the message channel (R451, R458, R465). -/

theorem State.imsgTaken_first {s : State} {f t : Nat} {m : IMsg} (low : t < 8) (waits : (s.tgt t).wait = some m) (port : m.port = f)
    (others : ∀ u : Nat, u < t → ∀ k : IMsg, (s.tgt u).wait = some k → k.port ≠ f) :
    s.imsgTaken f = s.putTgt t { s.tgt t with wait := none } := by
  unfold State.imsgTaken
  split
  · next u found =>
    obtain ⟨takes, -, least⟩ := List.find?_range_eq_some.mp found
    rcases Nat.lt_trichotomy u t with below | rfl | above
    · split at takes
      · next k w => exact absurd (of_decide_eq_true takes) (others u below k w)
      · exact absurd takes Bool.false_ne_true
    · rfl
    · have passed := least t above
      simp [waits, port] at passed
  · next none =>
    have passed := List.find?_eq_none.mp none t (List.mem_range.mpr low)
    simp [waits, port] at passed

theorem State.imsgResend_presents {s : State} {t : Nat} (signals : bit (s.tgtCfg t) 1 = true) (period : bits (s.tgtCfg t) 15 4 ≠ 0)
    (sent : (s.tgt t).sent = true) (free : (s.tgt t).wait = none) (selects : (s.selected t).isSome = true) :
    s.imsgResend t = s.irqPresent t := by
  unfold State.imsgResend
  simp [signals, period, sent, free, selects]

/-- Settles O14: each by what its own operation does. -/
theorem interruptInputsAndMessages : Obligations.InterruptInputsAndMessages := by
  refine ⟨fun s i up idle => ?input, fun s g able => ?holdoff, fun s f t m able low waits port others => ?taken,
    fun s t able signals period sent free selects => ?resent⟩
  case input => exact State.does_next_to idle rfl
  case holdoff => exact State.doesOn_next_to able rfl
  case taken => exact State.doesOn_next_to able (State.imsgTaken_first low waits port others)
  case resent => exact State.doesOn_next_to able (State.imsgResend_presents signals period sent free selects)

/-! Claims (R460, R465). -/

/-- A read of IRQ_CLAIM answers the claim's value, and has its effect. -/
theorem exec_irqClaim {s : State} (t : Fin 8) (a : s.Able) (h : s.pilotOnly = false) : exec (.irqClaim t) s =
    .next (State.finish s ((s.irqClaim t.val).2.onCore (Core.emit (.value (0x10C20 + t.val * 0x40) (s.irqClaim t.val).1)))) := by
  have value : s.view (0x10C20 + t.val * 0x40) = (s.irqClaim t.val).1 := by
    rw [State.view_irq h (by omega) (by omega)]
    have index : (0x10C20 + t.val * 0x40 - 0x10C00) / 0x40 = t.val := by omega
    have field : (0x10C20 + t.val * 0x40) % 0x40 = 0x20 := by omega
    have page : 0x10C00 ≤ 0x10C20 + t.val * 0x40 ∧ 0x10C20 + t.val * 0x40 < 0x10E00 := by omega
    unfold State.viewIrq
    rw [if_neg (by rw [inArray_iff]; omega), if_neg (by rw [inArray_iff]; omega), if_neg (by rw [inArray_iff]; omega),
      if_neg (by rw [inArray_iff]; omega), if_neg (by rw [inArray_iff]; omega), if_pos page]
    simp only [index, field]
    rfl
  have effect : s.readFxLow (0x10C20 + t.val * 0x40) = (s.irqClaim t.val).2 := by
    have index : (0x10C20 + t.val * 0x40 - 0x10C20) / 0x40 = t.val := by omega
    unfold State.readFxLow
    rw [if_neg (by rw [inArray_iff]; omega), if_pos (inArray_iff.mpr (by omega)), index]
  exact (State.doesOn_readOut_low a h (by omega)).trans (by rw [effect, value])

theorem State.irqClaim_none {s : State} {t : Nat} (h : s.selected t = none) : s.irqClaim t = (0x3FF, s) := by
  unfold State.irqClaim
  rw [h]

/-- What a claim of source k leaves of the controller, but for the stack: its bit cleared, SENT cleared, and its group's hold-off begun. -/
def State.irqClaimed (t k : Nat) (s : State) : State :=
  let us := bits (s.reg (0x10A00 + k / 16 * 8)) 11 0
  { s with irq := { s.irq with
      pend := clearBit s.irq.pend k
      claimed := setBit s.irq.claimed k
      hold := if us = 0 then s.irq.hold else mput s.irq.hold (k / 16) (s.core.tb + us * 100)
      targets := mset IrqTarget.none s.irq.targets t { s.tgt t with sent := false } } }

theorem State.irqClaim_some {s : State} {t k : Nat} (h : s.selected t = some k) :
    s.irqClaim t = (at' k 0 ||| at' (s.irqPrio k) 16, (s.irqClaimed t k).irqPush t (s.irqPrio k) k) := by
  unfold State.irqClaim
  rw [h]
  rfl

theorem State.irqPush_room {s : State} {t prio id : Nat} (room : (s.tgt t).stack.length < 16) :
    s.irqPush t prio id = s.putTgt t { s.tgt t with stack := (prio, id) :: (s.tgt t).stack } := by
  unfold State.irqPush
  exact if_neg (Nat.not_le.mpr room)

/-- The clause of `InterruptClaim` on a claim that finds a source, of states whose targets are in their form. -/
theorem exec_irqClaim_claims {s : State} {t : Fin 8} {k : Nat} (a : s.Able) (h : s.pilotOnly = false)
    (form : mrising 0 s.irq.targets = true) (selects : s.selected t.val = some k) (room : (s.tgt t.val).stack.length < 16) :
    exec (.irqClaim t) s = .next (State.finish s
      (((s.irqClaimed t.val k).putTgt t.val { s.tgt t.val with sent := false, stack := (s.irqPrio k, k) :: (s.tgt t.val).stack }).onCore
        (Core.emit (.value (0x10C20 + t.val * 0x40) (at' k 0 ||| at' (s.irqPrio k) 16))))) := by
  have cleared : (s.irqClaimed t.val k).tgt t.val = { s.tgt t.val with sent := false } := mget_mset_same form
  rw [exec_irqClaim t a h, State.irqClaim_some selects, State.irqPush_room (by rw [cleared]; exact room), cleared]

/-! A state whose targets are not in their form: target 0 is listed twice. -/

/-- A step's end in a calm state leaves every stack as it was. -/
theorem State.finish_stack {s t : State} (lit : t.powered = true) (calm : t.calm = true) (quiet : t.quiet = true)
    (dark : ∀ p, s.galRuns p = false) (n : Nat) : ((State.finish s t).tgt n).stack = (t.tgt n).stack := by
  have same : State.commitAll s t = t := State.commitAll_dark dark t
  rw [quietStepEnd.1 s t lit calm (by rw [same]; exact quiet) (by rw [same]; exact lit), same]
  obtain ⟨-, -, -, -, -, -, -, -, -, -, kept, -⟩ := interruptCycleFrame s t
  exact (kept n).1

/-- Source 128 pends for target 0, which is enabled and has an empty stack; behind its entry stands another, with a stack of one. -/
def targetTwice : State :=
  { resting [(0x10810, BitVec.allOnes 64 - 1), (0x10C00, 1)] .standby [] [] 0 with
    irq := { Irq.reset with
      pend := oneHot 256 128
      targets := [(0, { IrqTarget.none with sent := true }), (0, { IrqTarget.none with stack := [(3, 7)] })] } }

/-- Refutes O15: it speaks of every list of targets, and in `targetTwice`, where target 0 is listed twice, clearing SENT leaves the first entry
at its reset value, which takes it out, so that the claim pushes on the second entry's stack. -/
theorem not_interruptClaim : ¬ Obligations.InterruptClaim := by
  rintro ⟨-, claims⟩
  have able : targetTwice.Able := ⟨rfl, rfl⟩
  have selects : targetTwice.selected 0 = some 128 := by decide +kernel
  have dark (p : Nat) : targetTwice.galRuns p = false := by simp [State.galRuns, targetTwice, resting]
  have same := Host.Outcome.next.inj
    ((exec_irqClaim 0 able rfl).symm.trans (claims targetTwice 0 128 able rfl selects (by decide)))
  rw [State.irqClaim_some (t := (0 : Fin 8).val) selects] at same
  have depth := congrArg (fun s : State => (s.tgt 0).stack.length) same
  dsimp only at depth
  rw [State.finish_stack rfl rfl rfl dark, State.finish_stack rfl rfl rfl dark] at depth
  exact absurd depth (by decide)

end Sys2Proof.Machine
end

section
/-!
SUPPORT. The statement on writes of the counters' and the Logbook's registers; and those on the interrupt stack and on GATE_CTL, which fail where
the stored registers are not in their form, with the parts of them that fail, of states whose registers are.
-/
namespace Sys2Proof.Machine

/-! Registers whose writes are more than setting fields, by their own meaning (R13, R424). -/

section Own
variable {s t : State} {o : Nat} {v : Word}

theorem State.writeAt_ownLow (h : s.pilotOnly = false) (low : o < 0x30000) (own : s.writeOwnLow o v = some t) : s.writeAt o v = t := by
  have holdup : o ≠ 0x30100 := by omega
  simp only [State.writeAt, State.regWrite, State.reached h, holdup, low, own, Bool.false_eq_true, if_false, if_true]

theorem State.writeAt_ownHigh (h : s.pilotOnly = false) (high : 0x30000 ≤ o) (holdup : o ≠ 0x30100) (own : s.writeOwnHigh o v = some t) :
    s.writeAt o v = t := by
  simp only [State.writeAt, State.regWrite, State.reached h, holdup, Nat.not_lt.mpr high, own, Bool.false_eq_true, if_false]

/-- A register from 0x03_0000 up with no behaviour of its own and no RWL field: its writable bits are set, and what follows from them happens. -/
theorem State.writeAt_high (v : Word) (h : s.pilotOnly = false) (high : 0x30000 ≤ o) (holdup : o ≠ 0x30100) (own : s.writeOwnHigh o v = none)
    (free : rwlMask o = 0) (writable : rwMask o ≠ 0) :
    s.writeAt o v = (s.onCore (Core.setReg o ((s.reg o &&& ~~~(rwMask o)) ||| (v &&& rwMask o)))).afterHigh o v := by
  simp only [State.writeAt, State.regWrite, State.reached h, holdup, Nat.not_lt.mpr high, own, writable, State.storeFields_rw (s := s) v free,
    Bool.false_eq_true, if_false]

end Own

/-! EOI, PUSH and IRQ_PEND (R454, R461, R462, R467). -/

theorem State.irqEoi_core (t : Nat) (s : State) : (s.irqEoi t).core = s.core := by
  unfold State.irqEoi
  dsimp only
  split
  · rfl
  · split <;> rfl

theorem exec_irqEoi {s : State} (t : Fin 8) {v : Word} (a : s.Able) (h : s.pilotOnly = false) (eoi : bit v 0 = true) :
    exec (.irqEoi t v) s = .next (State.finish s (s.irqEoi t.val)) := by
  have index : (0x10C28 + t.val * 0x40 - 0x10C28) / 0x40 = t.val := by omega
  have own : s.writeOwnLow (0x10C28 + t.val * 0x40) v = some (s.irqEoi t.val) := by
    unfold State.writeOwnLow
    rw [if_neg (by omega), if_neg (by omega), if_neg (by rw [inArray_iff]; omega), if_neg (by rw [inArray_iff]; omega),
      if_pos (inArray_iff.mpr (by omega)), if_pos eoi, index]
  exact State.writes_to_of_regs a.2 (State.writeAt_ownLow h (by omega) own) (congrArg Core.regs (s.irqEoi_core t.val))

/-- A write of IRQ_RAISE with PUSH stores PRIO and pushes it. -/
theorem State.writeAt_irqRaise {s : State} (t : Fin 8) {v : Word} (h : s.pilotOnly = false) (push : bit v 4 = true) :
    s.writeAt (0x10C30 + t.val * 0x40) v = (s.onCore (Core.setReg (0x10C30 + t.val * 0x40)
      ((s.reg (0x10C30 + t.val * 0x40) &&& ~~~0xF) ||| (v &&& 0xF)))).irqRaise t.val (bits v 3 0) := by
  have writable : ∀ t : Fin 8, rwMask (0x10C30 + t.val * 0x40) = 0xF := by decide
  have free : ∀ t : Fin 8, rwlMask (0x10C30 + t.val * 0x40) = 0 := by decide
  have own : s.writeOwnLow (0x10C30 + t.val * 0x40) v = none := by
    unfold State.writeOwnLow
    rw [if_neg (by omega), if_neg (by omega), if_neg (by rw [inArray_iff]; omega), if_neg (by rw [inArray_iff]; omega),
      if_neg (by rw [inArray_iff]; omega), if_neg (by unfold offIrqFlt; omega), if_neg (by omega), if_neg (by omega),
      if_neg (by rw [inArray_iff]; omega)]
  have index : (0x10C30 + t.val * 0x40 - 0x10C30) / 0x40 = t.val := by omega
  rw [State.writeAt_low v h (by omega) own (free t) (by rw [writable]; decide), writable]
  unfold State.afterLow
  rw [if_neg (by omega), if_neg (by rw [inArray_iff]; omega), if_neg (by rw [inArray_iff]; omega), if_pos (inArray_iff.mpr (by omega)),
    if_pos push, index]

theorem State.irqRaise_room {s : State} {t prio : Nat} (low : prio ≤ (s.tgt t).running) (room : (s.tgt t).stack.length < 16) :
    s.irqRaise t prio = s.putTgt t { s.tgt t with stack := (prio, 0x3FF) :: (s.tgt t).stack } := by
  unfold State.irqRaise
  rw [if_pos low, State.irqPush_room room]

/-- The clause of `InterruptStack` on PUSH, of states whose registers are in their form. -/
theorem exec_irqRaisePush_pushes {s : State} {t : Fin 8} {v : Word} (a : s.Able) (h : s.pilotOnly = false) (form : mrising 0 s.core.regs = true)
    (push : bit v 4 = true) (low : bits v 3 0 ≤ (s.tgt t.val).running) (room : (s.tgt t.val).stack.length < 16) :
    exec (.irqRaisePush t v) s = .next (State.finish s ((s.onCore (Core.setReg (0x10C30 + t.val * 0x40)
      ((s.reg (0x10C30 + t.val * 0x40) &&& ~~~0xF) ||| (v &&& 0xF)))).putTgt t.val
        { s.tgt t.val with stack := (bits v 3 0, 0x3FF) :: (s.tgt t.val).stack })) :=
  State.writes_setReg (o := 0x10C30 + t.val * 0x40) a.2 form (by unfold offInstId; omega)
    ((State.writeAt_irqRaise t h push).trans (State.irqRaise_room low room)) rfl

theorem getLsbD_foldl_putBit {w : Nat} (f : Nat → Bool) (l : List Nat) (v : BitVec w) {k : Nat} (short : k < w) :
    (l.foldl (fun (v : BitVec w) i => putBit v i (f i)) v).getLsbD k = if k ∈ l then f k else v.getLsbD k := by
  induction l generalizing v with
  | nil => rfl
  | cons i l ih =>
    rw [List.foldl_cons, ih, getLsbD_putBit _ _ short]
    by_cases e : k = i
    · subst e
      simp
    · simp [e]

theorem State.irqPendWrite_bit (k : Fin 4) (v : Word) (s : State) {j : Nat} (short : j < 256) : (s.irqPendWrite k.val v).irq.pend.getLsbD j =
    if j / 64 = k.val ∧ irqReserved j = false then v.getLsbD (j % 64) else s.irq.pend.getLsbD j := by
  have written : (j ∈ ((List.range 64).map (fun i => 64 * k.val + i)).filter (fun i => !irqReserved i)) ↔
      j / 64 = k.val ∧ irqReserved j = false := by
    simp only [List.mem_filter, List.mem_map, List.mem_range, Bool.not_eq_true']
    refine and_congr_left fun _ => ⟨?_, fun e => ⟨j % 64, by omega, by omega⟩⟩
    rintro ⟨i, low, rfl⟩
    omega
  exact (getLsbD_foldl_putBit (fun i => v.getLsbD (i % 64)) _ _ short).trans (by simp only [written])

theorem exec_irqPendWrite {s : State} (k : Fin 4) (v : Word) (a : s.Able) (h : s.pilotOnly = false) :
    exec (.irqPendWrite k v) s = .next (State.finish s (s.irqPendWrite k.val v)) := by
  have index : (0x10820 + k.val * 8 - 0x10820) / 8 = k.val := by omega
  have own : s.writeOwnLow (0x10820 + k.val * 8) v = some (s.irqPendWrite k.val v) := by
    unfold State.writeOwnLow
    rw [if_neg (by omega), if_neg (by omega), if_pos (inArray_iff.mpr (by omega)), index]
  exact State.writes_to_of_regs a.2 (State.writeAt_ownLow h (by omega) own) rfl

/-! A state whose stored registers are not in their form: IRQ_RAISE(0) is listed before INST_ID, which reads its reset value behind it. -/

def raiseBehind : State := resting ((0x10C30, 5) :: (0x10, 5) :: ignoring) .standby [] [] 0

/-- The controller after a PUSH of the lowest priority on target 0. -/
def pushedOnce : Irq := { Irq.reset with targets := [(0, { IrqTarget.none with stack := [(15, 0x3FF)] })] }

/-- A PUSH of IRQ_RAISE(0)'s reset value takes its entry out, and INST_ID reads 5 behind it. -/
theorem raiseBehind_write : raiseBehind.writeAt 0x10C30 0x1F = restingWith pushedOnce [] .standby [] [] 0 := by rfl

/-- Refutes O16: it speaks of every list of stored registers, and in `raiseBehind`, where IRQ_RAISE(0) is listed before INST_ID, a PUSH of the
reset value takes IRQ_RAISE(0)'s entry out and uncovers INST_ID's, so that INST_ID has moved and R4's effect, which takes free values, follows. -/
theorem not_interruptStack : ¬ Obligations.InterruptStack := by
  rintro ⟨-, pushes, -⟩
  have idle : raiseBehind.tow.waiting = [] := rfl
  have claimed : exec (.irqRaisePush 0 0x1F) raiseBehind = .next (State.finish raiseBehind (restingWith pushedOnce [] .standby [] [] 0)) :=
    pushes raiseBehind 0 0x1F ⟨rfl, idle⟩ rfl (by decide) (by decide) (by decide)
  have moved : raiseBehind.idMoved (restingWith pushedOnce [] .standby [] [] 0) = true := by decide
  have actual : exec (.irqRaisePush 0 0x1F) raiseBehind =
      .next (State.finish raiseBehind (restingWith pushedOnce [] .standby [] [] 0).upset) :=
    (State.writes_to (f := State.writeAt 0x10C30 0x1F) idle raiseBehind_write).trans (by rw [if_pos moved])
  have dark (p : Nat) : raiseBehind.galRuns p = false := by simp [State.galRuns, raiseBehind, resting]
  exact restingWith_upset_shows rfl dark idle 0 (Host.Outcome.next.inj (actual.symm.trans claimed))

/-! CNT_VAL, LOG_PTR.RD and LOG_MEM.RD (R535, R545, R546, R548). -/

theorem exec_cntValWrite {s : State} (c : Fin 408) (v : Word) (a : s.Able) (h : s.pilotOnly = false) :
    exec (.cntValWrite c v) s = .next (State.finish s (s.cntValWrite c.val v)) := by
  have index : (0x40000 + c.val * 8 - 0x40000) / 8 = c.val := by omega
  have own : s.writeOwnHigh (0x40000 + c.val * 8) v = some (s.cntValWrite c.val v) := by
    unfold State.writeOwnHigh
    rw [if_neg (by omega), if_neg (by rw [inArray_iff]; omega), if_pos (inArray_iff.mpr (by omega)), index]
  exact State.writes_to_of_regs a.2 (State.writeAt_ownHigh h (by omega) (by omega) own) rfl

theorem State.logRd_core (rd : BitVec 12) (s : State) : (s.logRd rd).core = s.core := by
  unfold State.logRd
  split <;> rfl

theorem State.logRd_eq (rd : BitVec 12) (s : State) : s.logRd rd =
    if bit (s.reg 0x43000) 1 = true ∨ 2048 < (s.watch.wr - rd).toNat then s else { s with watch := { s.watch with rd := rd } } := by
  have spill : s.logSpill = bit (s.reg 0x43000) 1 := rfl
  simp only [State.logRd, spill, Bool.or_eq_true, decide_eq_true_eq]
  rfl

theorem State.logMemRd_core (rd : BitVec 32) (s : State) : (s.logMemRd rd).core = s.core := by
  unfold State.logMemRd
  split <;> rfl

/-- Settles O22: each register's own meaning, which stores no other register. -/
theorem watchRegisterWrites : Obligations.WatchRegisterWrites := by
  intro s v a h
  refine ⟨fun c => exec_cntValWrite c v a h, ?ptr, ?mem⟩
  case ptr =>
    exact State.writes_to_of_regs a.2 ((State.writeAt_ownHigh h (by decide) (by decide) rfl).trans (s.logRd_eq _))
      (congrArg Core.regs ((congrArg State.core (s.logRd_eq _)).symm.trans (s.logRd_core _)))
  case mem =>
    exact State.writes_to_of_regs a.2 (State.writeAt_ownHigh h (by decide) (by decide) rfl) (congrArg Core.regs (s.logMemRd_core _))

/-! GATE_CTL (R553, R556, R557). -/

theorem State.writeAt_gateCtl {s : State} (e : Fin 6) (v : Word) (h : s.pilotOnly = false) :
    let t := s.onCore (Core.setReg (0x44000 + e.val * 0x200) ((s.reg (0x44000 + e.val * 0x200) &&& ~~~0xF) ||| (v &&& 0xF)))
    s.writeAt (0x44000 + e.val * 0x200) v = if bit v 2 then t else t.gateResume := by
  have writable : ∀ e : Fin 6, rwMask (0x44000 + e.val * 0x200) = 0xF := by decide
  have free : ∀ e : Fin 6, rwlMask (0x44000 + e.val * 0x200) = 0 := by decide
  have own : s.writeOwnHigh (0x44000 + e.val * 0x200) v = none := by
    unfold State.writeOwnHigh
    rw [if_neg (by omega), if_neg (by rw [inArray_iff]; omega), if_neg (by rw [inArray_iff]; omega), if_neg (by rw [inArray_iff]; omega),
      if_neg (by omega), if_neg (by omega), if_neg (by omega), if_neg (by omega), if_neg (by omega), if_neg (by omega),
      if_neg (by rw [inArray_iff]; omega)]
  rw [State.writeAt_high v h (by omega) (by omega) own (free e) (by rw [writable]; decide), writable]
  unfold State.afterHigh
  rw [if_pos (inArray_iff.mpr (by omega))]

/-- With no dump under way, what a pause held is work of the engine. -/
theorem State.gateResume_idle {s : State} (none : s.watch.dump = none) : s.gateResume =
    s.onCore (fun k => foldS (fun p k => k.task (.kick p)) (List.range 18) ((k.task .larderPump).task .ovfPump)) := by
  simp only [State.gateResume, State.dumpPump, State.onCore_watch, none]

theorem State.gateResume_regs {s : State} (none : s.watch.dump = none) : s.gateResume.core.regs = s.core.regs := by
  rw [State.gateResume_idle none, State.onCore_core, foldS_view (view := Core.regs) fun p k => Core.task_regs (.kick p) k]
  rfl

/-- The statement of `GateRegisterWrites`, of states whose registers are in their form, where no dump goes on with the resumption. -/
theorem exec_gateWrite {s : State} {e : Fin 6} {v : Word} (a : s.Able) (h : s.pilotOnly = false) (form : mrising 0 s.core.regs = true)
    (still : bit v 2 = true ∨ s.watch.dump = none) :
    let t := s.onCore (Core.setReg (0x44000 + e.val * 0x200) ((s.reg (0x44000 + e.val * 0x200) &&& ~~~0xF) ||| (v &&& 0xF)))
    let u := if bit v 2 then t else t.gateResume
    exec (.gatePauseWrite e v) s = .next (State.finish s u) ∧ exec (.gateUpdateWrite e v) s = .next (State.finish s u) := by
  intro t u
  have stored : u.core.regs = t.core.regs := by
    rcases still with paused | none
    · exact congrArg (fun s : State => s.core.regs) (if_pos paused)
    · by_cases paused : bit v 2 = true
      · exact congrArg (fun s : State => s.core.regs) (if_pos paused)
      · exact (congrArg (fun s : State => s.core.regs) (if_neg paused)).trans (State.gateResume_regs none)
  have written : s.writes (State.writeAt (0x44000 + e.val * 0x200) v) = .next (State.finish s u) :=
    State.writes_setReg a.2 form (by unfold offInstId; omega) (State.writeAt_gateCtl e v h) stored
  exact ⟨written, written⟩

/-! A state whose stored registers are not in their form: GATE_CTL(0) is listed before INST_ID, which reads its reset value behind it. -/

def gateBehind : State := resting ((0x44000, 1) :: (0x10, 5) :: ignoring) .standby [] [] 0

/-- What the end of a pause hands to the engine. -/
def resumedWork : List Task := .larderPump :: .ovfPump :: (List.range 18).map .kick

/-- A write of GATE_CTL(0)'s reset value takes its entry out, and INST_ID reads 5 behind it. -/
theorem gateBehind_write : gateBehind.writeAt 0x44000 0 = restingWith Irq.reset resumedWork .standby [] [] 0 := by rfl

/-- Refutes O23: it speaks of every list of stored registers, and in `gateBehind`, where GATE_CTL(0) is listed before INST_ID, a write of the
reset value takes GATE_CTL(0)'s entry out and uncovers INST_ID's, so that INST_ID has moved and R4's effect, which takes free values, follows. -/
theorem not_gateRegisterWrites : ¬ Obligations.GateRegisterWrites := by
  intro writes
  have idle : gateBehind.tow.waiting = [] := rfl
  have effect := (State.writeAt_gateCtl (s := gateBehind) 0 0 rfl).symm.trans gateBehind_write
  have claimed : exec (.gatePauseWrite 0 0) gateBehind =
      .next (State.finish gateBehind (restingWith Irq.reset resumedWork .standby [] [] 0)) :=
    (writes gateBehind 0 0 ⟨rfl, idle⟩ rfl).1.trans (congrArg (fun t => Host.Outcome.next (State.finish gateBehind t)) effect)
  have moved : gateBehind.idMoved (restingWith Irq.reset resumedWork .standby [] [] 0) = true := by decide
  have actual : exec (.gatePauseWrite 0 0) gateBehind =
      .next (State.finish gateBehind (restingWith Irq.reset resumedWork .standby [] [] 0).upset) :=
    (State.writes_to (f := State.writeAt 0x44000 0) idle gateBehind_write).trans (by rw [if_pos moved])
  have dark (p : Nat) : gateBehind.galRuns p = false := by simp [State.galRuns, gateBehind, resting]
  exact restingWith_upset_shows rfl dark idle 0 (Host.Outcome.next.inj (actual.symm.trans claimed))

end Sys2Proof.Machine
end

section
/-!
SUPPORT. The statements on the checks of Towpath commands, their replies, and the session and slice commands.
-/
namespace Sys2Proof.Machine

/-! A command that ends before step 8 of R406 answers, and changes nothing else. -/

/-- Outputs add to those before them, and change nothing else. -/
theorem Core.foldS_emit_eq {α : Type} (x : α → Out) (l : List α) (k : Core) :
    foldS (fun a => Core.emit (x a)) l k = { k with out := (l.map x).reverse ++ k.out } := by
  induction l generalizing k with
  | nil => rfl
  | cons a l ih =>
    refine (ih (k.emit (x a))).trans ?_
    simp [Core.emit]

/-- A state that differs from another in its transports and in outputs added. -/
def State.Answers (s t : State) : Prop := ∃ (l : List Out) (tow : Tow), t = { s with core := { s.core with out := l ++ s.core.out }, tow := tow }

theorem State.wireReady_answers (s : State) (tow : Tow) : s.Answers (State.wireReady { s with tow := tow }) := by
  unfold State.wireReady
  split
  · exact ⟨_, _, congrArg (fun k : Core => ({ s with core := k, tow := _ } : State)) (Core.foldS_emit_eq _ _ s.core)⟩
  · exact ⟨[], tow, rfl⟩

/-- A reply changes its transport alone, and what leaves the block. -/
theorem State.sendReply_answers (v : Via) (y : Reply) (s : State) : s.Answers (s.sendReply v y) := by
  cases v with
  | stream => exact ⟨_, _, congrArg (fun k : Core => ({ s with core := k, tow := _ } : State)) (Core.foldS_emit_eq _ _ s.core)⟩
  | window w => exact ⟨[], _, rfl⟩
  | wire => exact State.wireReady_answers s _

/-- An answer to a command that does not run: its RESULT is the one given, or else the next open value. -/
theorem State.towError_eq (op tag : BitVec 8) (v : Via) (status : BitVec 8) (res : Option Word) (s : State) :
    ∃ (w : Word) (n : Nat), (∀ x : Word, res = some x → w = x) ∧
      s.towError op tag v status res = ({ s with core := { s.core with freeCtr := n } }).sendReply v ⟨op, tag, status, 0, w, []⟩ := by
  cases res with
  | none => exact ⟨Config.freeWord s.core.freeCtr, s.core.freeCtr + 1, nofun, rfl⟩
  | some x => exact ⟨x, s.core.freeCtr, fun _ h => Option.some.inj h, rfl⟩

theorem State.towTake_failed {r : TowRow} {c : TowCmd} {s : State} {st : BitVec 8} {res : Option Word}
    (p : ¬(s.core.block = .pilot ∧ r.states.contains .pilot = false)) (h : State.towCheck r c s = some (st, res)) :
    s.towTake r c = (s.towError r.op c.tag c.via st res).setPrev c.via .bad := by
  unfold State.towTake
  rw [if_neg (by simpa using p), h]

theorem State.towTakeOp_unlisted {op : BitVec 8} {s : State} (c : TowCmd) (above : s.core.block ≠ .pilot) (h : rowOf op = none) :
    s.towTakeOp op c = (s.towError op c.tag c.via tsBadOpcode none).setPrev c.via .bad := by
  unfold State.towTakeOp State.towUnknown
  rw [h, if_neg above]

/-- Settles O25: the chain of checks by its definition, and an answer by `State.towError_eq` and `State.sendReply_answers`. -/
theorem commandChecksInOrder : Obligations.CommandChecksInOrder := by
  unfold Obligations.CommandChecksInOrder
  refine ⟨fun r c s => ?_, fun r c s st res pilot failed => ?_, fun c s op above unlisted => ?_, fun v y s => ?_⟩
  · unfold State.towCheck
    simp only [apply_ite (Option.map Prod.fst), Option.map_some, Option.map_none]
    rfl
  · obtain ⟨w, n, given, answer⟩ := State.towError_eq r.op c.tag c.via st res s
    exact ⟨w, n, given, (State.towTake_failed pilot failed).trans (congrArg (State.setPrev c.via .bad) answer)⟩
  · obtain ⟨w, n, _, answer⟩ := State.towError_eq op c.tag c.via tsBadOpcode none s
    exact ⟨w, n, (State.towTakeOp_unlisted c above unlisted).trans (congrArg (State.setPrev c.via .bad) answer)⟩
  · obtain ⟨l, tow, answer⟩ := State.sendReply_answers v y s
    rw [answer]
    exact ⟨rfl, rfl, rfl, rfl, rfl, rfl, rfl, l, rfl⟩

/-- A command whose transport owes an earlier reply waits (R410). -/
theorem State.towRow_behind {r : TowRow} {c : TowCmd} {s : State} (isOpen : s.viaOpen c.via = true) (owes : s.towHeld c.via = true) :
    State.towRow r c s = (s.viaTaken r.op c).onTow (fun t => { t with waiting := t.waiting ++ [(r.op, c)] }) := by
  unfold State.towRow State.towArrive
  simp only [isOpen, State.viaTaken_towHeld, owes, Bool.not_true, Bool.false_eq_true, if_false, if_true]

/-- Settles O26. -/
theorem acceptedCommandRuns : Obligations.AcceptedCommandRuns := by
  unfold Obligations.AcceptedCommandRuns
  exact ⟨fun r c s => State.towRow_taken, fun r c s => State.towRow_behind⟩

/-! The end of a command (R404, R407, R411 to R413). -/

/-- A command that has ended is no longer running, and the chain condition knows how it ended. -/
def State.delisted (q : Running) (st : BitVec 8) (s : State) : State :=
  { s with tow := { s.tow with
    running := s.tow.running.filter (fun r => r.id != q.id)
    prev := if mget Prev.none s.tow.prev (viaCode q.via) = .run q.id then
      mset Prev.none s.tow.prev (viaCode q.via) (if st = 0 then .ok else .bad) else s.tow.prev } }

/-- The completion of a long command, sent on the streaming port and held for the other transports. -/
def State.completion (q : Running) (st : BitVec 8) (res : Word) (l : List Word) (s : State) : State :=
  let kept : State := { s with tow := { s.tow with held := s.tow.held ++ [⟨q.via, q.tag, st, res, l⟩] } }
  match q.via with
  | .stream => s.sendReply .stream ⟨q.op, q.tag, st, 2, res, l⟩
  | .window w => kept.putWindow w.val { s.window w.val with done := true }
  | .wire => kept

theorem State.complete_found {s : State} {q : Running} (st : BitVec 8) (res : Word) (l : List Word)
    (found : s.tow.running.find? (fun r => r.id = q.id) = some q) :
    s.complete q.id st res l =
      if q.long = false then (s.delisted q st).sendReply q.via ⟨q.op, q.tag, st, 0, res, l⟩
      else if q.live = false then s.delisted q st
      else (s.delisted q st).completion q st res l := by
  have ends : (if mget Prev.none s.tow.prev (viaCode q.via) = .run q.id then
      (s.onTow (fun t => { t with running := t.running.filter (fun r => r.id != q.id) })).setPrev q.via (if st = tsOk then .ok else .bad)
      else s.onTow (fun t => { t with running := t.running.filter (fun r => r.id != q.id) })) = s.delisted q st := by
    unfold State.delisted
    split <;> rfl
  unfold State.complete
  rw [found]
  dsimp only
  simp only [show (s.onTow (fun t => { t with running := t.running.filter (fun r => r.id != q.id) })).tow.prev = s.tow.prev from rfl, ends,
    Bool.not_eq_eq_eq_not, Bool.not_true]
  unfold State.completion
  cases q.via <;> rfl

section Completed
variable {s : State} {q : Running} (st : BitVec 8) (res : Word) (l : List Word)

theorem State.completion_stream (h : q.via = .stream) :
    s.completion q st res l = s.sendReply .stream ⟨q.op, q.tag, st, 2, res, l⟩ := by
  simp only [State.completion, h]

theorem State.completion_wire (h : q.via = .wire) :
    s.completion q st res l = { s with tow := { s.tow with held := s.tow.held ++ [⟨.wire, q.tag, st, res, l⟩] } } := by
  simp only [State.completion, h]

theorem State.completion_window {w : Fin 8} (h : q.via = .window w) :
    s.completion q st res l = { s with tow := { s.tow with
      held := s.tow.held ++ [⟨.window w, q.tag, st, res, l⟩]
      windows := mset Window.none s.tow.windows w.val { s.window w.val with done := true } } } := by
  simp only [State.completion, h]
  rfl

theorem State.complete_long (found : s.tow.running.find? (fun r => r.id = q.id) = some q) (long : q.long = true) (live : q.live = true) :
    s.complete q.id st res l = (s.delisted q st).completion q st res l := by
  rw [State.complete_found st res l found, if_neg (by simp [long]), if_neg (by simp [live])]

end Completed

/-- Settles O27: `State.complete_found`, by the command's length and its transport. -/
theorem repliesByTransport : Obligations.RepliesByTransport := by
  unfold Obligations.RepliesByTransport
  intro s q st res l found
  have ends := State.complete_found st res l found
  have completes := State.complete_long st res l found
  exact ⟨fun short => ends.trans (if_pos short),
    fun long freed => ends.trans ((if_neg (by simp [long])).trans (if_pos freed)),
    fun long live stream => (completes long live).trans (State.completion_stream st res l stream),
    fun long live wire => (completes long live).trans (State.completion_wire st res l wire),
    fun w long live window => (completes long live).trans (State.completion_window st res l window),
    fun w y => rfl⟩

/-! The session commands (R421 to R423). -/

theorem State.identity_words (s : State) (v : Via) : let early := decide (s.core.block = .pilot ∨ s.core.block = .init)
    s.identity v =
      [0x20000,
       at' s.core.block.code 8 ||| at' s.pwr.strapLeader.toNat 16 ||| at' s.pwr.strapAddr.toNat 24 ||| (if early then 0 else at' s.self.toNat 0),
       if early then 0 else Config.digest, at' (s.towPriv v) 0 ||| at' (viaWord v) 0] := by
  unfold State.identity
  rw [← Bool.decide_or]
  dsimp only
  split
  · simp only [BitVec.ofNat_eq_ofNat, BitVec.or_zero]
  · rfl

/-- With no completion held for it, a tag is in use while its command runs, or while the streaming port has its completion to deliver. -/
theorem State.tagUsed_unheld {s : State} {c : TowCmd} (h : s.heldFor c = none) : s.tagUsed c.via (c.param.setWidth 8) =
    (s.tow.running.any (fun r => r.long && r.live && viaSame r.via c.via && r.tag = c.param.setWidth 8) ||
      (c.via = .stream && s.tow.replies.any (fun e => e.1 = some (c.param.setWidth 8)))) := by
  have unheld : s.tow.held.any (fun h => viaSame h.via c.via && h.tag = c.param.setWidth 8) = false :=
    List.any_eq_false.mpr (List.find?_eq_none.mp h)
  rw [State.tagUsed, unheld, Bool.or_false]

/-- Settles O28: each command's run, by its row. -/
theorem sessionCommands : Obligations.SessionCommands := by
  unfold Obligations.SessionCommands
  refine ⟨fun s c taken => State.does_towRow taken, fun s c taken => State.does_towRow_to taken ?_, fun s c taken => State.does_towRow_to taken ?_,
    fun s c taken => State.does_towRow taken⟩
  · exact congrArg (fun l => (s.begun rowIdentify c).completePay s.tow.nextCmd l) (State.identity_words _ c.via)
  · change (s.begun rowTagQuery c).tagQuery s.tow.nextCmd c = _
    unfold State.tagQuery
    split
    next h held =>
      rw [show List.find? _ _ = some h from held]
      rfl
    next unheld =>
      rw [State.tagUsed_unheld unheld, show List.find? _ _ = none from unheld]
      rfl

/-! The slice lifecycle commands (R419, R433 to R436). -/

/-- Settles O33: each command's run, by its row. -/
theorem sliceCommands : Obligations.SliceCommands := by
  unfold Obligations.SliceCommands
  exact ⟨fun s c taken => State.does_towRow taken, fun s c taken => State.does_towRow taken, fun s c taken => State.does_towRow taken,
    fun s c taken => State.does_towRow taken, fun s c taken => State.does_towRow taken, fun s c taken => State.does_towRow taken,
    fun s c taken => State.does_towRow taken⟩

end Sys2Proof.Machine
end

section
/-!
SUPPORT. The statements on the observability commands and on the credits of reply words.
-/
namespace Sys2Proof.Machine

/-! The observability commands (R446 to R448, R400, R538). -/

/-- Settles O39: each command's run, by its row. -/
theorem observabilityCommands : Obligations.ObservabilityCommands := by
  unfold Obligations.ObservabilityCommands
  refine ⟨fun s c taken => State.does_towRow taken, fun s c taken => State.does_towRow taken,
    fun s c taken => ⟨fun idle => State.does_towRow_to taken ?_, fun d runs => State.does_towRow_to taken ?_⟩,
    fun s c taken => State.does_towRow taken, fun s c taken => State.does_towRow_to taken ?_, fun s c taken => State.does_towRow taken⟩
  · change (s.begun rowDumpNow c).dumpNow s.tow.nextCmd = _
    unfold State.dumpNow
    rw [idle]
  · change (s.begun rowDumpNow c).dumpNow s.tow.nextCmd = _
    unfold State.dumpNow
    rw [runs]
    rfl
  · change (s.begun rowFltInject c).fltInject s.tow.nextCmd c = _
    unfold State.fltInject
    rw [show injSource c = bits c.param 10 0 from rfl]
    cases (s.begun rowFltInject c).core.seqFor (bits c.param 10 0) <;> rfl

/-! Reply words and their credits (R411, R586). -/

theorem flushWords_fits {c : Nat} {e : Option (BitVec 8) × List Word} (l : List (Option (BitVec 8) × List Word)) (h : e.2.length ≤ c) :
    flushWords c (e :: l) =
      (e.2 ++ (flushWords (c - e.2.length) l).1, (flushWords (c - e.2.length) l).2.1, (flushWords (c - e.2.length) l).2.2) := if_pos h

theorem flushWords_cut {c : Nat} {e : Option (BitVec 8) × List Word} (l : List (Option (BitVec 8) × List Word)) (h : ¬ e.2.length ≤ c) :
    flushWords c (e :: l) = (e.2.take c, 0, (e.1, e.2.drop c) :: l) := if_neg h

/-- Settles O41: by induction over the replies that wait, by whether the first fits into the credits. -/
theorem streamingCredits : Obligations.StreamingCredits := by
  unfold Obligations.StreamingCredits
  intro c l
  induction l generalizing c with
  | nil => exact ⟨rfl, Nat.zero_add c, fun _ => rfl, List.suffix_refl _⟩
  | cons e l ih =>
    by_cases fits : e.2.length ≤ c
    · obtain ⟨words, spent, idle, order⟩ := ih (c - e.2.length)
      rw [flushWords_fits l fits]
      refine ⟨?_, ?_, idle, order.trans (List.suffix_cons _ _)⟩
      · simp [← words]
      · simp only [List.length_append]
        omega
    · rw [flushWords_cut l fits]
      refine ⟨?_, ?_, fun h => absurd rfl h, List.suffix_refl _⟩
      · simp [← List.append_assoc]
      · simp only [List.length_take]
        omega

end Sys2Proof.Machine
end

section
/-!
SUPPORT. The statement on the commit exchange and discovery.
-/
namespace Sys2Proof.Machine

/-! Members in ascending order, and the lowest of them with a property (R509). -/

theorem Core.members_ascending (k : Core) : k.members.Pairwise (· < ·) := by
  unfold Core.members setBits
  refine List.pairwise_map.mpr ((List.pairwise_lt_range.filter _).imp_of_mem fun {a b} _ hb h => ?_)
  have bound : b < 64 := List.mem_range.mp (List.mem_of_mem_filter hb)
  rw [BitVec.lt_def, BitVec.toNat_ofNat, BitVec.toNat_ofNat]
  omega

theorem find?_lowest {w : Nat} {l : List (BitVec w)} {p : BitVec w → Bool} {m : BitVec w} (asc : l.Pairwise (· < ·)) (mem : m ∈ l)
    (hit : p m = true) (low : ∀ q ∈ l, q < m → p q = false) : l.find? p = some m := by
  induction l with
  | nil => exact absurd mem List.not_mem_nil
  | cons a l ih =>
    obtain ⟨first, rest⟩ := List.pairwise_cons.mp asc
    obtain rfl | later := List.mem_cons.mp mem
    · exact List.find?_cons_of_pos hit
    · rw [List.find?_cons_of_neg (by simp [low a List.mem_cons_self (first m later)])]
      exact ih rest later fun q hq => low q (List.mem_cons_of_mem a hq)

/-! The table of R509, row by row. -/

/-- The report that the leader has kept of a member. -/
def State.reportOf (s : State) (m : BitVec 6) : Option Report := s.start.commit.reports.find? (fun r => r.inst = m)

theorem State.reportOf_inst {s : State} {m : BitVec 6} {r : Report} (h : s.reportOf m = some r) : r.inst = m :=
  of_decide_eq_true (List.find?_some (p := fun r : Report => decide (r.inst = m)) h)

section Outcome
variable {s : State}

/-- The first report with a property is the lowest reporting member's. -/
theorem State.firstReport {bad : Report → Bool} {m : BitVec 6} {r : Report} (mem : m ∈ s.core.members) (kept : s.reportOf m = some r)
    (hit : bad r = true) (low : ∀ q ∈ s.core.members, q < m → ∀ x, s.reportOf q = some x → bad x = false) :
    (s.core.members.filterMap s.reportOf).find? bad = some r := by
  have lowest : s.core.members.find? (fun q => (s.reportOf q).any bad) = some m :=
    find?_lowest s.core.members_ascending mem (by simpa [kept] using hit)
      fun q hq h => by
        cases hx : s.reportOf q with
        | none => rfl
        | some x => exact low q hq h x hx
  rw [List.find?_filterMap, lowest]
  exact kept

theorem State.noReport {bad : Report → Bool} (good : ∀ q ∈ s.core.members, ∀ x, s.reportOf q = some x → bad x = false) :
    (s.core.members.filterMap s.reportOf).find? bad = none := by
  refine List.find?_eq_none.mpr fun x hx => ?_
  obtain ⟨q, hq, kept⟩ := List.mem_filterMap.mp hx
  simp [good q hq x kept]

/-- The table's rows, over the reports that the leader has kept. -/
theorem State.commitOutcome_eq (s : State) : s.commitOutcome =
    match (s.core.members.filterMap s.reportOf).find? (fun r => r.code != 0) with
    | some r => (r.code, r.entry, r.inst)
    | none =>
      match (s.core.members.filterMap s.reportOf).find? (fun r => r.id != s.start.commit.id) with
      | some r => (0x15, 0, r.inst)
      | none =>
        match s.core.members.find? (fun m => (s.reportOf m).isNone) with
        | some m => (0x16, 0, m)
        | none => (0, 0, 0) := rfl

/-- Every member that has reported has passed its checks; it has the leader's identifier; it has reported at all. -/
def State.CodesPass (s : State) : Prop := ∀ q ∈ s.core.members, ∀ r : Report, s.reportOf q = some r → r.code = 0
def State.IdsAgree (s : State) : Prop := ∀ q ∈ s.core.members, ∀ r : Report, s.reportOf q = some r → r.id = s.start.commit.id
def State.AllReport (s : State) : Prop := ∀ q ∈ s.core.members, (s.reportOf q).isSome = true

theorem State.commitOutcome_code {m : BitVec 6} {r : Report} (mem : m ∈ s.core.members) (kept : s.reportOf m = some r) (fails : r.code ≠ 0)
    (low : ∀ q ∈ s.core.members, q < m → ∀ x, s.reportOf q = some x → x.code = 0) : s.commitOutcome = (r.code, r.entry, m) := by
  have first := State.firstReport (bad := fun x => x.code != 0) mem kept (by simpa using fails) fun q hq h x hx => by simp [low q hq h x hx]
  simp only [State.commitOutcome_eq, first, State.reportOf_inst kept]

theorem State.noCode (pass : s.CodesPass) : (s.core.members.filterMap s.reportOf).find? (fun x => x.code != 0) = none :=
  State.noReport fun q hq x hx => by simp [pass q hq x hx]

theorem State.noId (agree : s.IdsAgree) : (s.core.members.filterMap s.reportOf).find? (fun x => x.id != s.start.commit.id) = none :=
  State.noReport fun q hq x hx => by simp [agree q hq x hx]

theorem State.commitOutcome_id {m : BitVec 6} {r : Report} (pass : s.CodesPass) (mem : m ∈ s.core.members) (kept : s.reportOf m = some r)
    (differs : r.id ≠ s.start.commit.id) (low : ∀ q ∈ s.core.members, q < m → ∀ x, s.reportOf q = some x → x.id = s.start.commit.id) :
    s.commitOutcome = (0x15, 0, m) := by
  have first := State.firstReport (bad := fun x => x.id != s.start.commit.id) mem kept (by simpa using differs)
    fun q hq h x hx => by simp [low q hq h x hx]
  simp only [State.commitOutcome_eq, State.noCode pass, first, State.reportOf_inst kept]

theorem State.commitOutcome_missing {m : BitVec 6} (pass : s.CodesPass) (agree : s.IdsAgree) (mem : m ∈ s.core.members)
    (silent : s.reportOf m = none) (low : ∀ q ∈ s.core.members, q < m → (s.reportOf q).isSome = true) : s.commitOutcome = (0x16, 0, m) := by
  have first : s.core.members.find? (fun q => (s.reportOf q).isNone) = some m :=
    find?_lowest s.core.members_ascending mem (by simp [silent]) fun q hq h => by simpa using low q hq h
  simp only [State.commitOutcome_eq, State.noCode pass, State.noId agree, first]

theorem State.commitOutcome_agreed (pass : s.CodesPass) (agree : s.IdsAgree) (all : s.AllReport) : s.commitOutcome = (0, 0, 0) := by
  have nobody : s.core.members.find? (fun q => (s.reportOf q).isNone) = none :=
    List.find?_eq_none.mpr fun q hq => by simpa [Option.isSome_iff_ne_none] using all q hq
  simp only [State.commitOutcome_eq, State.noCode pass, State.noId agree, nobody]

end Outcome

/-- The one COMMIT_GO of the leader, to every member and to itself. -/
def State.commitGo (code entry : BitVec 8) (inst : BitVec 6) (s : State) : State :=
  let h := commitHdr s.start.commit.id code entry inst
  (foldS (fun m s => s.culControl opCommitGo m h none) (s.core.members.filter (fun m => m != s.self))
    (s.onCommit (fun c => { c with deciding := false, reports := [] }))).takeCommitGo h

theorem State.commitReportLimit_decides {s : State} {code entry : BitVec 8} {inst : BitVec 6} (deciding : s.start.commit.deciding = true)
    (outcome : s.commitOutcome = (code, entry, inst)) : s.commitReportLimit = s.commitGo code entry inst := by
  unfold State.commitReportLimit State.commitDecide State.commitGo
  rw [if_pos deciding, outcome]
  rfl

theorem State.commitReportLimit_idle {s : State} (h : s.start.commit.deciding = false) : s.commitReportLimit = s := if_neg (by simp [h])

theorem State.commitGoLimit_idle {s : State} (h : s.start.commit.cmd = none ∨ s.start.commit.isLeader = true) : s.commitGoLimit = s :=
  if_neg (by rcases h with h | h <;> simp [h])

theorem State.commitGoLimit_fails {s : State} (h : s.start.commit.cmd.isSome = true) (member : s.start.commit.isLeader = false) :
    s.commitGoLimit = s.commitFail 0x16 0 s.start.commit.leader := if_pos (by simp [h, member])

/-! The timers of discovery (R432, R504). -/

theorem State.discEnd_idle {s : State} (status : BitVec 8) (h : s.start.disc.cmd = none) : s.discEnd status = s := by
  unfold State.discEnd
  rw [h]

theorem State.helloResend_idle {s : State} (h : s.start.disc.cmd = none) : s.helloResend = s := if_pos (by simp [h])

theorem State.discQuiet_idle {s : State} (h : s.start.disc.cmd = none ∨ s.start.disc.resent = false) : s.discQuiet = s := by
  unfold State.discQuiet
  split
  next resent => exact State.discEnd_idle tsOk (h.resolve_right (by simp [resent]))
  next => rfl

/-- Settles O56: the leader's limit by the rows of its table, the member's limit and discovery's timers by what they find under way. -/
theorem commitAndDiscovery : Obligations.CommitAndDiscovery := by
  unfold Obligations.CommitAndDiscovery
  refine ⟨fun s able deciding => ?_, fun s able idle => State.doesOn_next_to able (State.commitReportLimit_idle idle), fun s able => ?_,
    fun s able => ?_⟩
  · have decides {code entry : BitVec 8} {inst : BitVec 6} (outcome : s.commitOutcome = (code, entry, inst)) :=
      State.doesOn_next_to able (State.commitReportLimit_decides deciding outcome)
    exact ⟨fun m r mem kept fails low => decides (State.commitOutcome_code mem kept fails low),
      fun pass => ⟨fun m r mem kept differs low => decides (State.commitOutcome_id pass mem kept differs low),
        fun agree => ⟨fun m mem silent low => decides (State.commitOutcome_missing pass agree mem silent low),
          fun all => decides (State.commitOutcome_agreed pass agree all)⟩⟩⟩
  · refine ⟨fun idle => State.doesOn_next_to able (State.commitGoLimit_idle idle), fun i runs member => State.doesOn_next_to able ?_⟩
    rw [State.commitGoLimit_fails (by rw [runs]; rfl) member]
    unfold State.commitFail
    rw [runs]
    rfl
  · refine ⟨fun idle =>
        ⟨State.doesOn_next_to able (State.helloResend_idle idle), State.doesOn_next_to able (State.discEnd_idle tsFailed idle)⟩,
      fun idle => State.doesOn_next_to able (State.discQuiet_idle idle),
      fun i runs => ⟨State.doesOn_next_to able (if_neg (by simp [runs])), State.doesOn_next_to able ?_,
        fun resent => State.doesOn_next_to able ((if_pos resent).trans ?_)⟩⟩
    · unfold State.discLimit State.discEnd
      rw [runs]
      rfl
    · unfold State.discEnd
      rw [runs]
      rfl

end Sys2Proof.Machine
end
